-- ==== Sys2Proof/Word.lean ====
section
/-!
DEFINITION. The word types of the model: a BAR0 register word (R10), a byte, and an HBM3E data word with its
check bits (R466).
-/
namespace Sys2Proof

/-- A BAR0 register word: 32 bits (R10). -/
abbrev Word := BitVec 32

/-- One byte of a descriptor, packet, ring entry or memory. -/
abbrev Byte := BitVec 8

/-- The 128 data bits of one CPC word (R466). -/
abbrev Data128 := BitVec 128

/-- The 24 check bits of one CPC word: P in [7:0], Q in [23:8] (R467). -/
abbrev Check24 := BitVec 24

end Sys2Proof
end

