-- ==== Sys2Proof/Machine/TypesCmd.lean ====
section
/-!
DEFINITION. The shapes of the operands that commands carry: what arrives at the device from outside.
-/
namespace Sys2Proof.Machine

/-- A BiSS-C frame as received: position, the bits nE and nW, and the 6-bit CRC as sent (R341). -/
structure Biss where
  pos : Nat
  ne : Bool
  nw : Bool
  crc : Nat
  deriving DecidableEq, Repr

/-- A long packet as received: its virtual channel, data type, word count in bytes, pixel values, and whether its header
could be corrected and its CRC-16 is right. -/
structure CsiPacket where
  vc : Nat
  dtype : Nat
  wc : Nat
  pixels : List Nat
  hdrOk : Bool := true
  crcOk : Bool := true
  deriving DecidableEq, Repr

/-- How far a channel had carried out its current instruction when a bus error struck (R427, R428): the channel, the
instruction word where the program lies in host memory, how many accesses were made, and the bytes host memory had
delivered. -/
structure ChPart where
  ch : Nat
  word : Nat
  steps : Nat
  data : List Byte
  deriving DecidableEq, Repr

/-- One request presented at a level-1 arbiter (R452): arbiter, requester, service class, byte address, the bytes of a
write or the length of a read, all within one granule. -/
structure HReq where
  arb : Nat
  req : Nat
  cls : Nat
  addr : Nat
  len : Nat
  write : Option (List Byte) := none
  deriving DecidableEq, Repr

/-- A word of on-chip memory that is read (R475, R476): the queue entry of a column, the strike-map state or the
not-started mask of a column's line-pass, the ledger counters of a slot, or any word of another decoder's memory. -/
inductive SramWord where
  | queue (c : Nat)
  | state (c : Nat)
  | mask (c : Nat)
  | ledger (k : Nat)
  | local_ (dec : Nat)
  deriving DecidableEq, Repr

/-- An on-chip word whose read finds it in error (R475, R478, R480): what it is, its word index within its decoder's
memory, and its syndrome. -/
structure Upset where
  word : SramWord
  addr : Nat
  syn : Nat
  deriving DecidableEq, Repr

end Sys2Proof.Machine
end

