-- ==== Sys2Proof/Syntax.lean ====
section
/-!
DEFINITION. The commands: one constructor per row of the opcode table. A command is a happening at the device's boundary
or one that the device's own engines bring about. An operand says what the row leaves to the outside: which ring, tile,
column or port, the words and bytes that arrive, and, where the state does not fix the instant, `dt`, the core cycles that
pass before it.
-/
namespace Sys2Proof

open Sys2Proof.Machine

/-- The commands (one per row of the opcode table). -/
inductive Instr where
  | tickEdge (ups : List Upset)   -- TICK_EDGE, R39
  | commitPoint (dt : Nat)   -- COMMIT_POINT, R352
  | stallTimeout   -- STALL_TIMEOUT, R37
  | sealWindowOpen   -- SEAL_WINDOW_OPEN, R40
  | strikeCriticalWindowEnd   -- STRIKE_CRITICAL_WINDOW_END, R450
  | mainRailFail (dt : Nat)   -- MAIN_RAIL_FAIL, R653
  | mainPorRelease (straps : Nat) (bist : Option (Nat × Nat)) (dt : Nat)   -- MAIN_POR_RELEASE, R64
  | sysRstNRise (straps : Nat) (bist : Option (Nat × Nat)) (dt : Nat)   -- SYS_RST_N_RISE, R65
  | deviceReset (dt : Nat)   -- DEVICE_RESET, R72
  | topReset (v : Nat) (bist : Option (Nat × Nat)) (dt : Nat)   -- TOP_RESET, R75
  | perstNRise (dt : Nat)   -- PERST_N_RISE, R66
  | hostInterfaceReset (why dt : Nat)   -- HOST_INTERFACE_RESET, R401
  | functionLevelReset (dt : Nat)   -- FUNCTION_LEVEL_RESET, R73
  | busMasterEnable (on msixEn msixMask : Bool) (dt : Nat)   -- BUS_MASTER_ENABLE, R365
  | safPowerOn (dt : Nat)   -- SAF_POWER_ON, R548
  | vddSafLoss (dt : Nat)   -- VDD_SAF_LOSS, R71
  | metPowerOn (nv : Option (List (List Byte) × Nat)) (rom : Bool) (otp : Option Nat) (dt : Nat)   -- MET_POWER_ON, R594
  | vddMetLoss (dt : Nat)   -- VDD_MET_LOSS, R600
  | sessionOpen (dt : Nat)   -- SESSION_OPEN, R392
  | sessionAuth (dt : Nat)   -- SESSION_AUTH, R392
  | sessionClose (dt : Nat)   -- SESSION_CLOSE, R395
  | sessionKeepalive (dt : Nat)   -- SESSION_KEEPALIVE, R395
  | nop (dt : Nat)   -- NOP, R378
  | modeSet (dt : Nat)   -- MODE_SET, R52
  | resume (dt : Nat)   -- RESUME, R57
  | libValidate (dt : Nat)   -- LIB_VALIDATE, R108
  | libValidateDone (dt : Nat)   -- LIB_VALIDATE_DONE, R108
  | calRun (dt : Nat)   -- CAL_RUN, R330
  | selfTest (dt : Nat)   -- SELF_TEST, R332
  | segment (n : Nat) (words : List (BitVec 64)) (dt : Nat)   -- SEGMENT, R381
  | segmentComplete (n dt : Nat)   -- SEGMENT_COMPLETE, R85
  | channelStart (dt : Nat)   -- CHANNEL_START, R409
  | metBuildBegin (dt : Nat)   -- MET_BUILD_BEGIN, R596
  | metBuildEnd (dt : Nat)   -- MET_BUILD_END, R596
  | metExport (dt : Nat)   -- MET_EXPORT, R596
  | sessionTimeout   -- SESSION_TIMEOUT, R395
  | challengeExpiry   -- CHALLENGE_EXPIRY, R393
  | sessionLockoutEnd   -- SESSION_LOCKOUT_END, R394
  | relayTimeout   -- RELAY_TIMEOUT, R383
  | doorbell (o len v dt : Nat)   -- DOORBELL, R371, R372
  | descriptorFetch (n : Nat) (bytes : Option (List Byte)) (dt : Nat)   -- DESCRIPTOR_FETCH, R374
  | ringEnable (n v dt : Nat)   -- RING_ENABLE, R370
  | ringDisable (n v dt : Nat)   -- RING_DISABLE, R400
  | fetchErrClear (n dt : Nat)   -- FETCH_ERR_CLEAR, R402
  | irqDelayExpiry (n : Nat)   -- IRQ_DELAY_EXPIRY, R404
  | telemetryPeriod   -- TELEMETRY_PERIOD, R397
  | layerCompletion (dt : Nat)   -- LAYER_COMPLETION, R389
  | metRecordExport (dt : Nat)   -- MET_RECORD_EXPORT, R595
  | layerBegin (n dt : Nat)   -- LAYER_BEGIN, R92
  | classTable (n dt : Nat)   -- CLASS_TABLE, R93
  | stripeBegin (n dt : Nat)   -- STRIPE_BEGIN, R94
  | layerEnd (n dt : Nat)   -- LAYER_END, R97
  | rect (n dt : Nat)   -- RECT, R98
  | trap (n dt : Nat)   -- TRAP, R99
  | ref_ (n dt : Nat)   -- REF, R100
  | aref (n dt : Nat)   -- AREF, R100
  | rawBlock (n dt : Nat)   -- RAW_BLOCK, R111
  | sheafCheck (n dt : Nat)   -- SHEAF_CHECK, R115
  | fence (n dt : Nat)   -- FENCE, R117
  | layerAccept (dt : Nat)   -- LAYER_ACCEPT, R91
  | strokeAccept (dt : Nat)   -- STROKE_ACCEPT, R142
  | fenceReached (n id dt : Nat)   -- FENCE_REACHED, R118
  | blockRowBegin (t dt : Nat)   -- BLOCK_ROW_BEGIN, R144
  | blockExpanded (t : Nat) (glitch : List (Nat × Nat × Nat)) (poison : Bool) (dt : Nat)   -- BLOCK_EXPANDED, R150
  | rebuildStart (t dt : Nat)   -- REBUILD_START, R156
  | rebuildComplete (t : Nat) (glitch : List (Nat × Nat × Nat)) (poison : Bool) (again : List (Nat × Nat × List (BitVec 64))) (dt : Nat)   -- REBUILD_COMPLETE, R151
  | thresherDisable (n dt : Nat)   -- THRESHER_DISABLE, R159
  | thresherEnable (n dt : Nat)   -- THRESHER_ENABLE, R159
  | thresherReinstate (n dt : Nat)   -- THRESHER_REINSTATE, R161
  | tillerEntryCompute (c : Nat) (clsBad ceilBad : Option Nat) (dt : Nat)   -- TILLER_ENTRY_COMPUTE, R173
  | correctionReplay (c : Nat) (clsBad ceilBad : Option Nat) (dt : Nat)   -- CORRECTION_REPLAY, R179
  | columnDisable (n dt : Nat)   -- COLUMN_DISABLE, R190
  | columnEnable (n dt : Nat)   -- COLUMN_ENABLE, R208
  | shadowWrite (n which v dt : Nat)   -- SHADOW_WRITE, R221
  | shareConfigApply (t dt : Nat)   -- SHARE_CONFIG_APPLY, R206
  | healthCommit (bank dt : Nat)   -- HEALTH_COMMIT, R207
  | tempLatch (dt : Nat)   -- TEMP_LATCH, R212
  | rampComplete (t dt : Nat)   -- RAMP_COMPLETE, R214
  | arm (dt : Nat)   -- ARM, R184
  | retreatReqFall (dt : Nat)   -- RETREAT_REQ_FALL, R356
  | strikeOkRise (dt : Nat)   -- STRIKE_OK_RISE, R355
  | layerClose (dt : Nat)   -- LAYER_CLOSE, R236
  | ageSweepVisit (dt : Nat)   -- AGE_SWEEP_VISIT, R236
  | assimilation (dt : Nat)   -- ASSIMILATION, R245
  | seamMessage (dt : Nat)   -- SEAM_MESSAGE, R251
  | seamMessageDeadline (east : Bool) (dt : Nat)   -- SEAM_MESSAGE_DEADLINE, R251
  | heatParamApply (dt : Nat)   -- HEAT_PARAM_APPLY, R253
  | ftabCommit (bank dt : Nat)   -- FTAB_COMMIT, R244
  | frameStart (port vc dt : Nat)   -- FRAME_START, R263
  | frameEnd (port vc dt : Nat)   -- FRAME_END, R262
  | lineStart (port vc dt : Nat)   -- LINE_START, R260
  | lineEnd (port vc dt : Nat)   -- LINE_END, R260
  | csiLongPacket (port : Nat) (p : CsiPacket) (dt : Nat)   -- CSI_LONG_PACKET, R265
  | mapComplete (c dt : Nat)   -- MAP_COMPLETE, R268
  | pqPush (c v dt : Nat)   -- PQ_PUSH, R270
  | paramStaging (c dt : Nat)   -- PARAM_STAGING, R269
  | cameraTimeout (c : Nat)   -- CAMERA_TIMEOUT, R274
  | cameraDisable (c dt : Nat)   -- CAMERA_DISABLE, R274
  | cameraEnable (c dt : Nat)   -- CAMERA_ENABLE, R275
  | cameraPlug (port dt : Nat)   -- CAMERA_PLUG, R628
  | cameraUnplug (port dt : Nat)   -- CAMERA_UNPLUG, R628
  | strikeRecord (t : Nat) (bs : List Byte) (poison : Bool) (dt : Nat)   -- STRIKE_RECORD, R298
  | statusRecord (t : Nat) (bs : List Byte) (dt : Nat)   -- STATUS_RECORD, R296
  | linkRecord (t : Nat) (bs : List Byte) (dt : Nat)   -- LINK_RECORD, R304
  | eyeRecord (t : Nat) (bs : List Byte) (dt : Nat)   -- EYE_RECORD, R307
  | ackExpectTimeout (t : Nat)   -- ACK_EXPECT_TIMEOUT, R299
  | ackLateTimeout (t : Nat)   -- ACK_LATE_TIMEOUT, R299
  | tilePlug (t dt : Nat)   -- TILE_PLUG, R308
  | tileUnplug (t dt : Nat)   -- TILE_UNPLUG, R308
  | tileBringup (t dt : Nat)   -- TILE_BRINGUP, R304
  | bringupStepTimeout (t : Nat) (copy : Bool)   -- BRINGUP_STEP_TIMEOUT, R305
  | factoryCalCopyDone (t : Nat) (img : Option (List Byte)) (dt : Nat)   -- FACTORY_CAL_COPY_DONE, R303
  | retrain (t dt : Nat)   -- RETRAIN, R305
  | reident (t dt : Nat)   -- REIDENT, R303
  | tileEyeScanStart (t lane dwell dt : Nat)   -- TILE_EYE_SCAN_START, R307
  | tileEyeScanTimeout (t : Nat)   -- TILE_EYE_SCAN_TIMEOUT, R307
  | returnLaneScanDone (t : Nat) (margins : List Nat) (dt : Nat)   -- RETURN_LANE_SCAN_DONE, R307
  | tileLinkFault (t : Nat) (codeErrs gone : Bool) (dt : Nat)   -- TILE_LINK_FAULT, R306
  | calRunStart (dt : Nat)   -- CAL_RUN_START, R323
  | calibrationStrike   -- CALIBRATION_STRIKE, R322
  | calRunEnd (dt : Nat)   -- CAL_RUN_END, R333
  | calBankIntoForce (dt : Nat)   -- CAL_BANK_INTO_FORCE, R334
  | stageSample (b0 b1 : Option Biss) (q0 q1 : Int)   -- STAGE_SAMPLE, R343
  | stageSampleRecord (dt : Nat)   -- STAGE_SAMPLE_RECORD, R348
  | quadIndex (q : Nat) (edges : Int) (dt : Nat)   -- QUAD_INDEX, R342
  | holdReqAssert (dt : Nat)   -- HOLD_REQ_ASSERT, R357
  | holdReqDeassert (dt : Nat)   -- HOLD_REQ_DEASSERT, R357
  | layerSync (dt : Nat)   -- LAYER_SYNC, R358
  | end_ (c word dt : Nat)   -- END, R424
  | move (c word : Nat) (data : List Byte) (dt : Nat)   -- MOVE, R414
  | fill (c word dt : Nat)   -- FILL, R416
  | check (c word : Nat) (data : List Byte) (dt : Nat)   -- CHECK, R430
  | loop (c word dt : Nat)   -- LOOP, R418
  | wait (c word dt : Nat)   -- WAIT, R420
  | waitSatisfied (c dt : Nat)   -- WAIT_SATISFIED, R420
  | waitTimeout (c : Nat)   -- WAIT_TIMEOUT, R420
  | signal (c word dt : Nat)   -- SIGNAL, R422
  | link (c word dt : Nat)   -- LINK, R419
  | channelDoorbell (o len dt : Nat)   -- CHANNEL_DOORBELL, R371, R424
  | cpeBusError (kind addr mask : Nat) (parts : List ChPart) (dt : Nat)   -- CPE_BUS_ERROR, R427
  | restart (c dt : Nat)   -- RESTART, R428
  | abort (c dt : Nat)   -- ABORT, R428
  | hbmRequest (qs : List HReq) (dt : Nat)   -- HBM_REQUEST, R453
  | hbmAgePromotion (a r : Nat)   -- HBM_AGE_PROMOTION, R448
  | arbWithdraw (a r dt : Nat)   -- ARB_WITHDRAW, R455
  | arbCutoff (a r dt : Nat)   -- ARB_CUTOFF, R456
  | arbCommit (dt : Nat)   -- ARB_COMMIT, R459
  | hbmOrderWrite (v dt : Nat)   -- HBM_ORDER_WRITE, R446
  | hbmRemapDone (dt : Nat)   -- HBM_REMAP_DONE, R446
  | hbmRefreshDue (p dt : Nat)   -- HBM_REFRESH_DUE, R450
  | hbmTempCrossing (above : Bool) (temp dt : Nat)   -- HBM_TEMP_CROSSING, R451
  | scrubRead   -- SCRUB_READ, R482
  | kryPortEnable (p dt : Nat)   -- KRY_PORT_ENABLE, R491
  | kryPortDisable (p v dt : Nat)   -- KRY_PORT_DISABLE, R494
  | kryBringupStepTimeout (p : Nat)   -- KRY_BRINGUP_STEP_TIMEOUT, R492
  | train (p w : Nat) (mine : Bool) (dt : Nat)   -- TRAIN, R491
  | hello (p w dt : Nat)   -- HELLO, R497
  | enum (p w dt : Nat)   -- ENUM, R504
  | idle (p w dt : Nat)   -- IDLE, R496
  | dly (p w turn dt : Nat)   -- DLY, R499
  | dlyPeriod (dt : Nat)   -- DLY_PERIOD, R499
  | fastRetrain (p reason dt : Nat)   -- FAST_RETRAIN, R493
  | kryIdleTimeout (p : Nat)   -- KRY_IDLE_TIMEOUT, R493
  | kryRetrain (p v dt : Nat)   -- KRY_RETRAIN, R493
  | kryAckTimeout (p : Nat)   -- KRY_ACK_TIMEOUT, R513
  | rootEnumStart (dt : Nat)   -- ROOT_ENUM_START, R504
  | kryConfirm (v dt : Nat)   -- KRY_CONFIRM, R506
  | kryReenum (v dt : Nat)   -- KRY_REENUM, R507
  | kryRouteCommit (dt : Nat)   -- KRY_ROUTE_COMMIT, R523
  | kryEyeScanStart (p v dt : Nat)   -- KRY_EYE_SCAN_START, R495
  | kryEyeScanDone (p : Nat) (margins : List Nat) (dt : Nat)   -- KRY_EYE_SCAN_DONE, R495
  | mapReport (dt : Nat)   -- MAP_REPORT, R505
  | relayCmd (dt : Nat)   -- RELAY_CMD, R518
  | relayCpl (dt : Nat)   -- RELAY_CPL, R518
  | relayedEvent (dt : Nat)   -- RELAYED_EVENT, R519
  | relayedTelemetry (dt : Nat)   -- RELAYED_TELEMETRY, R519
  | timeMessage (dt : Nat)   -- TIME_MESSAGE, R530
  | timeMessageSend   -- TIME_MESSAGE_SEND, R528
  | servoIntervalExpiry   -- SERVO_INTERVAL_EXPIRY, R530
  | timeStepArm (v dt : Nat)   -- TIME_STEP_ARM, R527
  | timeRateWrite (v dt : Nat)   -- TIME_RATE_WRITE, R526
  | timeSlewWrite (v dt : Nat)   -- TIME_SLEW_WRITE, R526
  | holdoverEnter (v dt : Nat)   -- HOLDOVER_ENTER, R539
  | holdoverTimeout   -- HOLDOVER_TIMEOUT, R539
  | ethTxGo (s v dt : Nat)   -- ETH_TX_GO, R535
  | ethLaunch (s : Nat)   -- ETH_LAUNCH, R535
  | txqPop (dt : Nat)   -- TXQ_POP, R536
  | ptpFrameReceive (b : List Byte) (dt : Nat)   -- PTP_FRAME_RECEIVE, R537
  | rxSlotFree (r dt : Nat)   -- RX_SLOT_FREE, R537
  | heartbeat (req : List Byte) (dt : Nat)   -- HEARTBEAT, R553
  | safRead (req : List Byte) (dt : Nat)   -- SAF_READ, R553
  | safWrite (req : List Byte) (dt : Nat)   -- SAF_WRITE, R553
  | ceilWrite (req : List Byte) (dt : Nat)   -- CEIL_WRITE, R553
  | safCommit (req : List Byte) (commEn : Bool) (dt : Nat)   -- SAF_COMMIT, R558
  | release (req : List Byte) (dt : Nat)   -- RELEASE, R572
  | trip (req : List Byte) (dt : Nat)   -- TRIP, R553
  | lock (req : List Byte) (commEn : Bool) (dt : Nat)   -- LOCK, R559
  | keySet (req : List Byte) (commEn : Bool) (dt : Nat)   -- KEY_SET, R559
  | safHeartbeatTimeout   -- SAF_HEARTBEAT_TIMEOUT, R556
  | safLockoutEnd   -- SAF_LOCKOUT_END, R555
  | interlockFall (i dt : Nat)   -- INTERLOCK_FALL, R560
  | interlockOk (i dt : Nat)   -- INTERLOCK_OK, R560
  | estopDiscrepancy   -- ESTOP_DISCREPANCY, R561
  | safClockFault (bad : Bool) (dt : Nat)   -- SAF_CLOCK_FAULT, R549
  | safCrcCheck (upset : Option (Nat × Nat)) (dt : Nat)   -- SAF_CRC_CHECK, R549
  | benReadbackFault (t dt : Nat)   -- BEN_READBACK_FAULT, R549
  | safTempRecord (t : Nat) (temps : List Int) (dt : Nat)   -- SAF_TEMP_RECORD, R565
  | safStaleTimeout (t : Nat)   -- SAF_STALE_TIMEOUT, R565
  | strobeWatchdog   -- STROBE_WATCHDOG, R567
  | safFrameCheck (t : Nat) (idle test : Bool) (s : Nat) (codes : List (Nat × Nat × Nat)) (dt : Nat)   -- SAF_FRAME_CHECK, R569
  | safPlugChange (t : Nat) (present : Bool) (dt : Nat)   -- SAF_PLUG_CHANGE, R564
  | metSealChange (isOpen : Bool) (dt : Nat)   -- MET_SEAL_CHANGE, R586
  | metServicePoll (ready : Nat) (img : List Byte) (dt : Nat)   -- MET_SERVICE_POLL, R586
  | metDisplayUpdate (ack : Bool) (dt : Nat)   -- MET_DISPLAY_UPDATE, R597
  | metXtalStop (dt : Nat)   -- MET_XTAL_STOP, R599
  | metXtalRestored (dt : Nat)   -- MET_XTAL_RESTORED, R599
  | metNvRetry (works : Bool) (dt : Nat)   -- MET_NV_RETRY, R599
  | keyPress (k dt : Nat)   -- KEY_PRESS, R624
  | keyRelease (k dt : Nat)   -- KEY_RELEASE, R623
  | gleanEnable (v dt : Nat)   -- GLEAN_ENABLE, R635
  | gleanDisable (v dt : Nat)   -- GLEAN_DISABLE, R638
  | gleanPeriodicSample   -- GLEAN_PERIODIC_SAMPLE, R637
  | pmcSnap (v dt : Nat)   -- PMC_SNAP, R639
  | pmcClear (v dt : Nat)   -- PMC_CLEAR, R639
  | latchingRead (a len dt : Nat)   -- LATCHING_READ, R48
  | clearOnRead (a len dt : Nat)   -- CLEAR_ON_READ, R11
  | ldgLayerRead (k : Option Nat) (dt : Nat)   -- LDG_LAYER_READ, R621
  | registerWrite (a len v dt : Nat)   -- REGISTER_WRITE, R12
  | quadCountError (q dt : Nat)   -- QUAD_COUNT_ERROR, R342
  | safSpiBadTransaction (req : List Byte) (dt : Nat)   -- SAF_SPI_BAD_TRANSACTION, R550
  | frameForward (p : Nat) (flits : List (BitVec 128)) (dt : Nat)   -- FRAME_FORWARD, R501
  | returnLaneWordLock (t dt : Nat)   -- RETURN_LANE_WORD_LOCK, R304
  | idHeaderRead (t : Nat) (hdr : Option (List Byte)) (dt : Nat)   -- ID_HEADER_READ, R303
  | slewComplete   -- SLEW_COMPLETE, R526
  | d3hotTransition (cold : Bool) (dt : Nat)   -- D3HOT_TRANSITION, R364
  deriving DecidableEq, Repr

end Sys2Proof
end

