-- ==== Sys2Proof/Decode.lean ====
section
/-!
DEFINITION. Decoding. The device is a block: the opcode table gives no row any bits, so no word spells a command.
-/
namespace Sys2Proof

/-- The command that a word spells by the bits of the opcode table: none, since no row of the table has bits. -/
def decodeTableWord (_nbits _w : Nat) : Option Instr := none

end Sys2Proof
end

