-- ==== Sys2Proof/Config.lean ====
section
/-!
DEFINITION. What the spec leaves to an implementation or leaves open: free values without a body (nothing can be
proved of a value of theirs), each applied to the model's draw counter so that every draw is a fresh value.
-/
namespace Sys2Proof.Config

/-- The 32-byte session challenge drawn from the random-number generator (R392); the argument is the draw number. -/
opaque challenge : Nat → BitVec 256

/-- The BOOT_ID that the safety partition draws at each power-on (R554); the argument is the draw number. -/
opaque bootId : Nat → BitVec 32

/-- The 32-byte secret from which the metrology partition derives its Ed25519 key (R588); the argument is the draw number. -/
opaque ed25519Seed : Nat → BitVec 256

/-- The raw value of one pixel of a camera line that never arrived: draw number, pixel number. -/
opaque openPixel : Nat → Nat → BitVec 16

/-- What HEAD_t_STAT.STATE reads while a tile leaves: its link is down, its plug detect already reads absent and has not
been debounced (R306, R308). -/
opaque leavingState : BitVec 4

/-- The checksum of the metrology partition's ROM (MET_ROMCS, R599). -/
opaque romChecksum : BitVec 32

/-- A value of up to 256 bits that the spec leaves open; the argument is the draw number. -/
opaque free : Nat → BitVec 256

end Sys2Proof.Config
end

