-- ==== Sys2Proof/Machine/Bits.lean ====
section
/-!
DEFINITION. Bit-field, byte-order and fixed-width arithmetic helpers (R6, R8): every field extraction, every
little-endian conversion and every saturation of the model goes through these.
-/
namespace Sys2Proof.Machine

/-- Field [hi:lo] of a number (R6). -/
def bits (v hi lo : Nat) : Nat := (v >>> lo) % 2 ^ (hi + 1 - lo)

/-- Bit i of a number. -/
def bit (v i : Nat) : Bool := v.testBit i

/-- A Bool as a bit value. -/
def b2n (b : Bool) : Nat := if b then 1 else 0

/-- v with field [hi:lo] replaced by x modulo the field's width (R6). -/
def setBits (v hi lo x : Nat) : Nat :=
  v - (bits v hi lo) * 2 ^ lo + (x % 2 ^ (hi + 1 - lo)) * 2 ^ lo

/-- Two's-complement reading of the low w bits. -/
def toS (w v : Nat) : Int :=
  let u := v % 2 ^ w
  if u < 2 ^ (w - 1) then (u : Int) else (u : Int) - (2 ^ w : Nat)

/-- Two's-complement encoding of an integer in w bits. -/
def ofS (w : Nat) (i : Int) : Nat := (i % ((2 ^ w : Nat) : Int)).toNat

/-- Clamp of an integer to [lo, hi]. -/
def clampI (lo hi i : Int) : Int := if i < lo then lo else if hi < i then hi else i

/-- Clamp of a natural number to [lo, hi]. -/
def clampN (lo hi n : Nat) : Nat := if n < lo then lo else if hi < n then hi else n

/-- Division that truncates towards zero (the pseudocode's "/" on signed values). -/
def tdiv (a b : Int) : Int := Int.tdiv a b

/-- Arithmetic shift right of a signed value: division by 2^n rounding down. -/
def asr (a : Int) (n : Nat) : Int := Int.fdiv a ((2 ^ n : Nat) : Int)

/-- Saturation of a number at the largest w-bit value. -/
def sat (w n : Nat) : Nat := if n < 2 ^ w then n else 2 ^ w - 1

/-- n bytes of v, least significant first (R6). -/
def toLE : (n v : Nat) → List Byte
  | 0, _ => []
  | n + 1, v => BitVec.ofNat 8 v :: toLE n (v / 256)

/-- The number that a little-endian byte list spells (R6). -/
def ofLE : List Byte → Nat
  | [] => 0
  | b :: bs => b.toNat + 256 * ofLE bs

/-- Bytes [hi:lo] of a byte list, as a little-endian number; absent bytes read 0. -/
def fieldLE (bs : List Byte) (hi lo : Nat) : Nat := ofLE ((bs.drop lo).take (hi + 1 - lo))

/-- Byte i of a byte list; absent bytes read 0. -/
def byteAt (bs : List Byte) (i : Nat) : Nat := ((bs[i]?).getD 0).toNat

/-- n bytes of a signed value, least significant first. -/
def toLES (n : Nat) (i : Int) : List Byte := toLE n (ofS (8 * n) i)

/-- A byte list cut or padded with zeros to n bytes. -/
def padTo (n : Nat) (bs : List Byte) : List Byte := (bs ++ List.replicate n 0).take n

/-- Number of ones among the low n bits. -/
def popCount : (n v : Nat) → Nat
  | 0, _ => 0
  | n + 1, v => v % 2 + popCount n (v / 2)

/-- Bits of v in a w-bit window, reversed. -/
def revBits : (w v : Nat) → Nat
  | 0, _ => 0
  | w + 1, v => (v % 2) * 2 ^ w + revBits w (v / 2)

/-- Element i of a list, or a default. -/
def nth {α : Type} (l : List α) (i : Nat) (dflt : α) : α := (l[i]?).getD dflt

/-- A list with element i changed by f; unchanged where the list has no element i. -/
def upd {α : Type} (l : List α) (i : Nat) (f : α → α) : List α := l.modify i f

/-- A table of n elements with element i changed by f: an element that the list lacks is the default one, and there is no
element beyond the table. -/
def put {α : Type} (n : Nat) (dflt : α) (l : List α) (i : Nat) (f : α → α) : List α :=
  if i < n then (l ++ List.replicate (n - l.length) dflt).modify i f else l

/-- The sum of a list of numbers. -/
def sumN (l : List Nat) : Nat := l.foldl (· + ·) 0

/-- Sums of runs of 8. -/
def sums8 : Nat → List Nat → List Nat
  | 0, _ => []
  | n + 1, l => sumN (l.take 8) :: sums8 n (l.drop 8)

/-- First index below n where p holds. -/
def firstIdx (n : Nat) (p : Nat → Bool) : Option Nat := (List.range n).find? p

/-- Insertion of a keyed value into a list sorted by strictly rising key, replacing an equal key. -/
def insKey {α : Type} (k : Nat) (v : α) : List (Nat × α) → List (Nat × α)
  | [] => [(k, v)]
  | (k', v') :: r =>
    if k < k' then (k, v) :: (k', v') :: r
    else if k = k' then (k, v) :: r
    else (k', v') :: insKey k v r

/-- Removal of a key from a keyed list. -/
def delKey {α : Type} (k : Nat) : List (Nat × α) → List (Nat × α)
  | [] => []
  | (k', v') :: r => if k = k' then delKey k r else (k', v') :: delKey k r

/-- The value of a key in a keyed list. -/
def getKey {α : Type} (k : Nat) : List (Nat × α) → Option α
  | [] => none
  | (k', v') :: r => if k = k' then some v' else getKey k r

/-- Strictly rising keys. -/
def keysRise {α : Type} : List (Nat × α) → Bool
  | [] => true
  | [_] => true
  | (a, _) :: (b, y) :: r => decide (a < b) && keysRise ((b, y) :: r)

end Sys2Proof.Machine
end

