-- ==== Sys2Proof/Machine/Regs.lean ====
section
/-!
DEFINITION. The BAR0 register map (R643, R644): the address of every register, the bit range of every named field,
and one row per register with its access masks and reset value, as the binding table of each chapter gives them.
-/
namespace Sys2Proof.Machine

/-- A field's bit range [hi:lo]. -/
structure Fld where
  hi : Nat
  lo : Nat
  deriving DecidableEq, Repr

/-- One row of a binding register table: `n1` instances `s1` apart of `n2` instances `s2` apart (a stride of 2^32
where there is one instance), the masks of the fields of access RW or SH (`rw`), W1C, W1S and RC (R11), and the reset value. -/
structure RegRow where
  base : Nat
  n1 : Nat
  s1 : Nat
  n2 : Nat
  s2 : Nat
  rw : Nat
  w1c : Nat
  w1s : Nat
  rc : Nat
  reset : Nat
  deriving DecidableEq, Repr

namespace Reg

def TOP_TICK_CTL : Nat := 0x200
def TOP_TICK_PERIOD : Nat := 0x204
def TOP_TICK_IDX_LO : Nat := 0x208
def TOP_TICK_IDX_HI : Nat := 0x20C
def TOP_STROKE_TICK : Nat := 0x210
def TOP_STROKE_LINES : Nat := 0x214
def TOP_LAYER : Nat := 0x218
def TOP_MODE : Nat := 0x100
def TOP_BIST : Nat := 0x104
def TOP_RESET_CAUSE : Nat := 0x108
def TOP_STRAP : Nat := 0x10C
def TOP_RESET : Nat := 0x110
def THR_SHF_CTL : Nat := 0x30F000
def THR_LIB0_LO : Nat := 0x30F004
def THR_LIB0_HI : Nat := 0x30F008
def THR_LIB1_LO : Nat := 0x30F00C
def THR_LIB1_HI : Nat := 0x30F010
def THR_LIB_LIMIT : Nat := 0x30F014
def THR_SHF_ERR_n (n : Nat) : Nat := 0x30F020 + 0x4 * n
def THR_DENS_EXCESS : Nat := 0x30F040
def THR_n_CTL (n : Nat) : Nat := 0x300000 + 0x100 * n
def THR_n_STAT (n : Nat) : Nat := 0x300004 + 0x100 * n
def THR_n_WMISS (n : Nat) : Nat := 0x300008 + 0x100 * n
def THR_n_REEXP (n : Nat) : Nat := 0x30000C + 0x100 * n
def THR_n_CHIT (n : Nat) : Nat := 0x300010 + 0x100 * n
def THR_n_CMISS (n : Nat) : Nat := 0x300014 + 0x100 * n
def THR_RAB_LO : Nat := 0x30F050
def THR_RAB_HI : Nat := 0x30F054
def THR_RETIRE_CTL : Nat := 0x30F058
def THR_WFAULT : Nat := 0x30F05C
def TIL_RA_STAT : Nat := 0x480000
def TIL_RESUME_TICK : Nat := 0x480004
def TIL_RA_MIN : Nat := 0x480008
def TIL_REPLAY_CNT : Nat := 0x48000C
def TIL_SQUASH_CNT : Nat := 0x480010
def TIL_RETREAT_CNT : Nat := 0x480014
def TIL_n_CTL (n : Nat) : Nat := 0x400000 + 0x1000 * n
def TIL_n_DELAY (n : Nat) : Nat := 0x400004 + 0x1000 * n
def TIL_n_SHARE (n : Nat) : Nat := 0x400008 + 0x1000 * n
def TIL_n_SH_STAT (n : Nat) : Nat := 0x40000C + 0x1000 * n
def TIL_n_COL_HANDOVER_LO (n : Nat) : Nat := 0x400010 + 0x1000 * n
def TIL_n_COL_HANDOVER_HI (n : Nat) : Nat := 0x400014 + 0x1000 * n
def TIL_n_RAMP (n : Nat) : Nat := 0x400018 + 0x1000 * n
def TIL_n_RAMP_Q (n : Nat) : Nat := 0x40001C + 0x1000 * n
def TIL_n_STAT (n : Nat) : Nat := 0x400020 + 0x1000 * n
def TIL_n_HR_CNT (n : Nat) : Nat := 0x400024 + 0x1000 * n
def TIL_HEALTH_LO : Nat := 0x480020
def TIL_HEALTH_HI : Nat := 0x480024
def TIL_HEALTH_CTL : Nat := 0x480028
def TIL_HEALTH_STAT : Nat := 0x48002C
def TIL_VCFG_t (t : Nat) : Nat := 0x480100 + 0x4 * t
def TIL_TILE_STAT_t (t : Nat) : Nat := 0x480140 + 0x4 * t
def TIL_VTAB_t_j (t : Nat) (j : Nat) : Nat := 0x481000 + 0x80 * t + 0x4 * j
def HEAT_CTL : Nat := 0x500000
def HEAT_STAT : Nat := 0x500004
def HEAT_BASE_LO : Nat := 0x500008
def HEAT_BASE_HI : Nat := 0x50000C
def HEAT_ROWS : Nat := 0x500010
def HEAT_RISE : Nat := 0x500014
def HEAT_CARRY : Nat := 0x500018
def HEAT_TOL : Nat := 0x50001C
def HEAT_FTAB_LO : Nat := 0x500020
def HEAT_FTAB_HI : Nat := 0x500024
def HEAT_FTAB_CTL : Nat := 0x500028
def HEAT_SEAM_MISS : Nat := 0x500030
def HEAT_ASSIM_SKIP : Nat := 0x500034
def HEAT_ASSIM_REPLAY : Nat := 0x500038
def HEAT_CAM_W_c (c : Nat) : Nat := 0x500040 + 0x4 * c
def HEAT_DF_FAST_i (i : Nat) : Nat := 0x500100 + 0x4 * i
def HEAT_DF_SLOW_i (i : Nat) : Nat := 0x500180 + 0x4 * i
def CAM_c_CTL (c : Nat) : Nat := 0x600000 + 0x1000 * c
def CAM_c_CFG (c : Nat) : Nat := 0x600004 + 0x1000 * c
def CAM_c_SIZE (c : Nat) : Nat := 0x600008 + 0x1000 * c
def CAM_c_VC (c : Nat) : Nat := 0x60000C + 0x1000 * c
def CAM_c_TIMEOUT (c : Nat) : Nat := 0x600010 + 0x1000 * c
def CAM_c_PQ_LO (c : Nat) : Nat := 0x600014 + 0x1000 * c
def CAM_c_PQ_HI (c : Nat) : Nat := 0x600018 + 0x1000 * c
def CAM_c_PQ_TAG (c : Nat) : Nat := 0x60001C + 0x1000 * c
def CAM_c_PQ_STAT (c : Nat) : Nat := 0x600020 + 0x1000 * c
def CAM_c_ACT_TAG (c : Nat) : Nat := 0x600024 + 0x1000 * c
def CAM_c_FCNT (c : Nat) : Nat := 0x600028 + 0x1000 * c
def CAM_c_STAT (c : Nat) : Nat := 0x60002C + 0x1000 * c
def CAM_c_FRAMES (c : Nat) : Nat := 0x600030 + 0x1000 * c
def CAM_c_DISCARD (c : Nat) : Nat := 0x600034 + 0x1000 * c
def CAM_c_DEGRADED (c : Nat) : Nat := 0x600038 + 0x1000 * c
def CAM_c_LONG (c : Nat) : Nat := 0x60003C + 0x1000 * c
def CAM_c_PKT_ERR (c : Nat) : Nat := 0x600040 + 0x1000 * c
def CAM_c_SATPIX (c : Nat) : Nat := 0x600044 + 0x1000 * c
def HEAD_t_CTL (t : Nat) : Nat := 0x700000 + 0x1000 * t
def HEAD_t_STAT (t : Nat) : Nat := 0x700004 + 0x1000 * t
def HEAD_t_ID (t : Nat) : Nat := 0x700008 + 0x1000 * t
def HEAD_t_SERIAL_LO (t : Nat) : Nat := 0x70000C + 0x1000 * t
def HEAD_t_SERIAL_HI (t : Nat) : Nat := 0x700010 + 0x1000 * t
def HEAD_t_TEMP01 (t : Nat) : Nat := 0x700014 + 0x1000 * t
def HEAD_t_TEMP23 (t : Nat) : Nat := 0x700018 + 0x1000 * t
def HEAD_t_RAIL01 (t : Nat) : Nat := 0x70001C + 0x1000 * t
def HEAD_t_RAIL2 (t : Nat) : Nat := 0x700020 + 0x1000 * t
def HEAD_t_EYE_CTL (t : Nat) : Nat := 0x700024 + 0x1000 * t
def HEAD_t_EYE_l (t : Nat) (l : Nat) : Nat := 0x700028 + 0x1000 * t + 0x4 * l
def HEAD_t_MISS (t : Nat) : Nat := 0x700038 + 0x1000 * t
def HEAD_t_MISMATCH (t : Nat) : Nat := 0x70003C + 0x1000 * t
def HEAD_t_LINK_ERR (t : Nat) : Nat := 0x700040 + 0x1000 * t
def HEAD_ACK_EXPECT : Nat := 0x710000
def HEAD_ACK_LATE : Nat := 0x710004
def HEAD_PLUG : Nat := 0x710008
def CAL_t_CTL (t : Nat) : Nat := 0x800000 + 0x100 * t
def CAL_t_STAT (t : Nat) : Nat := 0x800004 + 0x100 * t
def CAL_t_TSET01 (t : Nat) : Nat := 0x800008 + 0x100 * t
def CAL_t_TSET23 (t : Nat) : Nat := 0x80000C + 0x100 * t
def CAL_t_TSET4 (t : Nat) : Nat := 0x800010 + 0x100 * t
def CAL_t_RESP (t : Nat) : Nat := 0x800014 + 0x100 * t
def CAL_t_COUNT (t : Nat) : Nat := 0x800018 + 0x100 * t
def CAL_t_LAST_LO (t : Nat) : Nat := 0x80001C + 0x100 * t
def CAL_t_LAST_HI (t : Nat) : Nat := 0x800020 + 0x100 * t
def CAL_t_LAST_T (t : Nat) : Nat := 0x800024 + 0x100 * t
def CAL_CTL : Nat := 0x810000
def CAL_WIDTH : Nat := 0x810004
def CAL_PERIOD : Nat := 0x810008
def CAL_PARK : Nat := 0x81000C
def CAL_PARK_TOL : Nat := 0x810010
def CAL_TOL : Nat := 0x810014
def CAL_BASE_LO : Nat := 0x810018
def CAL_BASE_HI : Nat := 0x81001C
def CAL_STAT : Nat := 0x810020
def STG_CTL : Nat := 0x900000
def STG_STAT : Nat := 0x900004
def STG_TIMING : Nat := 0x900008
def STG_CPL : Nat := 0x90000C
def STG_ORIGIN_LO : Nat := 0x900010
def STG_ORIGIN_HI : Nat := 0x900014
def STG_PHASE : Nat := 0x900018
def STG_HEAD_OFS : Nat := 0x90001C
def STG_REENTRY : Nat := 0x900020
def STG_MASTER : Nat := 0x900024
def STG_BISS_n_CFG (n : Nat) : Nat := 0x900028 + 0x4 * n
def STG_QUAD_CFG : Nat := 0x900030
def STG_QIDX_q (q : Nat) : Nat := 0x900034 + 0x4 * q
def STG_POS_LO : Nat := 0x90003C
def STG_POS_HI : Nat := 0x900040
def STG_PERIOD : Nat := 0x900044
def STG_ERR : Nat := 0x900048
def STG_SYNC_CNT : Nat := 0x90004C
def RING_n_BASE_LO (n : Nat) : Nat := 0x100000 + 0x40 * n
def RING_n_BASE_HI (n : Nat) : Nat := 0x100004 + 0x40 * n
def RING_n_CTL (n : Nat) : Nat := 0x100008 + 0x40 * n
def RING_n_PROD (n : Nat) : Nat := 0x10000C + 0x40 * n
def RING_n_CONS (n : Nat) : Nat := 0x100010 + 0x40 * n
def RING_n_STAT (n : Nat) : Nat := 0x100014 + 0x40 * n
def RING_n_RETIRE_IDX (n : Nat) : Nat := 0x100018 + 0x40 * n
def RING_n_RETIRE_CNT (n : Nat) : Nat := 0x10001C + 0x40 * n
def RING_n_LOST (n : Nat) : Nat := 0x100020 + 0x40 * n
def RING_n_DATA_LO (n : Nat) : Nat := 0x100024 + 0x40 * n
def RING_n_DATA_HI (n : Nat) : Nat := 0x100028 + 0x40 * n
def RING_n_DATA_SIZE (n : Nat) : Nat := 0x10002C + 0x40 * n
def RING_SESSION : Nat := 0x101000
def RING_SESSION_TMR : Nat := 0x101004
def RING_TELEM_CTL : Nat := 0x101008
def RING_FLAG_LO : Nat := 0x10100C
def RING_FLAG_HI : Nat := 0x101010
def RING_FLAG_CTL : Nat := 0x101014
def RING_FLAG_PROD : Nat := 0x101018
def RING_FLAG_CONS : Nat := 0x10101C
def RING_FLAG_LOST : Nat := 0x101020
def CPE_c_CTL (c : Nat) : Nat := 0x200000 + 0x40 * c
def CPE_c_STAT (c : Nat) : Nat := 0x200004 + 0x40 * c
def CPE_c_PC_LO (c : Nat) : Nat := 0x200008 + 0x40 * c
def CPE_c_PC_HI (c : Nat) : Nat := 0x20000C + 0x40 * c
def CPE_c_HWIN_LO (c : Nat) : Nat := 0x200010 + 0x40 * c
def CPE_c_HWIN_HI (c : Nat) : Nat := 0x200014 + 0x40 * c
def CPE_BUSERR_LO : Nat := 0x201000
def CPE_BUSERR_HI : Nat := 0x201004
def CPE_BUSERR_CH : Nat := 0x201008
def CPE_BUSERR_STAT : Nat := 0x20100C
def CHK_u_CTL (u : Nat) : Nat := 0x280000 + 0x40 * u
def CHK_u_STAT (u : Nat) : Nat := 0x280004 + 0x40 * u
def CHK_u_POLY_LO (u : Nat) : Nat := 0x280008 + 0x40 * u
def CHK_u_POLY_HI (u : Nat) : Nat := 0x28000C + 0x40 * u
def CHK_u_INIT_LO (u : Nat) : Nat := 0x280010 + 0x40 * u
def CHK_u_INIT_HI (u : Nat) : Nat := 0x280014 + 0x40 * u
def CHK_u_XOR_LO (u : Nat) : Nat := 0x280018 + 0x40 * u
def CHK_u_XOR_HI (u : Nat) : Nat := 0x28001C + 0x40 * u
def CHK_u_EXP_LO (u : Nat) : Nat := 0x280020 + 0x40 * u
def CHK_u_EXP_HI (u : Nat) : Nat := 0x280024 + 0x40 * u
def CHK_u_RES_LO (u : Nat) : Nat := 0x280028 + 0x40 * u
def CHK_u_RES_HI (u : Nat) : Nat := 0x28002C + 0x40 * u
def HBM_CFG : Nat := 0xA00000
def HBM_STAT : Nat := 0xA00004
def HBM_USABLE_LO : Nat := 0xA00008
def HBM_USABLE_HI : Nat := 0xA0000C
def HBM_AGE_c (c : Nat) : Nat := 0xA00014 + 0x4 * c
def HBM_REF_STAT : Nat := 0xA00024
def HBM_REF_FORCED : Nat := 0xA00028
def HBM_PROMO : Nat := 0xA0002C
def HBM_OOR : Nat := 0xA00030
def ARB_a_CTL (a : Nat) : Nat := 0xB00000 + 0x20 * a
def ARB_a_STAT (a : Nat) : Nat := 0xB00004 + 0x20 * a
def ARB_a_PRIO (a : Nat) : Nat := 0xB00008 + 0x20 * a
def ARB_a_WITHDRAW (a : Nat) : Nat := 0xB0000C + 0x20 * a
def ARB_a_CUTOFF (a : Nat) : Nat := 0xB00010 + 0x20 * a
def ARB_a_CUTOFF_ID (a : Nat) : Nat := 0xB00014 + 0x20 * a
def ARB_COMMIT : Nat := 0xB01000
def ARB_STAT : Nat := 0xB01004
def ECC_CTL : Nat := 0xC00000
def ECC_STAT : Nat := 0xC00004
def ECC_CE_CNT : Nat := 0xC00008
def ECC_UE_CNT : Nat := 0xC0000C
def ECC_UNWR_CNT : Nat := 0xC00010
def ECC_CE_LOG_LO : Nat := 0xC00014
def ECC_CE_LOG_HI : Nat := 0xC00018
def ECC_CE_LOG_INFO : Nat := 0xC0001C
def ECC_UE_LOG_LO : Nat := 0xC00020
def ECC_UE_LOG_HI : Nat := 0xC00024
def ECC_UE_LOG_INFO : Nat := 0xC00028
def ECC_SCRUB_CTL : Nat := 0xC00030
def ECC_SCRUB_STAT : Nat := 0xC00034
def ECC_SCRUB_PASS : Nat := 0xC00038
def ECC_SCRUB_BASE_k_LO (k : Nat) : Nat := 0xC00040 + 0x10 * k
def ECC_SCRUB_BASE_k_HI (k : Nat) : Nat := 0xC00044 + 0x10 * k
def ECC_SCRUB_SIZE_k (k : Nat) : Nat := 0xC00048 + 0x10 * k
def KRY_p_CTL (p : Nat) : Nat := 0xD00000 + 0x100 * p
def KRY_p_STAT (p : Nat) : Nat := 0xD00004 + 0x100 * p
def KRY_p_NBR_LO (p : Nat) : Nat := 0xD00008 + 0x100 * p
def KRY_p_NBR_HI (p : Nat) : Nat := 0xD0000C + 0x100 * p
def KRY_p_SENT_v (p : Nat) (v : Nat) : Nat := 0xD00010 + 0x100 * p + 0x4 * v
def KRY_p_LIMIT_v (p : Nat) (v : Nat) : Nat := 0xD00020 + 0x100 * p + 0x4 * v
def KRY_p_ADV_v (p : Nat) (v : Nat) : Nat := 0xD00030 + 0x100 * p + 0x4 * v
def KRY_p_LINKDLY (p : Nat) : Nat := 0xD00040 + 0x100 * p
def KRY_p_EYE_CTL (p : Nat) : Nat := 0xD00044 + 0x100 * p
def KRY_p_EYE_l (p : Nat) (l : Nat) : Nat := 0xD00048 + 0x100 * p + 0x4 * l
def KRY_p_CRCERR (p : Nat) : Nat := 0xD00050 + 0x100 * p
def KRY_p_REPLAY (p : Nat) : Nat := 0xD00054 + 0x100 * p
def KRY_p_RETRAIN (p : Nat) : Nat := 0xD00058 + 0x100 * p
def KRY_p_DROP (p : Nat) : Nat := 0xD0005C + 0x100 * p
def KRY_ID : Nat := 0xD01000
def KRY_ENUM : Nat := 0xD01004
def KRY_MAP_COUNT : Nat := 0xD01008
def KRY_BCAST : Nat := 0xD0100C
def KRY_RELAY : Nat := 0xD01010
def KRY_ROUTE_CTL : Nat := 0xD01014
def KRY_DISCARD : Nat := 0xD01018
def KRY_ROUTE_i (i : Nat) : Nat := 0xD01100 + 0x4 * i
def KRY_MAP_d_SER_LO (d : Nat) : Nat := 0xD10000 + 0x10 * d
def KRY_MAP_d_SER_HI (d : Nat) : Nat := 0xD10004 + 0x10 * d
def KRY_MAP_d_INFO (d : Nat) : Nat := 0xD10008 + 0x10 * d
def TIME_CTL : Nat := 0xE00000
def TIME_STAT : Nat := 0xE00004
def TIME_NOW_LO : Nat := 0xE00008
def TIME_NOW_HI : Nat := 0xE0000C
def TIME_NOW_FRAC : Nat := 0xE00010
def TIME_RATE : Nat := 0xE00014
def TIME_SLEW : Nat := 0xE00018
def TIME_STEP_LO : Nat := 0xE0001C
def TIME_STEP_HI : Nat := 0xE00020
def TIME_PTP_OFS_LO : Nat := 0xE00024
def TIME_PTP_OFS_HI : Nat := 0xE00028
def TIME_SYNC : Nat := 0xE0002C
def TIME_OFFSET : Nat := 0xE00030
def TIME_ETH_CTL : Nat := 0xE00034
def TIME_ETH_LAT : Nat := 0xE00038
def TIME_TXQ_HDR : Nat := 0xE0003C
def TIME_TXQ_TS_LO : Nat := 0xE00040
def TIME_TXQ_TS_HI : Nat := 0xE00044
def TIME_TXQ_TS_FRAC : Nat := 0xE00048
def TIME_TXQ_OVF : Nat := 0xE0004C
def TIME_LATE : Nat := 0xE00050
def TIME_TXD_s_CTL (s : Nat) : Nat := 0xE00100 + 0x10 * s
def TIME_TXD_s_LAUNCH_LO (s : Nat) : Nat := 0xE00104 + 0x10 * s
def TIME_TXD_s_LAUNCH_HI (s : Nat) : Nat := 0xE00108 + 0x10 * s
def TIME_RXD_r_STAT (r : Nat) : Nat := 0xE00200 + 0x10 * r
def TIME_RXD_r_TS_LO (r : Nat) : Nat := 0xE00204 + 0x10 * r
def TIME_RXD_r_TS_HI (r : Nat) : Nat := 0xE00208 + 0x10 * r
def TIME_RXD_r_TS_FRAC (r : Nat) : Nat := 0xE0020C + 0x10 * r
def SAF_STAT : Nat := 0xF00000
def SAF_CAUSE : Nat := 0xF00004
def SAF_INPUTS : Nat := 0xF00008
def SAF_CFG : Nat := 0xF0000C
def SAF_MINPER : Nat := 0xF00010
def SAF_WDOG : Nat := 0xF00014
def SAF_TEMP : Nat := 0xF00018
def SAF_TILE_EN : Nat := 0xF0001C
def SAF_FENCE_PIX : Nat := 0xF00020
def SAF_FENCE_L0 : Nat := 0xF00024
def SAF_FENCE_L1 : Nat := 0xF00028
def SAF_TILE_t (t : Nat) : Nat := 0xF00040 + 0x4 * t
def SAF_CUT_TICK_LO : Nat := 0xF00080
def SAF_CUT_TICK_HI : Nat := 0xF00084
def SAF_CUT_OFS : Nat := 0xF00088
def SAF_CFG_CRC : Nat := 0xF0008C
def SAF_SPI_STAT : Nat := 0xF00090
def SAF_LAST_CNT : Nat := 0xF00094
def SAF_BOOT_ID : Nat := 0xF00098
def SAF_CEIL_j (j : Nat) : Nat := 0xF80000 + 0x4 * j
def MET_ID : Nat := 0x1000000
def MET_STAT : Nat := 0x1000004
def MET_ERR : Nat := 0x1000008
def MET_EC : Nat := 0x100000C
def MET_SEQ_LO : Nat := 0x1000010
def MET_SEQ_HI : Nat := 0x1000014
def MET_EXP_LO : Nat := 0x1000018
def MET_EXP_HI : Nat := 0x100001C
def MET_ROMCS : Nat := 0x1000020
def MET_PCRC : Nat := 0x1000024
def MET_PARAM : Nat := 0x1000028
def MET_BOOT : Nat := 0x100002C
def MET_LAYER_E_LO : Nat := 0x1000030
def MET_LAYER_E_HI : Nat := 0x1000034
def MET_BUILD_E_LO : Nat := 0x1000038
def MET_BUILD_E_HI : Nat := 0x100003C
def MET_PUBKEY_i (i : Nat) : Nat := 0x1000040 + 0x4 * i
def MET_TSER_t_LO (t : Nat) : Nat := 0x1000100 + 0x8 * t
def MET_TSER_t_HI (t : Nat) : Nat := 0x1000104 + 0x8 * t
def MET_K_c (c : Nat) : Nat := 0x1000200 + 0x4 * c
def LDG_STAT : Nat := 0x1300000
def LDG_k_LAYER (k : Nat) : Nat := 0x1300100 + 0x40 * k
def LDG_k_STAT (k : Nat) : Nat := 0x1300104 + 0x40 * k
def LDG_k_CNT_i_LO (k : Nat) (i : Nat) : Nat := 0x1300108 + 0x40 * k + 0x8 * i
def LDG_k_CNT_i_HI (k : Nat) (i : Nat) : Nat := 0x130010C + 0x40 * k + 0x8 * i
def LDG_BUILD_STAT : Nat := 0x1300200
def LDG_BUILD_LAYERS : Nat := 0x1300204
def LDG_BUILD_CNT_i_LO (i : Nat) : Nat := 0x1300208 + 0x8 * i
def LDG_BUILD_CNT_i_HI (i : Nat) : Nat := 0x130020C + 0x8 * i
def PNL_KEY_CFG_k (k : Nat) : Nat := 0x1100000 + 0x4 * k
def PNL_LED_k (k : Nat) : Nat := 0x1100020 + 0x4 * k
def PNL_STAT : Nat := 0x1100040
def PNL_PRESSED : Nat := 0x1100044
def GLN_CTL : Nat := 0x1200000
def GLN_SRC_EN : Nat := 0x1200004
def GLN_PERIOD : Nat := 0x1200008
def GLN_STAT : Nat := 0x120000C
def GLN_LOST : Nat := 0x1200010
def GLN_SENT_LO : Nat := 0x1200014
def GLN_SENT_HI : Nat := 0x1200018
def GLN_PMC_CTL : Nat := 0x1200020
def GLN_PMC_k_SEL (k : Nat) : Nat := 0x1200100 + 0x10 * k
def GLN_PMC_k_LO (k : Nat) : Nat := 0x1200104 + 0x10 * k
def GLN_PMC_k_HI (k : Nat) : Nat := 0x1200108 + 0x10 * k
def TOP_ID : Nat := 0x0
def TOP_SERIAL_LO : Nat := 0x4
def TOP_SERIAL_HI : Nat := 0x8

end Reg

namespace Fd

def TOP_TICK_CTL_IDLE_PERIOD : Fld := ⟨19, 0⟩
def TOP_TICK_PERIOD_KIND : Fld := ⟨31, 31⟩
def TOP_TICK_PERIOD_PERIOD : Fld := ⟨19, 0⟩
def TOP_STROKE_LINES_N : Fld := ⟨24, 0⟩
def TOP_LAYER_LAYER : Fld := ⟨31, 8⟩
def TOP_LAYER_STROKE : Fld := ⟨7, 0⟩
def TOP_MODE_HOLD_CAUSE : Fld := ⟨27, 20⟩
def TOP_MODE_PREV_MODE : Fld := ⟨19, 16⟩
def TOP_MODE_SAFE_STATE : Fld := ⟨4, 4⟩
def TOP_MODE_SESSION : Fld := ⟨3, 3⟩
def TOP_MODE_MODE : Fld := ⟨2, 0⟩
def TOP_BIST_DONE : Fld := ⟨31, 31⟩
def TOP_BIST_PASS : Fld := ⟨30, 30⟩
def TOP_BIST_FIRST_FAIL : Fld := ⟨27, 16⟩
def TOP_BIST_FAIL_COUNT : Fld := ⟨15, 0⟩
def TOP_RESET_CAUSE_POR : Fld := ⟨5, 5⟩
def TOP_RESET_CAUSE_PIN : Fld := ⟨4, 4⟩
def TOP_RESET_CAUSE_SOFT : Fld := ⟨3, 3⟩
def TOP_RESET_CAUSE_PERST : Fld := ⟨2, 2⟩
def TOP_RESET_CAUSE_FLR : Fld := ⟨1, 1⟩
def TOP_RESET_CAUSE_INTERRUPTED : Fld := ⟨0, 0⟩
def TOP_STRAP_BOOT : Fld := ⟨4, 3⟩
def TOP_STRAP_LREV : Fld := ⟨2, 2⟩
def TOP_STRAP_STGM : Fld := ⟨1, 1⟩
def TOP_STRAP_ROOT : Fld := ⟨0, 0⟩
def TOP_RESET_KEY : Fld := ⟨31, 16⟩
def TOP_RESET_DEV : Fld := ⟨0, 0⟩
def THR_SHF_CTL_REQUIRE_WINNOW : Fld := ⟨1, 1⟩
def THR_SHF_CTL_DENS_EVT_EN : Fld := ⟨0, 0⟩
def THR_LIB0_LO_ADDR_LO : Fld := ⟨31, 3⟩
def THR_LIB0_HI_ADDR_HI : Fld := ⟨2, 0⟩
def THR_LIB1_LO_ADDR_LO : Fld := ⟨31, 3⟩
def THR_LIB1_HI_ADDR_HI : Fld := ⟨2, 0⟩
def THR_LIB_LIMIT_LIMIT : Fld := ⟨24, 0⟩
def THR_SHF_ERR_n_VALID : Fld := ⟨31, 31⟩
def THR_SHF_ERR_n_ROW : Fld := ⟨29, 12⟩
def THR_SHF_ERR_n_CODE : Fld := ⟨11, 0⟩
def THR_n_CTL_REINSTATE : Fld := ⟨1, 1⟩
def THR_n_CTL_EN : Fld := ⟨0, 0⟩
def THR_n_STAT_BUSY : Fld := ⟨31, 31⟩
def THR_n_STAT_SUBST : Fld := ⟨30, 30⟩
def THR_n_STAT_ASSIGNED : Fld := ⟨29, 29⟩
def THR_n_STAT_BAND : Fld := ⟨28, 24⟩
def THR_n_STAT_RETIRED : Fld := ⟨23, 23⟩
def THR_n_STAT_ROW : Fld := ⟨17, 0⟩
def THR_RAB_LO_ADDR_LO : Fld := ⟨31, 12⟩
def THR_RAB_HI_ADDR_HI : Fld := ⟨2, 0⟩
def THR_RETIRE_CTL_THRESH : Fld := ⟨7, 0⟩
def THR_WFAULT_VALID : Fld := ⟨31, 31⟩
def THR_WFAULT_BAND : Fld := ⟨21, 18⟩
def THR_WFAULT_ROW : Fld := ⟨17, 0⟩
def TIL_RA_STAT_RESUME_VALID : Fld := ⟨31, 31⟩
def TIL_RA_STAT_ARMED : Fld := ⟨30, 30⟩
def TIL_RA_STAT_REPLAY_BUSY : Fld := ⟨29, 29⟩
def TIL_RA_STAT_PARTIAL_COLS : Fld := ⟨23, 16⟩
def TIL_RA_STAT_DEPTH : Fld := ⟨6, 0⟩
def TIL_RA_MIN_MIN : Fld := ⟨6, 0⟩
def TIL_n_CTL_EN : Fld := ⟨0, 0⟩
def TIL_n_DELAY_DELAY : Fld := ⟨7, 0⟩
def TIL_n_SHARE_WEIGHT : Fld := ⟨15, 0⟩
def TIL_n_SH_STAT_RAMP_PEND : Fld := ⟨2, 2⟩
def TIL_n_SH_STAT_SHARE_PEND : Fld := ⟨1, 1⟩
def TIL_n_SH_STAT_DELAY_PEND : Fld := ⟨0, 0⟩
def TIL_n_RAMP_ACTIVE : Fld := ⟨31, 31⟩
def TIL_n_RAMP_N : Fld := ⟨12, 0⟩
def TIL_n_STAT_HR_FAIL : Fld := ⟨31, 31⟩
def TIL_n_STAT_POISON : Fld := ⟨30, 30⟩
def TIL_n_STAT_PREV_CFG : Fld := ⟨29, 29⟩
def TIL_n_STAT_EPOCH : Fld := ⟨15, 8⟩
def TIL_n_STAT_FILL : Fld := ⟨6, 0⟩
def TIL_HEALTH_LO_ADDR_LO : Fld := ⟨31, 21⟩
def TIL_HEALTH_HI_ADDR_HI : Fld := ⟨2, 0⟩
def TIL_HEALTH_CTL_BANK : Fld := ⟨1, 1⟩
def TIL_HEALTH_CTL_COMMIT : Fld := ⟨0, 0⟩
def TIL_HEALTH_STAT_PENDING : Fld := ⟨15, 0⟩
def TIL_VCFG_t_VSTEP : Fld := ⟨23, 16⟩
def TIL_VCFG_t_VBASE : Fld := ⟨15, 0⟩
def TIL_TILE_STAT_t_T : Fld := ⟨31, 16⟩
def TIL_TILE_STAT_t_V : Fld := ⟨15, 0⟩
def TIL_VTAB_t_j_M_ODD : Fld := ⟨31, 16⟩
def TIL_VTAB_t_j_M_EVEN : Fld := ⟨15, 0⟩
def HEAT_CTL_HOSTWR : Fld := ⟨2, 2⟩
def HEAT_CTL_XCHG_E : Fld := ⟨1, 1⟩
def HEAT_CTL_XCHG_W : Fld := ⟨0, 0⟩
def HEAT_STAT_PEND : Fld := ⟨31, 31⟩
def HEAT_STAT_FTAB_PEND : Fld := ⟨30, 30⟩
def HEAT_STAT_FTAB_BANK : Fld := ⟨29, 29⟩
def HEAT_STAT_PLANE : Fld := ⟨28, 28⟩
def HEAT_STAT_FTAB_LOADED : Fld := ⟨27, 27⟩
def HEAT_BASE_LO_ADDR_LO : Fld := ⟨31, 12⟩
def HEAT_BASE_HI_ADDR_HI : Fld := ⟨2, 0⟩
def HEAT_ROWS_ROWS : Fld := ⟨20, 0⟩
def HEAT_CARRY_CARRY : Fld := ⟨15, 0⟩
def HEAT_TOL_TOL : Fld := ⟨15, 0⟩
def HEAT_FTAB_LO_ADDR_LO : Fld := ⟨31, 16⟩
def HEAT_FTAB_HI_ADDR_HI : Fld := ⟨2, 0⟩
def HEAT_FTAB_CTL_BANK : Fld := ⟨1, 1⟩
def HEAT_FTAB_CTL_COMMIT : Fld := ⟨0, 0⟩
def HEAT_CAM_W_c_W : Fld := ⟨15, 0⟩
def CAM_c_CTL_EXPORT : Fld := ⟨1, 1⟩
def CAM_c_CTL_EN : Fld := ⟨0, 0⟩
def CAM_c_CFG_SRC : Fld := ⟨10, 8⟩
def CAM_c_CFG_LANES_M1 : Fld := ⟨7, 6⟩
def CAM_c_CFG_DT : Fld := ⟨5, 4⟩
def CAM_c_CFG_MOUNT : Fld := ⟨3, 3⟩
def CAM_c_CFG_SDELAY : Fld := ⟨2, 0⟩
def CAM_c_SIZE_HEIGHT : Fld := ⟨28, 16⟩
def CAM_c_SIZE_WIDTH : Fld := ⟨12, 0⟩
def CAM_c_TIMEOUT_US : Fld := ⟨19, 0⟩
def CAM_c_PQ_LO_ADDR_LO : Fld := ⟨31, 6⟩
def CAM_c_PQ_HI_AUTO : Fld := ⟨31, 31⟩
def CAM_c_PQ_HI_ADDR_HI : Fld := ⟨2, 0⟩
def CAM_c_PQ_STAT_ACTIVE : Fld := ⟨31, 31⟩
def CAM_c_PQ_STAT_STAGED : Fld := ⟨30, 30⟩
def CAM_c_PQ_STAT_REJ : Fld := ⟨29, 29⟩
def CAM_c_PQ_STAT_COUNT : Fld := ⟨3, 0⟩
def CAM_c_STAT_PRESENT : Fld := ⟨31, 31⟩
def CAM_c_STAT_RUN : Fld := ⟨30, 30⟩
def CAM_c_STAT_OPEN : Fld := ⟨29, 29⟩
def CAM_c_STAT_STOP : Fld := ⟨28, 27⟩
def HEAD_t_CTL_NOCAL : Fld := ⟨2, 2⟩
def HEAD_t_CTL_REIDENT : Fld := ⟨1, 1⟩
def HEAD_t_CTL_RETRAIN : Fld := ⟨0, 0⟩
def HEAD_t_STAT_STATE : Fld := ⟨31, 28⟩
def HEAD_t_STAT_SPEED : Fld := ⟨27, 26⟩
def HEAD_t_STAT_PRESENT : Fld := ⟨25, 25⟩
def HEAD_t_STAT_CAL_DONE : Fld := ⟨24, 24⟩
def HEAD_t_STAT_REFUSE : Fld := ⟨23, 16⟩
def HEAD_t_ID_S : Fld := ⟨24, 16⟩
def HEAD_t_ID_BEN_LAT : Fld := ⟨15, 8⟩
def HEAD_t_ID_FORMAT : Fld := ⟨7, 0⟩
def HEAD_t_TEMP01_TEMP_B : Fld := ⟨31, 16⟩
def HEAD_t_TEMP01_TEMP_A : Fld := ⟨15, 0⟩
def HEAD_t_TEMP23_TEMP_D : Fld := ⟨31, 16⟩
def HEAD_t_TEMP23_TEMP_C : Fld := ⟨15, 0⟩
def HEAD_t_RAIL01_RAIL_1 : Fld := ⟨31, 16⟩
def HEAD_t_RAIL01_RAIL_0 : Fld := ⟨15, 0⟩
def HEAD_t_RAIL2_RAIL_2 : Fld := ⟨15, 0⟩
def HEAD_t_EYE_CTL_BUSY : Fld := ⟨31, 31⟩
def HEAD_t_EYE_CTL_TIMEOUT : Fld := ⟨30, 30⟩
def HEAD_t_EYE_CTL_DWELL : Fld := ⟨5, 3⟩
def HEAD_t_EYE_CTL_LANE : Fld := ⟨2, 1⟩
def HEAD_t_EYE_CTL_START : Fld := ⟨0, 0⟩
def HEAD_t_EYE_l_LEFT : Fld := ⟨31, 24⟩
def HEAD_t_EYE_l_RIGHT : Fld := ⟨23, 16⟩
def HEAD_t_EYE_l_TOP : Fld := ⟨15, 8⟩
def HEAD_t_EYE_l_BOTTOM : Fld := ⟨7, 0⟩
def HEAD_ACK_EXPECT_NS : Fld := ⟨19, 0⟩
def HEAD_ACK_LATE_US : Fld := ⟨19, 0⟩
def HEAD_PLUG_PRESENT : Fld := ⟨15, 0⟩
def CAL_t_CTL_BANK : Fld := ⟨20, 20⟩
def CAL_t_CTL_APPLY : Fld := ⟨17, 16⟩
def CAL_t_CTL_RAMP_N : Fld := ⟨12, 0⟩
def CAL_t_STAT_BANK : Fld := ⟨31, 31⟩
def CAL_t_STAT_PEND : Fld := ⟨30, 30⟩
def CAL_t_STAT_RAMP : Fld := ⟨29, 29⟩
def CAL_t_STAT_DUE : Fld := ⟨28, 28⟩
def CAL_t_STAT_RUN : Fld := ⟨27, 27⟩
def CAL_t_STAT_FAILS : Fld := ⟨15, 0⟩
def CAL_t_TSET01_TSET1 : Fld := ⟨31, 16⟩
def CAL_t_TSET01_TSET0 : Fld := ⟨15, 0⟩
def CAL_t_TSET23_TSET3 : Fld := ⟨31, 16⟩
def CAL_t_TSET23_TSET2 : Fld := ⟨15, 0⟩
def CAL_t_TSET4_TSET4 : Fld := ⟨15, 0⟩
def CAL_t_LAST_T_T : Fld := ⟨15, 0⟩
def CAL_CTL_DT : Fld := ⟨23, 16⟩
def CAL_CTL_REPEAT : Fld := ⟨11, 8⟩
def CAL_CTL_TURN_EN : Fld := ⟨1, 1⟩
def CAL_CTL_AUTO_EN : Fld := ⟨0, 0⟩
def CAL_WIDTH_W_HI : Fld := ⟨27, 16⟩
def CAL_WIDTH_W_LO : Fld := ⟨11, 0⟩
def CAL_PERIOD_NS : Fld := ⟨19, 0⟩
def CAL_PARK_TOL_LINES : Fld := ⟨15, 0⟩
def CAL_TOL_TOL : Fld := ⟨15, 0⟩
def CAL_BASE_LO_ADDR_LO : Fld := ⟨31, 21⟩
def CAL_BASE_HI_ADDR_HI : Fld := ⟨2, 0⟩
def CAL_STAT_BUSY : Fld := ⟨31, 31⟩
def CAL_STAT_DEFER : Fld := ⟨30, 30⟩
def CAL_STAT_ST_DEFER : Fld := ⟨29, 29⟩
def CAL_STAT_DUE : Fld := ⟨15, 0⟩
def STG_CTL_VWIN : Fld := ⟨27, 24⟩
def STG_CTL_AUX : Fld := ⟨22, 20⟩
def STG_CTL_SRC : Fld := ⟨18, 16⟩
def STG_CTL_DIR : Fld := ⟨4, 4⟩
def STG_CTL_SYNC_EN : Fld := ⟨3, 3⟩
def STG_CTL_HOLD_EN : Fld := ⟨2, 2⟩
def STG_CTL_RETREAT_EN : Fld := ⟨1, 1⟩
def STG_CTL_READY : Fld := ⟨0, 0⟩
def STG_STAT_MASTER : Fld := ⟨31, 31⟩
def STG_STAT_LOST : Fld := ⟨30, 30⟩
def STG_STAT_STRIKE_OK : Fld := ⟨29, 29⟩
def STG_STAT_RETREAT_REQ : Fld := ⟨28, 28⟩
def STG_STAT_HOLD_REQ : Fld := ⟨27, 27⟩
def STG_STAT_SYNC_SEEN : Fld := ⟨26, 26⟩
def STG_STAT_SEQ : Fld := ⟨15, 0⟩
def STG_TIMING_USE_DELAY : Fld := ⟨31, 24⟩
def STG_TIMING_PERIOD : Fld := ⟨13, 0⟩
def STG_ORIGIN_HI_ORIGIN_HI : Fld := ⟨7, 0⟩
def STG_PHASE_PHASE : Fld := ⟨15, 0⟩
def STG_REENTRY_D : Fld := ⟨20, 0⟩
def STG_MASTER_VALID : Fld := ⟨31, 31⟩
def STG_MASTER_ID : Fld := ⟨11, 0⟩
def STG_BISS_n_CFG_CLKDIV : Fld := ⟨31, 16⟩
def STG_BISS_n_CFG_LAT : Fld := ⟨15, 8⟩
def STG_BISS_n_CFG_POSLEN : Fld := ⟨7, 2⟩
def STG_BISS_n_CFG_EN : Fld := ⟨0, 0⟩
def STG_QUAD_CFG_EN_1 : Fld := ⟨17, 17⟩
def STG_QUAD_CFG_EN_0 : Fld := ⟨16, 16⟩
def STG_QUAD_CFG_FILT_1 : Fld := ⟨11, 8⟩
def STG_QUAD_CFG_FILT_0 : Fld := ⟨3, 0⟩
def STG_PERIOD_STALL : Fld := ⟨31, 31⟩
def STG_PERIOD_NS : Fld := ⟨19, 0⟩
def STG_ERR_FOREIGN : Fld := ⟨31, 16⟩
def STG_ERR_INVALID : Fld := ⟨15, 0⟩
def RING_n_BASE_LO_ADDR_LO : Fld := ⟨31, 12⟩
def RING_n_CTL_IRQ_US : Fld := ⟨31, 16⟩
def RING_n_CTL_IRQ_CNT : Fld := ⟨15, 8⟩
def RING_n_CTL_EN : Fld := ⟨7, 7⟩
def RING_n_CTL_LOG2SIZE : Fld := ⟨4, 0⟩
def RING_n_STAT_BOUND : Fld := ⟨31, 31⟩
def RING_n_STAT_DBERR : Fld := ⟨30, 30⟩
def RING_n_STAT_FETCH_ERR : Fld := ⟨29, 29⟩
def RING_n_STAT_FULL : Fld := ⟨28, 28⟩
def RING_n_STAT_OUTSTANDING : Fld := ⟨16, 0⟩
def RING_n_RETIRE_CNT_NUM : Fld := ⟨16, 0⟩
def RING_n_DATA_LO_ADDR_LO : Fld := ⟨31, 12⟩
def RING_n_DATA_SIZE_PAGES : Fld := ⟨17, 0⟩
def RING_SESSION_OPEN : Fld := ⟨31, 31⟩
def RING_SESSION_LOCKED : Fld := ⟨30, 30⟩
def RING_SESSION_CHAL : Fld := ⟨29, 29⟩
def RING_SESSION_RELAYED : Fld := ⟨28, 28⟩
def RING_SESSION_FAILS : Fld := ⟨27, 24⟩
def RING_SESSION_RINGS : Fld := ⟨15, 0⟩
def RING_SESSION_TMR_LOCK_S : Fld := ⟨31, 16⟩
def RING_SESSION_TMR_KA_MS : Fld := ⟨15, 0⟩
def RING_TELEM_CTL_PERIOD : Fld := ⟨31, 16⟩
def RING_TELEM_CTL_LDG : Fld := ⟨2, 2⟩
def RING_TELEM_CTL_STG : Fld := ⟨1, 1⟩
def RING_TELEM_CTL_TILE : Fld := ⟨0, 0⟩
def RING_FLAG_LO_ADDR_LO : Fld := ⟨31, 6⟩
def RING_FLAG_CTL_EN : Fld := ⟨7, 7⟩
def RING_FLAG_CTL_LOG2N : Fld := ⟨4, 0⟩
def CPE_c_CTL_ABORT : Fld := ⟨1, 1⟩
def CPE_c_CTL_RESTART : Fld := ⟨0, 0⟩
def CPE_c_STAT_STATE : Fld := ⟨31, 28⟩
def CPE_c_STAT_REASON : Fld := ⟨27, 24⟩
def CPE_c_STAT_DBPEND : Fld := ⟨23, 23⟩
def CPE_c_STAT_LACT : Fld := ⟨22, 19⟩
def CPE_c_STAT_CLAIM_U : Fld := ⟨10, 8⟩
def CPE_c_STAT_CLAIM : Fld := ⟨7, 7⟩
def CPE_c_PC_LO_PC_LO : Fld := ⟨31, 4⟩
def CPE_c_PC_LO_SPACE : Fld := ⟨0, 0⟩
def CPE_c_HWIN_LO_ADDR_LO : Fld := ⟨31, 12⟩
def CPE_BUSERR_STAT_VALID : Fld := ⟨31, 31⟩
def CPE_BUSERR_STAT_KIND : Fld := ⟨2, 0⟩
def CHK_u_CTL_REFOUT : Fld := ⟨9, 9⟩
def CHK_u_CTL_REFIN : Fld := ⟨8, 8⟩
def CHK_u_CTL_WIDTH : Fld := ⟨6, 0⟩
def CHK_u_STAT_MISMATCH : Fld := ⟨31, 31⟩
def CHK_u_STAT_POISON : Fld := ⟨30, 30⟩
def CHK_u_STAT_CLAIMED : Fld := ⟨29, 29⟩
def CHK_u_STAT_OWNER : Fld := ⟨4, 0⟩
def HBM_CFG_HIT_CAP : Fld := ⟨12, 8⟩
def HBM_CFG_ORDER : Fld := ⟨1, 0⟩
def HBM_STAT_TRAINED : Fld := ⟨31, 31⟩
def HBM_STAT_REMAP : Fld := ⟨30, 30⟩
def HBM_STAT_HOT : Fld := ⟨29, 29⟩
def HBM_STAT_ORDER : Fld := ⟨17, 16⟩
def HBM_STAT_TEMP : Fld := ⟨7, 0⟩
def HBM_USABLE_HI_SIZE_HI : Fld := ⟨2, 0⟩
def HBM_AGE_c_CC : Fld := ⟨19, 0⟩
def HBM_REF_STAT_MAX : Fld := ⟨7, 4⟩
def HBM_REF_STAT_NOW : Fld := ⟨3, 0⟩
def ARB_a_CTL_HOLD : Fld := ⟨15, 8⟩
def ARB_a_CTL_FREEZE : Fld := ⟨0, 0⟩
def ARB_a_STAT_DRAINED : Fld := ⟨31, 31⟩
def ARB_a_STAT_FROZEN : Fld := ⟨30, 30⟩
def ARB_a_STAT_ACTIVE : Fld := ⟨21, 16⟩
def ARB_a_PRIO_ACT : Fld := ⟨19, 16⟩
def ARB_a_PRIO_PRIO : Fld := ⟨3, 0⟩
def ARB_a_CUTOFF_ID_VALID : Fld := ⟨31, 31⟩
def ARB_a_CUTOFF_ID_WRITE : Fld := ⟨5, 5⟩
def ARB_a_CUTOFF_ID_REQ : Fld := ⟨4, 0⟩
def ARB_COMMIT_GO : Fld := ⟨0, 0⟩
def ARB_STAT_PEND : Fld := ⟨31, 31⟩
def ARB_STAT_COMMITS : Fld := ⟨15, 0⟩
def ECC_CTL_CE_EVT : Fld := ⟨0, 0⟩
def ECC_STAT_DECODERS : Fld := ⟨7, 0⟩
def ECC_CE_LOG_HI_UNIT : Fld := ⟨31, 24⟩
def ECC_CE_LOG_HI_ADDR_HI : Fld := ⟨2, 0⟩
def ECC_CE_LOG_INFO_VALID : Fld := ⟨31, 31⟩
def ECC_CE_LOG_INFO_HBM : Fld := ⟨30, 30⟩
def ECC_CE_LOG_INFO_UNWR : Fld := ⟨29, 29⟩
def ECC_CE_LOG_INFO_SCRUB : Fld := ⟨28, 28⟩
def ECC_CE_LOG_INFO_SYNDROME : Fld := ⟨23, 0⟩
def ECC_UE_LOG_HI_UNIT : Fld := ⟨31, 24⟩
def ECC_UE_LOG_HI_ADDR_HI : Fld := ⟨2, 0⟩
def ECC_UE_LOG_INFO_VALID : Fld := ⟨31, 31⟩
def ECC_UE_LOG_INFO_HBM : Fld := ⟨30, 30⟩
def ECC_UE_LOG_INFO_UNWR : Fld := ⟨29, 29⟩
def ECC_UE_LOG_INFO_SCRUB : Fld := ⟨28, 28⟩
def ECC_UE_LOG_INFO_SYNDROME : Fld := ⟨23, 0⟩
def ECC_SCRUB_CTL_PERIOD : Fld := ⟨31, 16⟩
def ECC_SCRUB_CTL_EN : Fld := ⟨0, 0⟩
def ECC_SCRUB_STAT_ACTIVE : Fld := ⟨31, 31⟩
def ECC_SCRUB_STAT_REGION : Fld := ⟨27, 26⟩
def ECC_SCRUB_BASE_k_LO_ADDR_LO : Fld := ⟨31, 16⟩
def ECC_SCRUB_BASE_k_HI_ADDR_HI : Fld := ⟨2, 0⟩
def ECC_SCRUB_SIZE_k_UNITS : Fld := ⟨19, 0⟩
def KRY_p_CTL_MAXSPEED : Fld := ⟨3, 2⟩
def KRY_p_CTL_RETRAIN : Fld := ⟨1, 1⟩
def KRY_p_CTL_EN : Fld := ⟨0, 0⟩
def KRY_p_STAT_STATE : Fld := ⟨31, 28⟩
def KRY_p_STAT_SPEED : Fld := ⟨27, 26⟩
def KRY_p_STAT_NBR_VALID : Fld := ⟨25, 25⟩
def KRY_p_STAT_NBR_ROOT : Fld := ⟨24, 24⟩
def KRY_p_STAT_NBR_STGM : Fld := ⟨23, 23⟩
def KRY_p_STAT_NBR_ID : Fld := ⟨11, 0⟩
def KRY_p_EYE_CTL_BUSY : Fld := ⟨31, 31⟩
def KRY_p_EYE_CTL_DWELL : Fld := ⟨5, 3⟩
def KRY_p_EYE_CTL_LANE : Fld := ⟨1, 1⟩
def KRY_p_EYE_CTL_START : Fld := ⟨0, 0⟩
def KRY_ID_VALID : Fld := ⟨31, 31⟩
def KRY_ID_CONFIRMED : Fld := ⟨30, 30⟩
def KRY_ID_ROOT : Fld := ⟨29, 29⟩
def KRY_ID_CONFLICT : Fld := ⟨28, 28⟩
def KRY_ID_GEN : Fld := ⟨27, 20⟩
def KRY_ID_ID : Fld := ⟨11, 0⟩
def KRY_ENUM_CONFIRM : Fld := ⟨31, 31⟩
def KRY_ENUM_REENUM : Fld := ⟨30, 30⟩
def KRY_ENUM_COUNT : Fld := ⟨12, 0⟩
def KRY_MAP_COUNT_ANY_CONFLICT : Fld := ⟨31, 31⟩
def KRY_MAP_COUNT_COUNT : Fld := ⟨12, 0⟩
def KRY_BCAST_FROM_W : Fld := ⟨19, 16⟩
def KRY_BCAST_FROM_S : Fld := ⟨15, 12⟩
def KRY_BCAST_FROM_E : Fld := ⟨11, 8⟩
def KRY_BCAST_FROM_N : Fld := ⟨7, 4⟩
def KRY_BCAST_ORIGIN : Fld := ⟨3, 0⟩
def KRY_RELAY_EVT_EN : Fld := ⟨31, 31⟩
def KRY_RELAY_TELEM_EN : Fld := ⟨30, 30⟩
def KRY_RELAY_DEST : Fld := ⟨11, 0⟩
def KRY_ROUTE_CTL_PEND : Fld := ⟨31, 31⟩
def KRY_ROUTE_CTL_COMMIT : Fld := ⟨0, 0⟩
def KRY_ROUTE_i_VALID : Fld := ⟨31, 31⟩
def KRY_ROUTE_i_PORT : Fld := ⟨29, 28⟩
def KRY_ROUTE_i_MASK : Fld := ⟨27, 16⟩
def KRY_ROUTE_i_DEST : Fld := ⟨11, 0⟩
def KRY_MAP_d_INFO_VALID : Fld := ⟨31, 31⟩
def KRY_MAP_d_INFO_CONFLICT : Fld := ⟨30, 30⟩
def KRY_MAP_d_INFO_ROOT : Fld := ⟨29, 29⟩
def KRY_MAP_d_INFO_STGM : Fld := ⟨28, 28⟩
def KRY_MAP_d_INFO_LINKS : Fld := ⟨27, 24⟩
def KRY_MAP_d_INFO_QUAR : Fld := ⟨23, 20⟩
def TIME_CTL_SYNC_EN : Fld := ⟨1, 1⟩
def TIME_CTL_HOLDOVER : Fld := ⟨0, 0⟩
def TIME_STAT_REF : Fld := ⟨31, 31⟩
def TIME_STAT_LOCKED : Fld := ⟨30, 30⟩
def TIME_STAT_HOLDOVER : Fld := ⟨29, 29⟩
def TIME_STAT_SLEWING : Fld := ⟨28, 28⟩
def TIME_STAT_STEP_PEND : Fld := ⟨27, 27⟩
def TIME_STAT_EPOCH : Fld := ⟨23, 16⟩
def TIME_STAT_SEQ : Fld := ⟨15, 0⟩
def TIME_SYNC_GM_TMO : Fld := ⟨31, 16⟩
def TIME_SYNC_KSHIFT : Fld := ⟨11, 8⟩
def TIME_SYNC_SYNC_LOG2 : Fld := ⟨3, 0⟩
def TIME_ETH_CTL_ONESTEP : Fld := ⟨2, 2⟩
def TIME_ETH_CTL_SPEED : Fld := ⟨1, 1⟩
def TIME_ETH_CTL_EN : Fld := ⟨0, 0⟩
def TIME_ETH_LAT_RXLAT : Fld := ⟨31, 16⟩
def TIME_ETH_LAT_TXLAT : Fld := ⟨15, 0⟩
def TIME_TXQ_HDR_VALID : Fld := ⟨31, 31⟩
def TIME_TXQ_HDR_LATE : Fld := ⟨30, 30⟩
def TIME_TXQ_HDR_MSGTYPE : Fld := ⟨27, 24⟩
def TIME_TXQ_HDR_COUNT : Fld := ⟨20, 16⟩
def TIME_TXQ_HDR_SEQID : Fld := ⟨15, 0⟩
def TIME_LATE_RX_DROP : Fld := ⟨31, 16⟩
def TIME_LATE_LATE : Fld := ⟨15, 0⟩
def TIME_TXD_s_CTL_GO : Fld := ⟨31, 31⟩
def TIME_TXD_s_CTL_BUSY : Fld := ⟨30, 30⟩
def TIME_TXD_s_CTL_TS : Fld := ⟨29, 29⟩
def TIME_TXD_s_CTL_ONESTEP : Fld := ⟨28, 28⟩
def TIME_TXD_s_CTL_LAUNCH : Fld := ⟨27, 27⟩
def TIME_TXD_s_CTL_LEN : Fld := ⟨10, 0⟩
def TIME_RXD_r_STAT_VALID : Fld := ⟨31, 31⟩
def TIME_RXD_r_STAT_LEN : Fld := ⟨10, 0⟩
def SAF_STAT_SAFE_STATE : Fld := ⟨31, 31⟩
def SAF_STAT_SOFT : Fld := ⟨30, 30⟩
def SAF_STAT_LOCKED : Fld := ⟨29, 29⟩
def SAF_STAT_KEY_SET : Fld := ⟨28, 28⟩
def SAF_STAT_LOCKOUT : Fld := ⟨27, 27⟩
def SAF_STAT_COMMISSION_EN : Fld := ⟨26, 26⟩
def SAF_STAT_BEN : Fld := ⟨15, 0⟩
def SAF_CAUSE_CAUSE : Fld := ⟨16, 0⟩
def SAF_INPUTS_PLUG : Fld := ⟨31, 16⟩
def SAF_INPUTS_IN : Fld := ⟨4, 0⟩
def SAF_CFG_HB_MS : Fld := ⟨31, 16⟩
def SAF_CFG_DISC_MS : Fld := ⟨15, 8⟩
def SAF_CFG_EN : Fld := ⟨2, 0⟩
def SAF_MINPER_MIN : Fld := ⟨19, 0⟩
def SAF_WDOG_CEIL : Fld := ⟨15, 0⟩
def SAF_TEMP_HARD : Fld := ⟨31, 16⟩
def SAF_TEMP_SOFT : Fld := ⟨15, 0⟩
def SAF_TILE_EN_EN : Fld := ⟨15, 0⟩
def SAF_FENCE_PIX_P_HI : Fld := ⟨30, 16⟩
def SAF_FENCE_PIX_P_LO : Fld := ⟨14, 0⟩
def SAF_TILE_t_MATCH : Fld := ⟨31, 31⟩
def SAF_TILE_t_PERMIT : Fld := ⟨30, 30⟩
def SAF_TILE_t_S : Fld := ⟨24, 16⟩
def SAF_TILE_t_TMAX : Fld := ⟨15, 0⟩
def SAF_CUT_OFS_OFS : Fld := ⟨15, 0⟩
def SAF_SPI_STAT_CRC_ERR : Fld := ⟨31, 24⟩
def SAF_SPI_STAT_MAC_FAIL : Fld := ⟨23, 16⟩
def SAF_SPI_STAT_LOCK_S : Fld := ⟨15, 8⟩
def SAF_SPI_STAT_SLOTS : Fld := ⟨7, 0⟩
def SAF_CEIL_j_CEIL_ODD : Fld := ⟨27, 16⟩
def SAF_CEIL_j_CEIL_EVEN : Fld := ⟨11, 0⟩
def MET_ID_GRADE : Fld := ⟨16, 16⟩
def MET_ID_VERSION : Fld := ⟨15, 0⟩
def MET_STAT_ERROR : Fld := ⟨31, 31⟩
def MET_STAT_OPEN : Fld := ⟨30, 30⟩
def MET_STAT_VERIFIED : Fld := ⟨29, 29⟩
def MET_STAT_NV_LOW : Fld := ⟨28, 28⟩
def MET_STAT_DISP_ABSENT : Fld := ⟨27, 27⟩
def MET_STAT_BUILD : Fld := ⟨26, 26⟩
def MET_STAT_LAYER : Fld := ⟨25, 25⟩
def MET_STAT_UNCAL : Fld := ⟨15, 0⟩
def MET_ERR_CAUSE : Fld := ⟨7, 0⟩
def MET_EC_FACTORY_EC : Fld := ⟨27, 16⟩
def MET_EC_EC : Fld := ⟨11, 0⟩
def MET_PARAM_RAIL_MIN : Fld := ⟨31, 16⟩
def MET_PARAM_PVER : Fld := ⟨15, 0⟩
def MET_K_c_K : Fld := ⟨23, 0⟩
def LDG_STAT_WAIT : Fld := ⟨4, 4⟩
def LDG_STAT_OPEN : Fld := ⟨2, 0⟩
def LDG_k_STAT_STATE : Fld := ⟨31, 30⟩
def LDG_k_STAT_INVALID : Fld := ⟨29, 29⟩
def LDG_k_STAT_TAG : Fld := ⟨23, 0⟩
def LDG_BUILD_STAT_OPEN : Fld := ⟨31, 31⟩
def LDG_BUILD_STAT_INTERRUPTED : Fld := ⟨15, 0⟩
def PNL_KEY_CFG_k_CODE : Fld := ⟨15, 8⟩
def PNL_KEY_CFG_k_FUNC : Fld := ⟨2, 0⟩
def PNL_LED_k_SRC : Fld := ⟨3, 2⟩
def PNL_LED_k_MODE : Fld := ⟨1, 0⟩
def PNL_STAT_CAM : Fld := ⟨19, 16⟩
def PNL_STAT_KEY : Fld := ⟨15, 8⟩
def PNL_STAT_LED : Fld := ⟨7, 0⟩
def PNL_PRESSED_KEY : Fld := ⟨7, 0⟩
def GLN_CTL_RATE : Fld := ⟨9, 8⟩
def GLN_CTL_MODE_EN : Fld := ⟨7, 7⟩
def GLN_CTL_LDG_EN : Fld := ⟨6, 6⟩
def GLN_CTL_ARB_EN : Fld := ⟨5, 5⟩
def GLN_CTL_RING_EN : Fld := ⟨4, 4⟩
def GLN_CTL_EN : Fld := ⟨0, 0⟩
def GLN_SRC_EN_SRC : Fld := ⟨15, 0⟩
def GLN_PERIOD_LDG : Fld := ⟨31, 16⟩
def GLN_PERIOD_ARB : Fld := ⟨15, 0⟩
def GLN_STAT_ACTIVE : Fld := ⟨31, 31⟩
def GLN_STAT_FILL : Fld := ⟨9, 0⟩
def GLN_PMC_CTL_SNAP : Fld := ⟨2, 2⟩
def GLN_PMC_CTL_CLEAR : Fld := ⟨1, 1⟩
def GLN_PMC_CTL_RUN : Fld := ⟨0, 0⟩
def GLN_PMC_k_SEL_ARG : Fld := ⟨15, 8⟩
def GLN_PMC_k_SEL_SEL : Fld := ⟨4, 0⟩
def TOP_ID_DEVICE : Fld := ⟨31, 16⟩
def TOP_ID_STEPPING : Fld := ⟨7, 0⟩

end Fd

/-- Register rows of block TOP. The tables are those of R45, R79 to R81. -/
def rowsTop : List RegRow :=
  [⟨0x0, 1, 0x100000000, 1, 0x100000000, 0x0, 0x0, 0x0, 0x0, 0x52620010⟩,
   ⟨0x4, 1, 0x100000000, 1, 0x100000000, 0x0, 0x0, 0x0, 0x0, 0x0⟩,
   ⟨0x8, 1, 0x100000000, 1, 0x100000000, 0x0, 0x0, 0x0, 0x0, 0x0⟩,
   ⟨0x100, 1, 0x100000000, 1, 0x100000000, 0x0, 0x0, 0x0, 0x0, 0x0⟩,
   ⟨0x104, 1, 0x100000000, 1, 0x100000000, 0x0, 0x0, 0x0, 0x0, 0x0⟩,
   ⟨0x108, 1, 0x100000000, 1, 0x100000000, 0x0, 0x3F, 0x0, 0x0, 0x20⟩,
   ⟨0x10C, 1, 0x100000000, 1, 0x100000000, 0x0, 0x0, 0x0, 0x0, 0x0⟩,
   ⟨0x110, 1, 0x100000000, 1, 0x100000000, 0x0, 0x0, 0xFFFF0001, 0x0, 0x0⟩,
   ⟨0x200, 1, 0x100000000, 1, 0x100000000, 0xFFFFF, 0x0, 0x0, 0x0, 0x1388⟩,
   ⟨0x204, 1, 0x100000000, 1, 0x100000000, 0x0, 0x0, 0x0, 0x0, 0x0⟩,
   ⟨0x208, 1, 0x100000000, 1, 0x100000000, 0x0, 0x0, 0x0, 0x0, 0x0⟩,
   ⟨0x20C, 1, 0x100000000, 1, 0x100000000, 0x0, 0x0, 0x0, 0x0, 0x0⟩,
   ⟨0x210, 1, 0x100000000, 1, 0x100000000, 0x0, 0x0, 0x0, 0x0, 0x0⟩,
   ⟨0x214, 1, 0x100000000, 1, 0x100000000, 0x0, 0x0, 0x0, 0x0, 0x0⟩,
   ⟨0x218, 1, 0x100000000, 1, 0x100000000, 0x0, 0x0, 0x0, 0x0, 0x0⟩]

/-- Register rows of block RING. -/
def rowsRing : List RegRow :=
  [⟨0x100000, 16, 0x40, 1, 0x100000000, 0xFFFFF000, 0x0, 0x0, 0x0, 0x0⟩,
   ⟨0x100004, 16, 0x40, 1, 0x100000000, 0xFFFFFFFF, 0x0, 0x0, 0x0, 0x0⟩,
   ⟨0x100008, 16, 0x40, 1, 0x100000000, 0xFFFFFF9F, 0x0, 0x0, 0x0, 0x104⟩,
   ⟨0x10000C, 16, 0x40, 1, 0x100000000, 0x0, 0x0, 0x0, 0x0, 0x0⟩,
   ⟨0x100010, 16, 0x40, 1, 0x100000000, 0x0, 0x0, 0x0, 0x0, 0x0⟩,
   ⟨0x100014, 16, 0x40, 1, 0x100000000, 0x0, 0x60000000, 0x0, 0x0, 0x0⟩,
   ⟨0x100018, 16, 0x40, 1, 0x100000000, 0x0, 0x0, 0x0, 0x0, 0x0⟩,
   ⟨0x10001C, 16, 0x40, 1, 0x100000000, 0x0, 0x0, 0x0, 0x0, 0x0⟩,
   ⟨0x100020, 16, 0x40, 1, 0x100000000, 0x0, 0x0, 0x0, 0xFFFFFFFF, 0x0⟩,
   ⟨0x100024, 16, 0x40, 1, 0x100000000, 0xFFFFF000, 0x0, 0x0, 0x0, 0x0⟩,
   ⟨0x100028, 16, 0x40, 1, 0x100000000, 0xFFFFFFFF, 0x0, 0x0, 0x0, 0x0⟩,
   ⟨0x10002C, 16, 0x40, 1, 0x100000000, 0x3FFFF, 0x0, 0x0, 0x0, 0x0⟩,
   ⟨0x101000, 1, 0x100000000, 1, 0x100000000, 0x0, 0x0, 0x0, 0x0, 0x0⟩,
   ⟨0x101004, 1, 0x100000000, 1, 0x100000000, 0x0, 0x0, 0x0, 0x0, 0x0⟩,
   ⟨0x101008, 1, 0x100000000, 1, 0x100000000, 0xFFFF0007, 0x0, 0x0, 0x0, 0x0⟩,
   ⟨0x10100C, 1, 0x100000000, 1, 0x100000000, 0xFFFFFFC0, 0x0, 0x0, 0x0, 0x0⟩,
   ⟨0x101010, 1, 0x100000000, 1, 0x100000000, 0xFFFFFFFF, 0x0, 0x0, 0x0, 0x0⟩,
   ⟨0x101014, 1, 0x100000000, 1, 0x100000000, 0x9F, 0x0, 0x0, 0x0, 0x6⟩,
   ⟨0x101018, 1, 0x100000000, 1, 0x100000000, 0x0, 0x0, 0x0, 0x0, 0x0⟩,
   ⟨0x10101C, 1, 0x100000000, 1, 0x100000000, 0xFFFFFFFF, 0x0, 0x0, 0x0, 0x0⟩,
   ⟨0x101020, 1, 0x100000000, 1, 0x100000000, 0x0, 0x0, 0x0, 0xFFFFFFFF, 0x0⟩]

/-- Register rows of block CPE. -/
def rowsCpe : List RegRow :=
  [⟨0x200000, 32, 0x40, 1, 0x100000000, 0x0, 0x0, 0x3, 0x0, 0x0⟩,
   ⟨0x200004, 32, 0x40, 1, 0x100000000, 0x0, 0x0, 0x0, 0x0, 0x0⟩,
   ⟨0x200008, 32, 0x40, 1, 0x100000000, 0x0, 0x0, 0x0, 0x0, 0x0⟩,
   ⟨0x20000C, 32, 0x40, 1, 0x100000000, 0x0, 0x0, 0x0, 0x0, 0x0⟩,
   ⟨0x200010, 32, 0x40, 1, 0x100000000, 0xFFFFF000, 0x0, 0x0, 0x0, 0x0⟩,
   ⟨0x200014, 32, 0x40, 1, 0x100000000, 0xFFFFFFFF, 0x0, 0x0, 0x0, 0x0⟩,
   ⟨0x201000, 1, 0x100000000, 1, 0x100000000, 0x0, 0x0, 0x0, 0x0, 0x0⟩,
   ⟨0x201004, 1, 0x100000000, 1, 0x100000000, 0x0, 0x0, 0x0, 0x0, 0x0⟩,
   ⟨0x201008, 1, 0x100000000, 1, 0x100000000, 0x0, 0x0, 0x0, 0x0, 0x0⟩,
   ⟨0x20100C, 1, 0x100000000, 1, 0x100000000, 0x0, 0x80000000, 0x0, 0x0, 0x0⟩,
   ⟨0x280000, 8, 0x40, 1, 0x100000000, 0x37F, 0x0, 0x0, 0x0, 0x320⟩,
   ⟨0x280004, 8, 0x40, 1, 0x100000000, 0x0, 0x80000000, 0x0, 0x0, 0x0⟩,
   ⟨0x280008, 8, 0x40, 1, 0x100000000, 0xFFFFFFFF, 0x0, 0x0, 0x0, 0x1EDC6F41⟩,
   ⟨0x28000C, 8, 0x40, 1, 0x100000000, 0xFFFFFFFF, 0x0, 0x0, 0x0, 0x0⟩,
   ⟨0x280010, 8, 0x40, 1, 0x100000000, 0xFFFFFFFF, 0x0, 0x0, 0x0, 0xFFFFFFFF⟩,
   ⟨0x280014, 8, 0x40, 1, 0x100000000, 0xFFFFFFFF, 0x0, 0x0, 0x0, 0x0⟩,
   ⟨0x280018, 8, 0x40, 1, 0x100000000, 0xFFFFFFFF, 0x0, 0x0, 0x0, 0xFFFFFFFF⟩,
   ⟨0x28001C, 8, 0x40, 1, 0x100000000, 0xFFFFFFFF, 0x0, 0x0, 0x0, 0x0⟩,
   ⟨0x280020, 8, 0x40, 1, 0x100000000, 0xFFFFFFFF, 0x0, 0x0, 0x0, 0x0⟩,
   ⟨0x280024, 8, 0x40, 1, 0x100000000, 0xFFFFFFFF, 0x0, 0x0, 0x0, 0x0⟩,
   ⟨0x280028, 8, 0x40, 1, 0x100000000, 0x0, 0x0, 0x0, 0x0, 0x0⟩,
   ⟨0x28002C, 8, 0x40, 1, 0x100000000, 0x0, 0x0, 0x0, 0x0, 0x0⟩]

/-- Register rows of block THR. -/
def rowsThr : List RegRow :=
  [⟨0x300000, 17, 0x100, 1, 0x100000000, 0x1, 0x0, 0x2, 0x0, 0x1⟩,
   ⟨0x300004, 17, 0x100, 1, 0x100000000, 0x0, 0x0, 0x0, 0x0, 0x0⟩,
   ⟨0x300008, 17, 0x100, 1, 0x100000000, 0x0, 0x0, 0x0, 0xFFFFFFFF, 0x0⟩,
   ⟨0x30000C, 17, 0x100, 1, 0x100000000, 0x0, 0x0, 0x0, 0xFFFFFFFF, 0x0⟩,
   ⟨0x300010, 17, 0x100, 1, 0x100000000, 0x0, 0x0, 0x0, 0xFFFFFFFF, 0x0⟩,
   ⟨0x300014, 17, 0x100, 1, 0x100000000, 0x0, 0x0, 0x0, 0xFFFFFFFF, 0x0⟩,
   ⟨0x30F000, 1, 0x100000000, 1, 0x100000000, 0x3, 0x0, 0x0, 0x0, 0x1⟩,
   ⟨0x30F004, 1, 0x100000000, 1, 0x100000000, 0xFFFFFFF8, 0x0, 0x0, 0x0, 0x0⟩,
   ⟨0x30F008, 1, 0x100000000, 1, 0x100000000, 0x7, 0x0, 0x0, 0x0, 0x0⟩,
   ⟨0x30F00C, 1, 0x100000000, 1, 0x100000000, 0xFFFFFFF8, 0x0, 0x0, 0x0, 0x0⟩,
   ⟨0x30F010, 1, 0x100000000, 1, 0x100000000, 0x7, 0x0, 0x0, 0x0, 0x0⟩,
   ⟨0x30F014, 1, 0x100000000, 1, 0x100000000, 0x1FFFFFF, 0x0, 0x0, 0x0, 0x0⟩,
   ⟨0x30F020, 8, 0x4, 1, 0x100000000, 0x0, 0x0, 0x0, 0x0, 0x0⟩,
   ⟨0x30F040, 1, 0x100000000, 1, 0x100000000, 0x0, 0x0, 0x0, 0xFFFFFFFF, 0x0⟩,
   ⟨0x30F050, 1, 0x100000000, 1, 0x100000000, 0xFFFFF000, 0x0, 0x0, 0x0, 0x0⟩,
   ⟨0x30F054, 1, 0x100000000, 1, 0x100000000, 0x7, 0x0, 0x0, 0x0, 0x0⟩,
   ⟨0x30F058, 1, 0x100000000, 1, 0x100000000, 0xFF, 0x0, 0x0, 0x0, 0x3⟩,
   ⟨0x30F05C, 1, 0x100000000, 1, 0x100000000, 0x0, 0x0, 0x0, 0x0, 0x0⟩]

/-- Register rows of block TIL. -/
def rowsTil : List RegRow :=
  [⟨0x400000, 128, 0x1000, 1, 0x100000000, 0x1, 0x0, 0x0, 0x0, 0x1⟩,
   ⟨0x400004, 128, 0x1000, 1, 0x100000000, 0xFF, 0x0, 0x0, 0x0, 0x0⟩,
   ⟨0x400008, 128, 0x1000, 1, 0x100000000, 0xFFFF, 0x0, 0x0, 0x0, 0x1000⟩,
   ⟨0x40000C, 128, 0x1000, 1, 0x100000000, 0x0, 0x0, 0x0, 0x0, 0x0⟩,
   ⟨0x400010, 128, 0x1000, 1, 0x100000000, 0x0, 0x0, 0x0, 0x0, 0x0⟩,
   ⟨0x400014, 128, 0x1000, 1, 0x100000000, 0x0, 0x0, 0x0, 0x0, 0x0⟩,
   ⟨0x400018, 128, 0x1000, 1, 0x100000000, 0x80001FFF, 0x0, 0x0, 0x0, 0x0⟩,
   ⟨0x40001C, 128, 0x1000, 1, 0x100000000, 0x0, 0x0, 0x0, 0x0, 0x0⟩,
   ⟨0x400020, 128, 0x1000, 1, 0x100000000, 0x0, 0x0, 0x0, 0x0, 0x0⟩,
   ⟨0x400024, 128, 0x1000, 1, 0x100000000, 0x0, 0x0, 0x0, 0xFFFFFFFF, 0x0⟩,
   ⟨0x480000, 1, 0x100000000, 1, 0x100000000, 0x0, 0x0, 0x0, 0x0, 0x0⟩,
   ⟨0x480004, 1, 0x100000000, 1, 0x100000000, 0x0, 0x0, 0x0, 0x0, 0x0⟩,
   ⟨0x480008, 1, 0x100000000, 1, 0x100000000, 0x0, 0x0, 0x0, 0x7F, 0x40⟩,
   ⟨0x48000C, 1, 0x100000000, 1, 0x100000000, 0x0, 0x0, 0x0, 0xFFFFFFFF, 0x0⟩,
   ⟨0x480010, 1, 0x100000000, 1, 0x100000000, 0x0, 0x0, 0x0, 0xFFFFFFFF, 0x0⟩,
   ⟨0x480014, 1, 0x100000000, 1, 0x100000000, 0x0, 0x0, 0x0, 0xFFFFFFFF, 0x0⟩,
   ⟨0x480020, 1, 0x100000000, 1, 0x100000000, 0xFFE00000, 0x0, 0x0, 0x0, 0x0⟩,
   ⟨0x480024, 1, 0x100000000, 1, 0x100000000, 0x7, 0x0, 0x0, 0x0, 0x0⟩,
   ⟨0x480028, 1, 0x100000000, 1, 0x100000000, 0x2, 0x0, 0x1, 0x0, 0x0⟩,
   ⟨0x48002C, 1, 0x100000000, 1, 0x100000000, 0x0, 0x0, 0x0, 0x0, 0x0⟩,
   ⟨0x480100, 16, 0x4, 1, 0x100000000, 0xFFFFFF, 0x0, 0x0, 0x0, 0xA0C80⟩,
   ⟨0x480140, 16, 0x4, 1, 0x100000000, 0x0, 0x0, 0x0, 0x0, 0x0⟩,
   ⟨0x481000, 16, 0x80, 32, 0x4, 0xFFFFFFFF, 0x0, 0x0, 0x0, 0x40004000⟩]

/-- Register rows of block HEAT. -/
def rowsHeat : List RegRow :=
  [⟨0x500000, 1, 0x100000000, 1, 0x100000000, 0x7, 0x0, 0x0, 0x0, 0x0⟩,
   ⟨0x500004, 1, 0x100000000, 1, 0x100000000, 0x0, 0x0, 0x0, 0x0, 0x0⟩,
   ⟨0x500008, 1, 0x100000000, 1, 0x100000000, 0xFFFFF000, 0x0, 0x0, 0x0, 0x0⟩,
   ⟨0x50000C, 1, 0x100000000, 1, 0x100000000, 0x7, 0x0, 0x0, 0x0, 0x0⟩,
   ⟨0x500010, 1, 0x100000000, 1, 0x100000000, 0x1FFFFF, 0x0, 0x0, 0x0, 0x0⟩,
   ⟨0x500014, 1, 0x100000000, 1, 0x100000000, 0xFFFFFFFF, 0x0, 0x0, 0x0, 0x0⟩,
   ⟨0x500018, 1, 0x100000000, 1, 0x100000000, 0xFFFF, 0x0, 0x0, 0x0, 0x0⟩,
   ⟨0x50001C, 1, 0x100000000, 1, 0x100000000, 0xFFFF, 0x0, 0x0, 0x0, 0x100⟩,
   ⟨0x500020, 1, 0x100000000, 1, 0x100000000, 0xFFFF0000, 0x0, 0x0, 0x0, 0x0⟩,
   ⟨0x500024, 1, 0x100000000, 1, 0x100000000, 0x7, 0x0, 0x0, 0x0, 0x0⟩,
   ⟨0x500028, 1, 0x100000000, 1, 0x100000000, 0x2, 0x0, 0x1, 0x0, 0x0⟩,
   ⟨0x500030, 1, 0x100000000, 1, 0x100000000, 0x0, 0x0, 0x0, 0xFFFFFFFF, 0x0⟩,
   ⟨0x500034, 1, 0x100000000, 1, 0x100000000, 0x0, 0x0, 0x0, 0xFFFFFFFF, 0x0⟩,
   ⟨0x500038, 1, 0x100000000, 1, 0x100000000, 0x0, 0x0, 0x0, 0xFFFFFFFF, 0x0⟩,
   ⟨0x500040, 4, 0x4, 1, 0x100000000, 0xFFFF, 0x0, 0x0, 0x0, 0x0⟩,
   ⟨0x500100, 32, 0x4, 1, 0x100000000, 0xFFFFFFFF, 0x0, 0x0, 0x0, 0xFFFFFFFF⟩,
   ⟨0x500180, 32, 0x4, 1, 0x100000000, 0xFFFFFFFF, 0x0, 0x0, 0x0, 0xFFFFFFFF⟩]

/-- Register rows of block CAM. -/
def rowsCam : List RegRow :=
  [⟨0x600000, 4, 0x1000, 1, 0x100000000, 0x3, 0x0, 0x0, 0x0, 0x0⟩,
   ⟨0x600004, 4, 0x1000, 1, 0x100000000, 0x7FF, 0x0, 0x0, 0x0, 0xD0⟩,
   ⟨0x600008, 4, 0x1000, 1, 0x100000000, 0x1FFF1FFF, 0x0, 0x0, 0x0, 0x2000280⟩,
   ⟨0x60000C, 4, 0x1000, 1, 0x100000000, 0xFFFF, 0x0, 0x0, 0x0, 0x3210⟩,
   ⟨0x600010, 4, 0x1000, 1, 0x100000000, 0xFFFFF, 0x0, 0x0, 0x0, 0x2710⟩,
   ⟨0x600014, 4, 0x1000, 1, 0x100000000, 0xFFFFFFC0, 0x0, 0x0, 0x0, 0x0⟩,
   ⟨0x600018, 4, 0x1000, 1, 0x100000000, 0x80000007, 0x0, 0x0, 0x0, 0x0⟩,
   ⟨0x60001C, 4, 0x1000, 1, 0x100000000, 0xFFFFFFFF, 0x0, 0x0, 0x0, 0x0⟩,
   ⟨0x600020, 4, 0x1000, 1, 0x100000000, 0x0, 0x0, 0x0, 0x0, 0x0⟩,
   ⟨0x600024, 4, 0x1000, 1, 0x100000000, 0x0, 0x0, 0x0, 0x0, 0x0⟩,
   ⟨0x600028, 4, 0x1000, 1, 0x100000000, 0x0, 0x0, 0x0, 0x0, 0x0⟩,
   ⟨0x60002C, 4, 0x1000, 1, 0x100000000, 0x0, 0x0, 0x0, 0x0, 0x0⟩,
   ⟨0x600030, 4, 0x1000, 1, 0x100000000, 0x0, 0x0, 0x0, 0xFFFFFFFF, 0x0⟩,
   ⟨0x600034, 4, 0x1000, 1, 0x100000000, 0x0, 0x0, 0x0, 0xFFFFFFFF, 0x0⟩,
   ⟨0x600038, 4, 0x1000, 1, 0x100000000, 0x0, 0x0, 0x0, 0xFFFFFFFF, 0x0⟩,
   ⟨0x60003C, 4, 0x1000, 1, 0x100000000, 0x0, 0x0, 0x0, 0xFFFFFFFF, 0x0⟩,
   ⟨0x600040, 4, 0x1000, 1, 0x100000000, 0x0, 0x0, 0x0, 0xFFFFFFFF, 0x0⟩,
   ⟨0x600044, 4, 0x1000, 1, 0x100000000, 0x0, 0x0, 0x0, 0xFFFFFFFF, 0x0⟩]

/-- Register rows of block HEAD. -/
def rowsHead : List RegRow :=
  [⟨0x700000, 16, 0x1000, 1, 0x100000000, 0x4, 0x0, 0x3, 0x0, 0x0⟩,
   ⟨0x700004, 16, 0x1000, 1, 0x100000000, 0x0, 0x0, 0x0, 0x0, 0x0⟩,
   ⟨0x700008, 16, 0x1000, 1, 0x100000000, 0x0, 0x0, 0x0, 0x0, 0x0⟩,
   ⟨0x70000C, 16, 0x1000, 1, 0x100000000, 0x0, 0x0, 0x0, 0x0, 0x0⟩,
   ⟨0x700010, 16, 0x1000, 1, 0x100000000, 0x0, 0x0, 0x0, 0x0, 0x0⟩,
   ⟨0x700014, 16, 0x1000, 1, 0x100000000, 0x0, 0x0, 0x0, 0x0, 0x0⟩,
   ⟨0x700018, 16, 0x1000, 1, 0x100000000, 0x0, 0x0, 0x0, 0x0, 0x0⟩,
   ⟨0x70001C, 16, 0x1000, 1, 0x100000000, 0x0, 0x0, 0x0, 0x0, 0x0⟩,
   ⟨0x700020, 16, 0x1000, 1, 0x100000000, 0x0, 0x0, 0x0, 0x0, 0x0⟩,
   ⟨0x700024, 16, 0x1000, 1, 0x100000000, 0x3E, 0x0, 0x1, 0x0, 0x18⟩,
   ⟨0x700028, 16, 0x1000, 4, 0x4, 0x0, 0x0, 0x0, 0x0, 0x0⟩,
   ⟨0x700038, 16, 0x1000, 1, 0x100000000, 0x0, 0x0, 0x0, 0xFFFFFFFF, 0x0⟩,
   ⟨0x70003C, 16, 0x1000, 1, 0x100000000, 0x0, 0x0, 0x0, 0xFFFFFFFF, 0x0⟩,
   ⟨0x700040, 16, 0x1000, 1, 0x100000000, 0x0, 0x0, 0x0, 0xFFFFFFFF, 0x0⟩,
   ⟨0x710000, 1, 0x100000000, 1, 0x100000000, 0xFFFFF, 0x0, 0x0, 0x0, 0x2EE0⟩,
   ⟨0x710004, 1, 0x100000000, 1, 0x100000000, 0xFFFFF, 0x0, 0x0, 0x0, 0x3E8⟩,
   ⟨0x710008, 1, 0x100000000, 1, 0x100000000, 0x0, 0x0, 0x0, 0x0, 0x0⟩]

/-- Register rows of block CAL. -/
def rowsCal : List RegRow :=
  [⟨0x800000, 16, 0x100, 1, 0x100000000, 0x131FFF, 0x0, 0x0, 0x0, 0x100⟩,
   ⟨0x800004, 16, 0x100, 1, 0x100000000, 0x0, 0x0, 0x0, 0x0, 0x0⟩,
   ⟨0x800008, 16, 0x100, 1, 0x100000000, 0xFFFFFFFF, 0x0, 0x0, 0x0, 0x2300190⟩,
   ⟨0x80000C, 16, 0x100, 1, 0x100000000, 0xFFFFFFFF, 0x0, 0x0, 0x0, 0x37002D0⟩,
   ⟨0x800010, 16, 0x100, 1, 0x100000000, 0xFFFF, 0x0, 0x0, 0x0, 0x410⟩,
   ⟨0x800014, 16, 0x100, 1, 0x100000000, 0xFFFFFFFF, 0x0, 0x0, 0x0, 0x0⟩,
   ⟨0x800018, 16, 0x100, 1, 0x100000000, 0x0, 0x0, 0x0, 0x0, 0x0⟩,
   ⟨0x80001C, 16, 0x100, 1, 0x100000000, 0x0, 0x0, 0x0, 0x0, 0x0⟩,
   ⟨0x800020, 16, 0x100, 1, 0x100000000, 0x0, 0x0, 0x0, 0x0, 0x0⟩,
   ⟨0x800024, 16, 0x100, 1, 0x100000000, 0x0, 0x0, 0x0, 0x0, 0x0⟩,
   ⟨0x810000, 1, 0x100000000, 1, 0x100000000, 0xFF0F03, 0x0, 0x0, 0x0, 0x400201⟩,
   ⟨0x810004, 1, 0x100000000, 1, 0x100000000, 0xFFF0FFF, 0x0, 0x0, 0x0, 0x9600190⟩,
   ⟨0x810008, 1, 0x100000000, 1, 0x100000000, 0xFFFFF, 0x0, 0x0, 0x0, 0x1388⟩,
   ⟨0x81000C, 1, 0x100000000, 1, 0x100000000, 0xFFFFFFFF, 0x0, 0x0, 0x0, 0xFFFFFE00⟩,
   ⟨0x810010, 1, 0x100000000, 1, 0x100000000, 0xFFFF, 0x0, 0x0, 0x0, 0x8⟩,
   ⟨0x810014, 1, 0x100000000, 1, 0x100000000, 0xFFFF, 0x0, 0x0, 0x0, 0x33⟩,
   ⟨0x810018, 1, 0x100000000, 1, 0x100000000, 0xFFE00000, 0x0, 0x0, 0x0, 0x0⟩,
   ⟨0x81001C, 1, 0x100000000, 1, 0x100000000, 0x7, 0x0, 0x0, 0x0, 0x0⟩,
   ⟨0x810020, 1, 0x100000000, 1, 0x100000000, 0x0, 0x0, 0x0, 0x0, 0x0⟩]

/-- Register rows of block STG. -/
def rowsStg : List RegRow :=
  [⟨0x900000, 1, 0x100000000, 1, 0x100000000, 0xF77001F, 0x0, 0x0, 0x0, 0x470000C⟩,
   ⟨0x900004, 1, 0x100000000, 1, 0x100000000, 0x0, 0x0, 0x0, 0x0, 0x0⟩,
   ⟨0x900008, 1, 0x100000000, 1, 0x100000000, 0xFF003FFF, 0x0, 0x0, 0x0, 0x140003E8⟩,
   ⟨0x90000C, 1, 0x100000000, 1, 0x100000000, 0xFFFFFFFF, 0x0, 0x0, 0x0, 0x271000⟩,
   ⟨0x900010, 1, 0x100000000, 1, 0x100000000, 0xFFFFFFFF, 0x0, 0x0, 0x0, 0x0⟩,
   ⟨0x900014, 1, 0x100000000, 1, 0x100000000, 0xFF, 0x0, 0x0, 0x0, 0x0⟩,
   ⟨0x900018, 1, 0x100000000, 1, 0x100000000, 0xFFFF, 0x0, 0x0, 0x0, 0x8000⟩,
   ⟨0x90001C, 1, 0x100000000, 1, 0x100000000, 0xFFFFFFFF, 0x0, 0x0, 0x0, 0x0⟩,
   ⟨0x900020, 1, 0x100000000, 1, 0x100000000, 0x1FFFFF, 0x0, 0x0, 0x0, 0x800⟩,
   ⟨0x900024, 1, 0x100000000, 1, 0x100000000, 0x80000FFF, 0x0, 0x0, 0x0, 0x0⟩,
   ⟨0x900028, 2, 0x4, 1, 0x100000000, 0xFFFFFFFD, 0x0, 0x0, 0x0, 0x7D0080⟩,
   ⟨0x900030, 1, 0x100000000, 1, 0x100000000, 0x30F0F, 0x0, 0x0, 0x0, 0x404⟩,
   ⟨0x900034, 2, 0x4, 1, 0x100000000, 0x0, 0x0, 0x0, 0x0, 0x0⟩,
   ⟨0x90003C, 1, 0x100000000, 1, 0x100000000, 0x0, 0x0, 0x0, 0x0, 0x0⟩,
   ⟨0x900040, 1, 0x100000000, 1, 0x100000000, 0x0, 0x0, 0x0, 0x0, 0x0⟩,
   ⟨0x900044, 1, 0x100000000, 1, 0x100000000, 0x0, 0x0, 0x0, 0x0, 0x0⟩,
   ⟨0x900048, 1, 0x100000000, 1, 0x100000000, 0x0, 0x0, 0x0, 0xFFFFFFFF, 0x0⟩,
   ⟨0x90004C, 1, 0x100000000, 1, 0x100000000, 0x0, 0x0, 0x0, 0x0, 0x0⟩]

/-- Register rows of block HBM. -/
def rowsHbm : List RegRow :=
  [⟨0xA00000, 1, 0x100000000, 1, 0x100000000, 0x1F03, 0x0, 0x0, 0x0, 0x1002⟩,
   ⟨0xA00004, 1, 0x100000000, 1, 0x100000000, 0x0, 0x0, 0x0, 0x0, 0x0⟩,
   ⟨0xA00008, 1, 0x100000000, 1, 0x100000000, 0x0, 0x0, 0x0, 0x0, 0xCCC00000⟩,
   ⟨0xA0000C, 1, 0x100000000, 1, 0x100000000, 0x0, 0x0, 0x0, 0x0, 0x4⟩,
   ⟨0xA00014, 1, 0x100000000, 1, 0x100000000, 0xFFFFF, 0x0, 0x0, 0x0, 0xFA0⟩,
   ⟨0xA00018, 1, 0x100000000, 1, 0x100000000, 0xFFFFF, 0x0, 0x0, 0x0, 0x7D0⟩,
   ⟨0xA0001C, 1, 0x100000000, 1, 0x100000000, 0xFFFFF, 0x0, 0x0, 0x0, 0x4E20⟩,
   ⟨0xA00020, 1, 0x100000000, 1, 0x100000000, 0xFFFFF, 0x0, 0x0, 0x0, 0x30D40⟩,
   ⟨0xA00024, 1, 0x100000000, 1, 0x100000000, 0x0, 0x0, 0x0, 0x0, 0x0⟩,
   ⟨0xA00028, 1, 0x100000000, 1, 0x100000000, 0x0, 0x0, 0x0, 0xFFFFFFFF, 0x0⟩,
   ⟨0xA0002C, 1, 0x100000000, 1, 0x100000000, 0x0, 0x0, 0x0, 0xFFFFFFFF, 0x0⟩,
   ⟨0xA00030, 1, 0x100000000, 1, 0x100000000, 0x0, 0x0, 0x0, 0xFFFFFFFF, 0x0⟩]

/-- Register rows of block ARB. -/
def rowsArb : List RegRow :=
  [⟨0xB00000, 20, 0x20, 1, 0x100000000, 0xFF01, 0x0, 0x0, 0x0, 0x1000⟩,
   ⟨0xB00004, 20, 0x20, 1, 0x100000000, 0x0, 0x0, 0x0, 0x0, 0x80000000⟩,
   ⟨0xB00008, 20, 0x20, 1, 0x100000000, 0xF, 0x0, 0x0, 0x0, 0x10001⟩,
   ⟨0xB0000C, 20, 0x20, 1, 0x100000000, 0x0, 0x0, 0x0, 0xFFFFFFFF, 0x0⟩,
   ⟨0xB00010, 20, 0x20, 1, 0x100000000, 0x0, 0x0, 0x0, 0xFFFFFFFF, 0x0⟩,
   ⟨0xB00014, 20, 0x20, 1, 0x100000000, 0x0, 0x0, 0x0, 0x0, 0x0⟩,
   ⟨0xB01000, 1, 0x100000000, 1, 0x100000000, 0x0, 0x0, 0x1, 0x0, 0x0⟩,
   ⟨0xB01004, 1, 0x100000000, 1, 0x100000000, 0x0, 0x0, 0x0, 0x0, 0x0⟩]

/-- Register rows of block ECC. -/
def rowsEcc : List RegRow :=
  [⟨0xC00000, 1, 0x100000000, 1, 0x100000000, 0x1, 0x0, 0x0, 0x0, 0x1⟩,
   ⟨0xC00004, 1, 0x100000000, 1, 0x100000000, 0x0, 0x0, 0x0, 0x0, 0xCE⟩,
   ⟨0xC00008, 1, 0x100000000, 1, 0x100000000, 0x0, 0x0, 0x0, 0xFFFFFFFF, 0x0⟩,
   ⟨0xC0000C, 1, 0x100000000, 1, 0x100000000, 0x0, 0x0, 0x0, 0xFFFFFFFF, 0x0⟩,
   ⟨0xC00010, 1, 0x100000000, 1, 0x100000000, 0x0, 0x0, 0x0, 0xFFFFFFFF, 0x0⟩,
   ⟨0xC00014, 1, 0x100000000, 1, 0x100000000, 0x0, 0x0, 0x0, 0x0, 0x0⟩,
   ⟨0xC00018, 1, 0x100000000, 1, 0x100000000, 0x0, 0x0, 0x0, 0x0, 0x0⟩,
   ⟨0xC0001C, 1, 0x100000000, 1, 0x100000000, 0x0, 0x0, 0x0, 0x0, 0x0⟩,
   ⟨0xC00020, 1, 0x100000000, 1, 0x100000000, 0x0, 0x0, 0x0, 0x0, 0x0⟩,
   ⟨0xC00024, 1, 0x100000000, 1, 0x100000000, 0x0, 0x0, 0x0, 0x0, 0x0⟩,
   ⟨0xC00028, 1, 0x100000000, 1, 0x100000000, 0x0, 0x80000000, 0x0, 0x0, 0x0⟩,
   ⟨0xC00030, 1, 0x100000000, 1, 0x100000000, 0xFFFF0001, 0x0, 0x0, 0x0, 0x1680001⟩,
   ⟨0xC00034, 1, 0x100000000, 1, 0x100000000, 0x0, 0x0, 0x0, 0x0, 0x0⟩,
   ⟨0xC00038, 1, 0x100000000, 1, 0x100000000, 0x0, 0x0, 0x0, 0x0, 0x0⟩,
   ⟨0xC00040, 4, 0x10, 1, 0x100000000, 0xFFFF0000, 0x0, 0x0, 0x0, 0x0⟩,
   ⟨0xC00044, 4, 0x10, 1, 0x100000000, 0x7, 0x0, 0x0, 0x0, 0x0⟩,
   ⟨0xC00048, 4, 0x10, 1, 0x100000000, 0xFFFFF, 0x0, 0x0, 0x0, 0x0⟩]

/-- Register rows of block KRY. -/
def rowsKry : List RegRow :=
  [⟨0xD00000, 4, 0x100, 1, 0x100000000, 0xD, 0x0, 0x2, 0x0, 0x9⟩,
   ⟨0xD00004, 4, 0x100, 1, 0x100000000, 0x0, 0x0, 0x0, 0x0, 0x0⟩,
   ⟨0xD00008, 4, 0x100, 1, 0x100000000, 0x0, 0x0, 0x0, 0x0, 0x0⟩,
   ⟨0xD0000C, 4, 0x100, 1, 0x100000000, 0x0, 0x0, 0x0, 0x0, 0x0⟩,
   ⟨0xD00010, 4, 0x100, 4, 0x4, 0x0, 0x0, 0x0, 0x0, 0x0⟩,
   ⟨0xD00020, 4, 0x100, 4, 0x4, 0x0, 0x0, 0x0, 0x0, 0x0⟩,
   ⟨0xD00030, 4, 0x100, 1, 0x100000000, 0x0, 0x0, 0x0, 0x0, 0x40⟩,
   ⟨0xD00034, 4, 0x100, 1, 0x100000000, 0x0, 0x0, 0x0, 0x0, 0x40⟩,
   ⟨0xD00038, 4, 0x100, 1, 0x100000000, 0x0, 0x0, 0x0, 0x0, 0x100⟩,
   ⟨0xD0003C, 4, 0x100, 1, 0x100000000, 0x0, 0x0, 0x0, 0x0, 0x200⟩,
   ⟨0xD00040, 4, 0x100, 1, 0x100000000, 0x0, 0x0, 0x0, 0x0, 0x0⟩,
   ⟨0xD00044, 4, 0x100, 1, 0x100000000, 0x3A, 0x0, 0x1, 0x0, 0x18⟩,
   ⟨0xD00048, 4, 0x100, 2, 0x4, 0x0, 0x0, 0x0, 0x0, 0x0⟩,
   ⟨0xD00050, 4, 0x100, 1, 0x100000000, 0x0, 0x0, 0x0, 0xFFFFFFFF, 0x0⟩,
   ⟨0xD00054, 4, 0x100, 1, 0x100000000, 0x0, 0x0, 0x0, 0xFFFFFFFF, 0x0⟩,
   ⟨0xD00058, 4, 0x100, 1, 0x100000000, 0x0, 0x0, 0x0, 0xFFFFFFFF, 0x0⟩,
   ⟨0xD0005C, 4, 0x100, 1, 0x100000000, 0x0, 0x0, 0x0, 0xFFFFFFFF, 0x0⟩,
   ⟨0xD01000, 1, 0x100000000, 1, 0x100000000, 0x0, 0x0, 0x0, 0x0, 0x0⟩,
   ⟨0xD01004, 1, 0x100000000, 1, 0x100000000, 0x1FFF, 0x0, 0xC0000000, 0x0, 0x0⟩,
   ⟨0xD01008, 1, 0x100000000, 1, 0x100000000, 0x0, 0x0, 0x0, 0x0, 0x0⟩,
   ⟨0xD0100C, 1, 0x100000000, 1, 0x100000000, 0xFFFFF, 0x0, 0x0, 0x0, 0x71D4F⟩,
   ⟨0xD01010, 1, 0x100000000, 1, 0x100000000, 0xC0000FFF, 0x0, 0x0, 0x0, 0x0⟩,
   ⟨0xD01014, 1, 0x100000000, 1, 0x100000000, 0x0, 0x0, 0x1, 0x0, 0x0⟩,
   ⟨0xD01018, 1, 0x100000000, 1, 0x100000000, 0x0, 0x0, 0x0, 0xFFFFFFFF, 0x0⟩,
   ⟨0xD01100, 64, 0x4, 1, 0x100000000, 0xBFFF0FFF, 0x0, 0x0, 0x0, 0x0⟩,
   ⟨0xD10000, 4096, 0x10, 1, 0x100000000, 0x0, 0x0, 0x0, 0x0, 0x0⟩,
   ⟨0xD10004, 4096, 0x10, 1, 0x100000000, 0x0, 0x0, 0x0, 0x0, 0x0⟩,
   ⟨0xD10008, 4096, 0x10, 1, 0x100000000, 0x0, 0x0, 0x0, 0x0, 0x0⟩]

/-- Register rows of block TIME. -/
def rowsTime : List RegRow :=
  [⟨0xE00000, 1, 0x100000000, 1, 0x100000000, 0x2, 0x0, 0x1, 0x0, 0x2⟩,
   ⟨0xE00004, 1, 0x100000000, 1, 0x100000000, 0x0, 0x0, 0x0, 0x0, 0x0⟩,
   ⟨0xE00008, 1, 0x100000000, 1, 0x100000000, 0x0, 0x0, 0x0, 0x0, 0x0⟩,
   ⟨0xE0000C, 1, 0x100000000, 1, 0x100000000, 0x0, 0x0, 0x0, 0x0, 0x0⟩,
   ⟨0xE00010, 1, 0x100000000, 1, 0x100000000, 0x0, 0x0, 0x0, 0x0, 0x0⟩,
   ⟨0xE00014, 1, 0x100000000, 1, 0x100000000, 0xFFFFFFFF, 0x0, 0x0, 0x0, 0x0⟩,
   ⟨0xE00018, 1, 0x100000000, 1, 0x100000000, 0xFFFFFFFF, 0x0, 0x0, 0x0, 0x0⟩,
   ⟨0xE0001C, 1, 0x100000000, 1, 0x100000000, 0xFFFFFFFF, 0x0, 0x0, 0x0, 0x0⟩,
   ⟨0xE00020, 1, 0x100000000, 1, 0x100000000, 0xFFFFFFFF, 0x0, 0x0, 0x0, 0x0⟩,
   ⟨0xE00024, 1, 0x100000000, 1, 0x100000000, 0xFFFFFFFF, 0x0, 0x0, 0x0, 0x0⟩,
   ⟨0xE00028, 1, 0x100000000, 1, 0x100000000, 0xFFFFFFFF, 0x0, 0x0, 0x0, 0x0⟩,
   ⟨0xE0002C, 1, 0x100000000, 1, 0x100000000, 0xFFFF0F0F, 0x0, 0x0, 0x0, 0xBB80306⟩,
   ⟨0xE00030, 1, 0x100000000, 1, 0x100000000, 0x0, 0x0, 0x0, 0x0, 0x0⟩,
   ⟨0xE00034, 1, 0x100000000, 1, 0x100000000, 0x7, 0x0, 0x0, 0x0, 0x0⟩,
   ⟨0xE00038, 1, 0x100000000, 1, 0x100000000, 0xFFFFFFFF, 0x0, 0x0, 0x0, 0x0⟩,
   ⟨0xE0003C, 1, 0x100000000, 1, 0x100000000, 0x0, 0x0, 0x0, 0x0, 0x0⟩,
   ⟨0xE00040, 1, 0x100000000, 1, 0x100000000, 0x0, 0x0, 0x0, 0x0, 0x0⟩,
   ⟨0xE00044, 1, 0x100000000, 1, 0x100000000, 0x0, 0x0, 0x0, 0x0, 0x0⟩,
   ⟨0xE00048, 1, 0x100000000, 1, 0x100000000, 0x0, 0x0, 0x0, 0x0, 0x0⟩,
   ⟨0xE0004C, 1, 0x100000000, 1, 0x100000000, 0x0, 0x0, 0x0, 0xFFFFFFFF, 0x0⟩,
   ⟨0xE00050, 1, 0x100000000, 1, 0x100000000, 0x0, 0x0, 0x0, 0xFFFFFFFF, 0x0⟩,
   ⟨0xE00100, 8, 0x10, 1, 0x100000000, 0x380007FF, 0x0, 0x80000000, 0x0, 0x0⟩,
   ⟨0xE00104, 8, 0x10, 1, 0x100000000, 0xFFFFFFFF, 0x0, 0x0, 0x0, 0x0⟩,
   ⟨0xE00108, 8, 0x10, 1, 0x100000000, 0xFFFFFFFF, 0x0, 0x0, 0x0, 0x0⟩,
   ⟨0xE00200, 16, 0x10, 1, 0x100000000, 0x0, 0x80000000, 0x0, 0x0, 0x0⟩,
   ⟨0xE00204, 16, 0x10, 1, 0x100000000, 0x0, 0x0, 0x0, 0x0, 0x0⟩,
   ⟨0xE00208, 16, 0x10, 1, 0x100000000, 0x0, 0x0, 0x0, 0x0, 0x0⟩,
   ⟨0xE0020C, 16, 0x10, 1, 0x100000000, 0x0, 0x0, 0x0, 0x0, 0x0⟩]

/-- Register rows of block SAF. -/
def rowsSaf : List RegRow :=
  [⟨0xF00000, 1, 0x100000000, 1, 0x100000000, 0x0, 0x0, 0x0, 0x0, 0x80000000⟩,
   ⟨0xF00004, 1, 0x100000000, 1, 0x100000000, 0x0, 0x0, 0x0, 0x0, 0x1⟩,
   ⟨0xF00008, 1, 0x100000000, 1, 0x100000000, 0x0, 0x0, 0x0, 0x0, 0x0⟩,
   ⟨0xF0000C, 1, 0x100000000, 1, 0x100000000, 0x0, 0x0, 0x0, 0x0, 0x643207⟩,
   ⟨0xF00010, 1, 0x100000000, 1, 0x100000000, 0x0, 0x0, 0x0, 0x0, 0x1388⟩,
   ⟨0xF00014, 1, 0x100000000, 1, 0x100000000, 0x0, 0x0, 0x0, 0x0, 0x11F8⟩,
   ⟨0xF00018, 1, 0x100000000, 1, 0x100000000, 0x0, 0x0, 0x0, 0x0, 0x4100370⟩,
   ⟨0xF0001C, 1, 0x100000000, 1, 0x100000000, 0x0, 0x0, 0x0, 0x0, 0x0⟩,
   ⟨0xF00020, 1, 0x100000000, 1, 0x100000000, 0x0, 0x0, 0x0, 0x0, 0x1⟩,
   ⟨0xF00024, 1, 0x100000000, 1, 0x100000000, 0x0, 0x0, 0x0, 0x0, 0x0⟩,
   ⟨0xF00028, 1, 0x100000000, 1, 0x100000000, 0x0, 0x0, 0x0, 0x0, 0xFFFFFF⟩,
   ⟨0xF00040, 16, 0x4, 1, 0x100000000, 0x0, 0x0, 0x0, 0x0, 0x400000⟩,
   ⟨0xF00080, 1, 0x100000000, 1, 0x100000000, 0x0, 0x0, 0x0, 0x0, 0x0⟩,
   ⟨0xF00084, 1, 0x100000000, 1, 0x100000000, 0x0, 0x0, 0x0, 0x0, 0x0⟩,
   ⟨0xF00088, 1, 0x100000000, 1, 0x100000000, 0x0, 0x0, 0x0, 0x0, 0x0⟩,
   ⟨0xF0008C, 1, 0x100000000, 1, 0x100000000, 0x0, 0x0, 0x0, 0x0, 0x0⟩,
   ⟨0xF00090, 1, 0x100000000, 1, 0x100000000, 0x0, 0x0, 0x0, 0x0, 0x0⟩,
   ⟨0xF00094, 1, 0x100000000, 1, 0x100000000, 0x0, 0x0, 0x0, 0x0, 0x0⟩,
   ⟨0xF00098, 1, 0x100000000, 1, 0x100000000, 0x0, 0x0, 0x0, 0x0, 0x0⟩,
   ⟨0xF80000, 131072, 0x4, 1, 0x100000000, 0x0, 0x0, 0x0, 0x0, 0x0⟩]

/-- Register rows of block MET. -/
def rowsMet : List RegRow :=
  [⟨0x1000000, 1, 0x100000000, 1, 0x100000000, 0x0, 0x0, 0x0, 0x0, 0x10103⟩,
   ⟨0x1000004, 1, 0x100000000, 1, 0x100000000, 0x0, 0x0, 0x0, 0x0, 0x0⟩,
   ⟨0x1000008, 1, 0x100000000, 1, 0x100000000, 0x0, 0x0, 0x0, 0x0, 0x0⟩,
   ⟨0x100000C, 1, 0x100000000, 1, 0x100000000, 0x0, 0x0, 0x0, 0x0, 0x0⟩,
   ⟨0x1000010, 1, 0x100000000, 1, 0x100000000, 0x0, 0x0, 0x0, 0x0, 0x0⟩,
   ⟨0x1000014, 1, 0x100000000, 1, 0x100000000, 0x0, 0x0, 0x0, 0x0, 0x0⟩,
   ⟨0x1000018, 1, 0x100000000, 1, 0x100000000, 0x0, 0x0, 0x0, 0x0, 0x0⟩,
   ⟨0x100001C, 1, 0x100000000, 1, 0x100000000, 0x0, 0x0, 0x0, 0x0, 0x0⟩,
   ⟨0x1000020, 1, 0x100000000, 1, 0x100000000, 0x0, 0x0, 0x0, 0x0, 0x0⟩,
   ⟨0x1000024, 1, 0x100000000, 1, 0x100000000, 0x0, 0x0, 0x0, 0x0, 0x0⟩,
   ⟨0x1000028, 1, 0x100000000, 1, 0x100000000, 0x0, 0x0, 0x0, 0x0, 0x0⟩,
   ⟨0x100002C, 1, 0x100000000, 1, 0x100000000, 0x0, 0x0, 0x0, 0x0, 0x0⟩,
   ⟨0x1000030, 1, 0x100000000, 1, 0x100000000, 0x0, 0x0, 0x0, 0x0, 0x0⟩,
   ⟨0x1000034, 1, 0x100000000, 1, 0x100000000, 0x0, 0x0, 0x0, 0x0, 0x0⟩,
   ⟨0x1000038, 1, 0x100000000, 1, 0x100000000, 0x0, 0x0, 0x0, 0x0, 0x0⟩,
   ⟨0x100003C, 1, 0x100000000, 1, 0x100000000, 0x0, 0x0, 0x0, 0x0, 0x0⟩,
   ⟨0x1000040, 8, 0x4, 1, 0x100000000, 0x0, 0x0, 0x0, 0x0, 0x0⟩,
   ⟨0x1000100, 16, 0x8, 1, 0x100000000, 0x0, 0x0, 0x0, 0x0, 0x0⟩,
   ⟨0x1000104, 16, 0x8, 1, 0x100000000, 0x0, 0x0, 0x0, 0x0, 0x0⟩,
   ⟨0x1000200, 128, 0x4, 1, 0x100000000, 0x0, 0x0, 0x0, 0x0, 0x0⟩]

/-- Register rows of block PNL. -/
def rowsPnl : List RegRow :=
  [⟨0x1100000, 8, 0x4, 1, 0x100000000, 0xFF07, 0x0, 0x0, 0x0, 0x0⟩,
   ⟨0x1100020, 8, 0x4, 1, 0x100000000, 0xF, 0x0, 0x0, 0x0, 0x0⟩,
   ⟨0x1100040, 1, 0x100000000, 1, 0x100000000, 0x0, 0x0, 0x0, 0x0, 0x0⟩,
   ⟨0x1100044, 1, 0x100000000, 1, 0x100000000, 0x0, 0xFF, 0x0, 0x0, 0x0⟩]

/-- Register rows of block GLN. -/
def rowsGln : List RegRow :=
  [⟨0x1200000, 1, 0x100000000, 1, 0x100000000, 0x3F1, 0x0, 0x0, 0x0, 0x0⟩,
   ⟨0x1200004, 1, 0x100000000, 1, 0x100000000, 0xFFFF, 0x0, 0x0, 0x0, 0x0⟩,
   ⟨0x1200008, 1, 0x100000000, 1, 0x100000000, 0xFFFFFFFF, 0x0, 0x0, 0x0, 0x10001⟩,
   ⟨0x120000C, 1, 0x100000000, 1, 0x100000000, 0x0, 0x0, 0x0, 0x0, 0x0⟩,
   ⟨0x1200010, 1, 0x100000000, 1, 0x100000000, 0x0, 0x0, 0x0, 0xFFFFFFFF, 0x0⟩,
   ⟨0x1200014, 1, 0x100000000, 1, 0x100000000, 0x0, 0x0, 0x0, 0x0, 0x0⟩,
   ⟨0x1200018, 1, 0x100000000, 1, 0x100000000, 0x0, 0x0, 0x0, 0x0, 0x0⟩,
   ⟨0x1200020, 1, 0x100000000, 1, 0x100000000, 0x1, 0x0, 0x6, 0x0, 0x0⟩,
   ⟨0x1200100, 8, 0x10, 1, 0x100000000, 0xFF1F, 0x0, 0x0, 0x0, 0x0⟩,
   ⟨0x1200104, 8, 0x10, 1, 0x100000000, 0x0, 0x0, 0x0, 0x0, 0x0⟩,
   ⟨0x1200108, 8, 0x10, 1, 0x100000000, 0x0, 0x0, 0x0, 0x0, 0x0⟩]

/-- Register rows of block LDG. -/
def rowsLdg : List RegRow :=
  [⟨0x1300000, 1, 0x100000000, 1, 0x100000000, 0x0, 0x0, 0x0, 0x0, 0x0⟩,
   ⟨0x1300100, 4, 0x40, 1, 0x100000000, 0x0, 0x0, 0x0, 0x0, 0x0⟩,
   ⟨0x1300104, 4, 0x40, 1, 0x100000000, 0x0, 0x0, 0x0, 0x0, 0x0⟩,
   ⟨0x1300108, 4, 0x40, 6, 0x8, 0x0, 0x0, 0x0, 0x0, 0x0⟩,
   ⟨0x130010C, 4, 0x40, 6, 0x8, 0x0, 0x0, 0x0, 0x0, 0x0⟩,
   ⟨0x1300200, 1, 0x100000000, 1, 0x100000000, 0x0, 0x0, 0x0, 0x0, 0x0⟩,
   ⟨0x1300204, 1, 0x100000000, 1, 0x100000000, 0x0, 0x0, 0x0, 0x0, 0x0⟩,
   ⟨0x1300208, 5, 0x8, 1, 0x100000000, 0x0, 0x0, 0x0, 0x0, 0x0⟩,
   ⟨0x130020C, 5, 0x8, 1, 0x100000000, 0x0, 0x0, 0x0, 0x0, 0x0⟩]

/-- The register rows of the 1 MiB block that holds an offset (R643). -/
def regRows (blk : Nat) : List RegRow :=
  match blk with
  | 0 => rowsTop
  | 1 => rowsRing
  | 2 => rowsCpe
  | 3 => rowsThr
  | 4 => rowsTil
  | 5 => rowsHeat
  | 6 => rowsCam
  | 7 => rowsHead
  | 8 => rowsCal
  | 9 => rowsStg
  | 10 => rowsHbm
  | 11 => rowsArb
  | 12 => rowsEcc
  | 13 => rowsKry
  | 14 => rowsTime
  | 15 => rowsSaf
  | 16 => rowsMet
  | 17 => rowsPnl
  | 18 => rowsGln
  | 19 => rowsLdg
  | _ => []

end Sys2Proof.Machine
end

