-- ==== Sys2Proof/Machine/Base.lean ====
section
/-!
DEFINITION. The plain data types shared by every block: stamps, events, descriptors, what the device sends out of
itself, HBM3E words, Krypel frames, the trace port, and the clock.
-/
namespace Sys2Proof.Machine

/-- A stamp (R540): device time in whole ns, its fraction, the tick index and the slot. -/
structure Stamp where
  ns : Nat := 0
  frac : Nat := 0
  tick : Nat := 0
  slot : Nat := 0
  deriving DecidableEq, Repr

/-- One logged event: its code (the top hex digit is the source, R541), 12 detail bytes, and its stamp. -/
structure Event where
  code : Nat
  det : List Byte
  stamp : Stamp
  deriving DecidableEq, Repr

/-- A descriptor fetched from a submit ring (R377): its ring, its count, its 64 bytes and, for a relayed command, the
origin device and the relay number (R383, R518). -/
structure Desc where
  ring : Nat
  count : Nat
  body : List Byte
  origin : Option (Nat × Nat) := none
  deriving DecidableEq, Repr

/-- A descriptor's OPCODE (R377). -/
abbrev Desc.op (x : Desc) : Nat := fieldLE x.body 1 0
/-- A descriptor's TAG (R377). -/
abbrev Desc.tag (x : Desc) : Nat := fieldLE x.body 7 4
/-- A descriptor's RELAY flag (R377). -/
abbrev Desc.relay (x : Desc) : Bool := bit (byteAt x.body 2) 0
/-- A descriptor's TARGET (R377). -/
abbrev Desc.target (x : Desc) : Nat := fieldLE x.body 9 8 % 4096
/-- Argument bytes [hi:lo] of a descriptor (R378). -/
abbrev Desc.arg (x : Desc) (hi lo : Nat) : Nat := fieldLE x.body hi lo

/-- A Krypel frame (R500). -/
structure KFrame where
  vl : Nat
  bcast : Bool := false
  poison : Bool := false
  plen : Nat
  dst : Nat
  src : Nat
  hops : Nat := 0
  ptype : Nat
  arg : Nat := 0
  payload : List Byte
  deriving DecidableEq, Repr

/-- A frame delivered to this device and not yet consumed (R508): its port, when it arrived in device time (ns) and core
cycles, and the stroke tick then in progress. -/
structure KIn where
  port : Nat
  frame : KFrame
  ns : Nat
  sTick : Option Nat := none
  at_ : Nat := 0                   -- arrival, 2^-32 ns
  deriving DecidableEq, Repr

/-- The number of flits of a frame: SOF, payload and EOF (R500). -/
abbrev KFrame.flits (f : KFrame) : Nat := f.plen + 2

/-- What the device sends out: writes to host memory, MSI-X messages, values returned to register reads, fabric flits,
Ethernet frames, trace records, SAF_SPI answers and head-lane frames. -/
inductive Out where
  | entry (ring count addr : Nat) (bytes : List Byte)     -- one 64-byte ring entry, at its host address (R369)
  | hostWrite (addr : Nat) (bytes : List Byte) (poison : Bool)
  | flag (k addr : Nat) (bytes : List Byte)                -- one 16-byte flag entry, at its host address (R390)
  | msix (v addr : Nat) (data : Word)                      -- one MSI-X message of vector v (R403)
  | readValue (addr : Nat) (w : Word)                      -- the value a BAR0 read returns
  | flit (port ftype : Nat) (bytes : List Byte)            -- one control flit of a Krypel port (R488)
  | frame (port fseq : Nat) (f : KFrame) (flits : List (BitVec 128))   -- one frame sent on a Krypel port, as its flits (R500, R501)
  | eth (bytes : List Byte) (ns frac : Nat)                -- one Ethernet frame, with its timestamp point (R535)
  | trace (bytes : List Byte)                              -- one Glean record (R636)
  | spi (bytes : List Byte)                                -- one SAF_SPI answer (R550)
  | headFrame (tile tick : Nat) (lanes : List (List Nat))  -- one frame: HEAD, 1,024 data blocks and TAIL of each lane, bits [63:0] of each block (R284 to R286)
  | strobe (rise fall : Nat)                               -- STROBE of every tile: its rise and its fall, 2^-32 ns (R41)
  | headDly (tile : Nat) (lanes : List Nat)                -- the DLY block of each lane for one strike edge (R288)
  | headTrain (tile block : Nat)                           -- the TRAIN block that the data lanes carry (R304)
  | i2c (dev : Nat) (bytes : List Byte)                    -- one I2C write (R586)
  | hbmData (arb req : Nat) (bytes : List Byte) (poison : Bool)    -- read data delivered to a requester (R449)
  | hint (arb req n : Nat)                                 -- the hint to a requester not granted (R454)
  deriving DecidableEq, Repr

/-- One HBM3E code word: data, check bits, POISON and WRITTEN (R470). -/
structure HWord where
  data : Nat := 0
  chk : Nat := 0
  poison : Bool := false
  written : Bool := false
  deriving DecidableEq, Repr

/-- The requester of an HBM3E request: level-1 arbiter, requester number, service class (R447, R452). -/
structure Rq where
  arb : Nat
  req : Nat
  cls : Nat
  deriving DecidableEq, Repr

/-- The device clock (R525): V and the cc position j within the 5-cc step, the rate adjustment in force, and the core
cycles that have passed since power-on. -/
structure Clock where
  v : Nat := 0
  j : Nat := 0
  rate : Int := 0
  up : Nat := 0
  deriving DecidableEq, Repr

/-- One queued Glean record (R636): everything but SYNC, SEQ, DEVICE_ID, FLAGS and CRC, which are set when it is sent. -/
structure GRec where
  source : Nat
  type : Nat
  code : Nat
  det : List Byte
  stamp : Stamp
  deriving DecidableEq, Repr

/-- The trace port and the performance counters (R633 to R642). -/
structure Gln where
  buf : List GRec := []
  seq : Nat := 0
  sent : Nat := 0
  lostMark : Bool := false
  nextAt : Nat := 0                -- core cycle of the next record boundary
  slots : List (Nat × Nat) := []
  pmc : List Nat := List.replicate 8 0
  sampledAt : Option Nat := none   -- tick index of the last periodic sample
  deriving DecidableEq, Repr

/-- One entry of the MSI-X table (R364). -/
structure MsixEntry where
  addrLo : Word := 0
  addrHi : Word := 0
  data : Word := 0
  ctrl : Word := 1
  deriving DecidableEq, Repr

end Sys2Proof.Machine
end

