-- ==== Sys2Proof/Machine/TypesCal.lean ====
section
/-!
DEFINITION. State of the calibration engine (chapter 10).
-/
namespace Sys2Proof.Machine

/-- A requested run or self-test (R330, R332); `desc` is none for a run of due tiles alone. `done` says that its
descriptor's beginning has been accepted for deferral. -/
structure CalReq where
  desc : Option Desc
  selfTest : Bool
  mask : Nat
  fit : Nat
  apply : Nat
  calib : Bool := false                    -- requested in Configure or Calibrate: it runs in Calibrate only (R330)
  asked : Nat := 0                         -- tiles the descriptor itself names (R334)
  afterClose : Bool := false               -- waits for the turnaround after a layer close (R330)
  deriving DecidableEq, Repr

/-- One calibration strike to make for a tile: in-tile beam, width selection, and whether it is the repetition of a
discarded one (R323, R324). -/
structure Shot where
  beam : Nat
  hi : Bool
  again : Bool := false
  deriving DecidableEq, Repr

/-- What a run has measured of one beam (R325). -/
structure Meas where
  beam : Nat
  lo : Nat := 0
  hi : Nat := 0
  miss : Bool := false
  deriving DecidableEq, Repr

/-- One tile of a run in progress. -/
structure CalTileRun where
  tile : Nat
  todo : List Shot
  redo : List Shot := []
  sentNext : Option Shot := none           -- its test frame has been sent for edge T + 1
  sentNow : Option Shot := none            -- its test frame was sent for edge T, not yet fired
  out : List (Nat × Shot) := []            -- fired, by tick index, their STRIKE records awaited
  meas : List Meas := []
  ceil : List Nat := []                    -- beams failed CEIL
  tS : Option Int := none                  -- temperature in force at the first strike
  tE : Int := 0
  deriving DecidableEq, Repr

/-- The run or self-test in progress. -/
structure CalRun where
  req : CalReq
  turn : Bool                              -- at a turnaround
  mask : Nat                               -- tiles to measure: requested and due
  tiles : List CalTileRun
  first : Option Nat := none               -- tick index of the first calibration strike
  last : Nat := 0
  repeat_ : Nat
  wLo : Nat
  wHi : Nat
  period : Nat                             -- ns
  park : Int                               -- CAL_PARK and CAL_PARK_TOL, lines
  parkTol : Nat
  tol : Nat
  deriving DecidableEq, Repr

/-- Calibration of one tile. -/
structure CalTile where
  bank : Nat := 0                          -- bank in force
  pend : Option Bool := none               -- incoming bank awaits: false the next stroke, true a layer end
  pendReady : Bool := false                -- a layer has closed since (APPLY 2)
  early : Bool := false                    -- the boundary replay uses the incoming bank already (R334)
  ramp : Bool := false
  due : Bool := false
  newTile : Bool := false                  -- identified; LAST_T takes the first latched T (R329)
  deriving DecidableEq, Repr

/-- Calibration engine. -/
structure Cal where
  tiles : List CalTile := List.replicate 16 {}
  basePair : Nat := 0                      -- CAL_BASE as a complete pair (R338)
  base : Nat := 0                          -- base in force
  ctl : Nat := 0x00400201                  -- CAL_CTL in force: written values take effect as a run or self-test starts (R338)
  reqs : List CalReq := []                 -- requested and not begun, oldest first
  run : Option CalRun := none
  edge : Bool := false                     -- the present edge was designated for a calibration strike, not yet made
  turnDone : Bool := false                 -- this turnaround's due run has been made
  closed : Bool := false                   -- the turnaround follows a layer close
  deriving DecidableEq, Repr

end Sys2Proof.Machine
end

