-- ==== Sys2Proof/Machine/TypesHeat.lean ====
section
/-!
DEFINITION. State of the heat memory engine (chapter 07).
-/
namespace Sys2Proof.Machine

/-- One segment of a plane as read (R228, R230): each state with its poison mark, and the segment record. -/
structure HSeg where
  h : List (Nat × Bool)
  tSeg : Nat
  tStrike : Nat
  ltag : Nat
  fresh : Bool
  bad : Bool                               -- the record arrived poisoned
  deriving DecidableEq, Repr

/-- The place of an accepted stroke in the planes (R232, R237). -/
structure HStroke where
  layer : Nat
  stroke : Nat
  sseq : Nat
  x0 : Int
  y0 : Int
  n : Nat
  ofs : Nat
  logged : Bool := false                   -- 0x5E02 logged for it
  deriving DecidableEq, Repr

/-- A strike deposit awaiting edge T + 2 (R239): one line-pass, the energies of its beams as struck and which fired. -/
structure Deposit where
  tick : Nat                               -- tick index of the strike edge T
  tile : Nat
  pass : Nat
  sseq : Nat
  line : Nat
  time : Nat                               -- heat time of the strike instant
  es : List Nat
  fired : List Bool
  deriving DecidableEq, Repr

/-- A binned camera map handed over for assimilation (R245). -/
structure HMap where
  cam : Nat
  frame : Nat
  tf : Nat                                 -- t_f in ns
  layer : Nat
  stroke : Nat
  sseq : Option Nat                        -- the stroke in progress at t_f
  row0 : Int                               -- R_B
  cells : List (Nat × Nat × Nat)           -- row, column, M, in increasing row order
  doneTick : Nat := 0                      -- tick index at which it was complete
  zeroW : Bool                             -- weight forced to 0 (R275)
  degraded : Bool
  long : Bool
  export_ : Bool                           -- to be written to ring 12 (R277)
  counted : Bool                           -- in Configure or Calibrate: counted, not assimilated
  deriving DecidableEq, Repr

/-- A seam message received and not yet applied (R251). -/
structure SeamMsg where
  east : Bool                              -- it came from the eastern neighbour
  layer : Nat
  stroke : Nat
  tick : Nat                               -- stroke tick e
  states : List Nat
  deriving DecidableEq, Repr

/-- Heat memory engine. -/
structure Heat where
  fast : List Nat := List.replicate 32 0xFFFFFFFF
  slow : List Nat := List.replicate 32 0xFFFFFFFF
  rise : Nat := 0
  carry : Nat := 0
  pend : Nat := 0                          -- pending kinds: 1 decay, 2 rise, 4 carry, 8 factor tables
  tol : Nat := 0x100
  wts : List Nat := List.replicate 4 0
  xchgE : Bool := false
  xchgW : Bool := false
  base : Nat := 0
  rows : Nat := 0
  basePair : Nat := 0                      -- HEAT_BASE as a complete pair, taken at the next entry to Expose (R253, R259)
  ftabBase : Nat := 0                      -- HEAT_FTAB as a complete pair (R253)
  ftabLoaded : Bool := false
  ftabBank : Nat := 0
  ftab : List (Option Nat) := []           -- 16,384 entries, none where poisoned
  ftabNext : Option (Nat × List (Option Nat)) := none
  strokes : List HStroke := []
  closes : List (Nat × Nat) := []          -- layer number, t_close
  deps : List Deposit := []
  maps : List HMap := []
  seams : List SeamMsg := []
  strikeAt : List (Nat × Nat × Nat) := []  -- stroke tick e, heat time of its strike, device time of its edge (R251)
  seamGot : List (Bool × Nat) := []        -- side and row for which a valid message arrived in this stroke
  seamMissed : List Bool := [false, false] -- 0x5E03 logged for this stroke: west, east
  sweepAt : Nat := 0                       -- MODEL: segment the age sweep visits next
  acted : Option (Nat × Nat) := none       -- tick edge (core cycle) of the latest change of states, and its place in the order of R256
  poisoned : List (Nat × Nat × Nat) := []  -- poisoned segments found and logged: plane, row, band (R255)
  visits : List (Nat × Nat) := []          -- heat time at which the sweep last visited a segment
  deriving DecidableEq, Repr

end Sys2Proof.Machine
end

