-- ==== Sys2Proof/Machine/TypesCam.lean ====
section
/-!
DEFINITION. State of the camera pipelines (chapter 08).
-/
namespace Sys2Proof.Machine

/-- A parameter set with its tables, as loaded (R269). -/
structure CamSet where
  tag : Nat
  nexp : Nat
  ke : List Nat
  satAt : List Nat
  wt : List Nat
  tofs : Nat
  mincnt : Nat
  bedRef : Nat
  lin : List (List Nat)                    -- four linearisation tables
  rad : List Nat
  grid : List (Int × Int)                  -- 1,089 nodes, (vy, vx), node (i, j) at 33 j + i
  dead : List (Nat × Nat)                  -- (y, x)
  deriving DecidableEq, Repr

/-- One exposure of the open frame. -/
structure CamExpo where
  begun : Bool := false
  ended : Bool := false
  skip : Bool := false                     -- its data is discarded up to its next Frame End (R272)
  lines : List (List Nat) := []            -- raw values, line by line, oldest first
  extra : Nat := 0                         -- lines beyond HEIGHT
  lineOpen : Bool := false                 -- a Line Start without its Line End (R260)
  deriving DecidableEq, Repr

/-- The frame open in a pipeline: its configuration as latched, what was taken at its Frame Start, its exposures. -/
structure CamFrame where
  port : Nat
  num : Nat                                -- frame number F
  vcs : Nat                                -- CAM_c_VC in force
  bits : Nat
  mount : Bool
  width : Nat
  height : Nat
  set : CamSet
  tf : Int                                 -- t_f in ns
  layer : Nat
  stroke : Nat
  sseq : Option Nat
  n : Nat                                  -- lines of the stroke in progress at t_f
  pos16 : Int
  rb : Int                                 -- R_B
  exps : List CamExpo
  emb : Nat := 0                           -- embedded-data lines
  degraded : Bool := false
  long : Bool := false
  lineErr : Bool := false                  -- 0x6A04 logged
  deriving DecidableEq, Repr

/-- What the close of a frame in one core cycle changed, so that a stop in the same cycle takes it back (R276). -/
structure Closing where
  up : Nat                                 -- core cycle of the Frame End
  counts : List (Nat × Nat)                -- counters before it: offset and value
  deriving DecidableEq, Repr

/-- One camera pipeline. -/
structure Camera where
  plugged : Bool := false                  -- debounced plug detect of camera port c
  inCfg : Nat := 0xD0                      -- CAM_c_CFG in force (R279)
  inSize : Nat := 0x02000280               -- CAM_c_SIZE in force
  inVc : Nat := 0x3210                     -- CAM_c_VC in force
  startAt : Option (Nat × Nat) := none     -- latest accepted Frame Start of exposure 0: core cycle and port (R272)
  closing : Option Closing := none         -- the latest close of a frame
  stop : Nat := 0                          -- CAM_c_STAT.STOP
  count : Nat := 0                         -- FCNT
  queue : List (Nat × Nat) := []           -- queued sets: address and tag, oldest first
  staged : Option CamSet := none
  active : Option CamSet := none
  lastTag : Option Nat := none
  rej : Bool := false
  fsAt : Nat := 0                          -- core cycle from which CAM_c_TIMEOUT runs
  frame : Option CamFrame := none
  skips : List (Nat × Nat) := []           -- sources (port, VC) whose data is discarded up to their Frame End
  waiting : List HMap := []                -- closed frames whose map is not complete yet, oldest first
  enAtStroke : Bool := false               -- EN when the stroke began (R275)
  stale : Bool := false                    -- stopped, or resumed and no map assimilated since (R275)
  deriving DecidableEq, Repr

end Sys2Proof.Machine
end

