-- ==== Sys2Proof/Machine/TypesEng.lean ====
section
/-!
DEFINITION. State of the channel program engine and the check units (chapter 13), and of the HBM3E controller, its
arbiters and patrol scrub (chapters 14, 15).
-/
namespace Sys2Proof.Machine

/-- The states of a channel (R408). -/
inductive ChanSt where
  | idle | run | wait | park | stop
  deriving DecidableEq, Repr

/-- STATE codes of CPE_c_STAT (R408). -/
def ChanSt.code : ChanSt → Nat
  | .idle => 0 | .run => 1 | .wait => 2 | .park => 3 | .stop => 4

/-- A WAIT in progress (R420): its fields, the tick index and core cycle at which it began, and how many events the
device had logged. -/
structure Wait where
  kind : Nat
  struck : Bool
  tmo : Nat
  mask : Nat
  value : Nat
  tick : Nat
  since : Nat
  logged : Nat
  seen : Nat := 0                          -- portions in which the fence has been reached
  deriving DecidableEq, Repr

/-- One channel (R408, R409). -/
structure Chan where
  st : ChanSt := .idle
  reason : Nat := 0
  db : Bool := false                       -- DBPEND (R424)
  hbm : Bool := false                      -- SPACE of the program counter
  pc : Nat := 0
  hwin : Nat := 0                          -- CPE_c_HWIN as a complete pair (R437)
  sofs : Int := 0
  dofs : Int := 0
  act : List Bool := List.replicate 4 false
  lcnt : List Nat := List.replicate 4 0
  claim : Option Nat := none
  saved : Option (Nat × Nat × Bool) := none   -- unit, its register and poison mark at the start of the instruction (R428)
  wait : Option Wait := none
  count : Nat := 0                         -- instructions executed
  written : Nat := 0                       -- bytes written
  poison : Bool := false                   -- poisoned data sent to host memory since CHANNEL_START (R417)
  deriving DecidableEq, Repr

/-- One check unit (R429): its claim, register, poison mark, and its configuration as taken at INIT. -/
structure ChkUnit where
  owner : Option Nat := none
  r : Nat := 0
  poison : Bool := false
  width : Nat := 32
  poly : Nat := 0
  xorout : Nat := 0
  expect : Nat := 0
  refin : Bool := false
  refout : Bool := false
  deriving DecidableEq, Repr

/-- Channel program engine. -/
structure Eng where
  chans : List Chan := List.replicate 32 {}
  units : List ChkUnit := List.replicate 8 {}
  fences : List (List (Nat × Bool)) := List.replicate 8 []   -- the 64 most recently reached fences of each portion, newest first: ID, STRUCK (R421)
  deriving DecidableEq, Repr

/-- A request presented and not granted (R448, R454): when it was first presented and last present, in core cycles,
whether it has been promoted, and the hint given to it. -/
structure Pend where
  q : HReq
  since : Nat
  last : Nat
  promoted : Bool := false
  hint : Nat := 0
  deriving DecidableEq, Repr

/-- One level-1 arbiter: the round-robin pointer (the requester last granted), and what the trace port samples (R637). -/
structure Arb where
  last : Nat := 31
  active : Nat := 0
  grants : Nat := 0
  promos : Nat := 0
  cuts : Nat := 0
  deriving DecidableEq, Repr

/-- A pass of patrol scrub (R482, R483): the regions taken at its start, the place of the next granule, what it found,
and when the last granule was read. -/
structure Pass where
  regions : List (Nat × Nat)               -- base, size in bytes
  period : Nat                             -- minutes
  k : Nat := 0
  ofs : Nat := 0
  fixed : Nat := 0
  bad : Nat := 0
  at_ : Nat
  deriving DecidableEq, Repr

/-- HBM3E controller. -/
structure HbmC where
  pend : List Pend := []
  arbs : List Arb := List.replicate 20 {}
  cur : List Int := List.replicate 100 0   -- cur[k][a] at 20 k + a (R458)
  openRow : List (Nat × Nat × Nat) := []   -- open row of bank 32 p + b, and hits in a row (R449)
  checkBuf : List (Nat × Bool) := []       -- data rows in the check-word buffer, most recent first, changed or not (R443)
  postponed : List Nat := List.replicate 32 0
  busyTo : List Nat := List.replicate 32 0 -- core cycle at which the refreshes issued so far end
  remap : Option (Nat × Nat) := none       -- order being changed to, and when it was written
  pass : Option Pass := none
  scrubBase : List Nat := List.replicate 4 0   -- ECC_SCRUB_BASE_k as a complete pair (R483)
  deriving DecidableEq, Repr

end Sys2Proof.Machine
end

