-- ==== Sys2Proof/Machine/TypesHost.lean ====
section
/-!
DEFINITION. State of the tick generator, the operating modes (chapters 01, 02) and the host interface (chapter 12).
-/
namespace Sys2Proof.Machine

/-- The six operating modes (R50). -/
inductive Mode where
  | dormant | configure | calibrate | expose | hold | safe
  deriving DecidableEq, Repr

/-- Mode codes (R50). -/
def Mode.code : Mode → Nat
  | .dormant => 0 | .configure => 1 | .calibrate => 2 | .expose => 3 | .hold => 4 | .safe => 5

/-- The mode of a code (R50). -/
def Mode.ofCode : Nat → Option Mode
  | 0 => some .dormant | 1 => some .configure | 2 => some .calibrate | 3 => some .expose
  | 4 => some .hold | 5 => some .safe | _ => none

/-- Where the main partition is between its reset and its first tick edge (R64 to R66). -/
inductive Phase where
  | held        -- held in reset, or waiting for T1
  | starting    -- between T1 and the first tick edge
  | running     -- from tick index 0 on
  deriving DecidableEq, Repr

/-- A hold cause that arose (R55, R57): its code and whether it has cleared or been released. -/
structure Cause where
  code : Nat
  done : Bool := false
  deriving DecidableEq, Repr

/-- What a registered trigger asks for at a tick edge (R52, R58). -/
inductive Want where
  | hold (cause : Nat)
  | modeSet (m : Mode)          -- the ring-0 command in progress is MODE_SET
  | resume                      -- the ring-0 command in progress is RESUME
  | resumeKey (k : Nat)         -- a RESUME press of panel key k (R624)
  | sessionOpened               -- Dormant to Configure
  | sessionEnded                -- R54
  deriving DecidableEq, Repr

/-- A registered trigger; `late` when it was registered after the commit point of the next edge (R58). -/
structure Trig where
  want : Want
  late : Bool
  deriving DecidableEq, Repr

/-- What the next edge is designated as (R666). -/
inductive Desig where
  | idle
  | strike (s : Nat)     -- the strike edge of stroke tick s
  | calStrike            -- a calibration strike (R322)
  deriving DecidableEq, Repr

/-- Tick generator and modes. -/
structure Top where
  phase : Phase := .held
  sysRst : Bool := false           -- SYS_RST_N level
  railsGood : Bool := false        -- the main power-on reset has released
  straps : Nat := 0                -- the strap balls, laid out as TOP_STRAP
  mode : Mode := .dormant
  prevMode : Nat := 0
  safeSeen : Bool := false         -- SAFE_STATE as last taken into the mode
  holdCause : Nat := 0
  causes : List Cause := []        -- causes that arose during this Hold, or in Safe (R57, R60)
  trigs : List Trig := []
  tick : Nat := 0
  edgeAt : Nat := 0                -- instant of edge T of the current tick (2^-32 ns)
  edgeUp : Nat := 0                -- core cycles since power-on at that edge
  isStrike : Bool := false         -- the current tick is a strike tick
  desig : Desig := .idle           -- designation of edge T + 1
  nextIdle : Nat := 0              -- instant at which the next idle edge falls
  committed : Option Nat := none   -- instant committed for edge T + 1
  overspeed : Bool := false        -- the period committed for edge T + 1 is overspeed (R37)
  stallNext : Bool := false        -- the period committed exceeds 1.0 ms, or NEVER (R37)
  tPrev : Nat := 0                 -- t_prev of R37
  sealOpen : Bool := false         -- the seal window of edge T + 1 has opened
  idlePeriod : Nat := 5000         -- IDLE_PERIOD in force (R46)
  slots : List (Nat × Nat) := []   -- q of each source for the current tick index (R541)
  evWin : List (Nat × Nat) := []   -- aligned window in which each rate-limited event was last logged (R665)
  abortPend : Bool := false        -- a reset of the host interface aborts the stroke at the next edge (R401)
  draws : Nat := 0                 -- MODEL: number of values drawn from Config
  otpKey : List Byte := List.replicate 32 0    -- session key K (R392)
  otpSerial : Nat := 0             -- device serial (R645)
  otpSubVendor : Option Nat := none   -- subsystem vendor ID in OTP, none where not programmed (R13)
  otpSubId : Option Nat := none    -- subsystem ID in OTP (R13)
  deriving DecidableEq, Repr

/-- The part of a ring that no register shows. -/
structure RingSt where
  unsig : Nat := 0                 -- entries written and not yet signalled (R404)
  firstUnsig : Nat := 0            -- core cycle at which the first of them was written
  lostPend : Nat := 0              -- events lost and not yet reported by 0x1006 (ring 2)
  outs : List Nat := []            -- counts of the descriptors fetched and not yet completed, in fetch order
  retOld : List (Nat × Nat) := []  -- announced descriptors still to be retired under counts that EN = 1 has set anew: first count, number
  dataOfs : Nat := 0               -- next offset of the data area (R398)
  items : List (Nat × Nat × Nat) := []   -- data-area items not yet consumed: entry count, first offset, offset past it
  deriving DecidableEq, Repr

/-- The open session (R391 to R395). -/
structure Session where
  rings : Nat
  origin : Option Nat := none      -- the device that opened it by relay
  keepAt : Nat                     -- core cycle of SESSION_AUTH or the latest SESSION_KEEPALIVE
  deriving DecidableEq, Repr

/-- A relayed command that waits for its completion (R383, R518). -/
structure Relay where
  num : Nat
  desc : Desc
  sentAt : Nat
  first : Option (List Byte) := none       -- first entry of a two-entry completion, its second awaited
  deriving DecidableEq, Repr

/-- Host interface. -/
structure HostIf where
  rings : List RingSt := List.replicate 16 {}
  session : Option Session := none
  chal : Option (Nat × Nat) := none        -- outstanding challenge and the core cycle of its completion (R393)
  chalOrigin : Option Nat := none
  fails : Nat := 0                         -- consecutive MAC mismatches (R393)
  lockAt : Option Nat := none              -- core cycle at which session opening locked (R394)
  q0 : List Desc := []                     -- ring-0 commands fetched and not begun (R380)
  begun : Option Desc := none              -- the ring-0 command begun whose effect has not taken place
  resv1 : Nat := 0                         -- entries of ring 1 reserved (R374)
  layerResv : Nat := 0                     -- layers with two entries of ring 1 reserved (R374)
  retireN : List Nat := List.replicate 16 0 -- descriptors announced, not yet fetched, that a squash or a disable retired (R127, R400)
  q14 : List Desc := []                    -- CHANNEL_START descriptors fetched and not begun
  out14 : List Desc := []                  -- CHANNEL_START descriptors whose channel runs (R382)
  relays : List Relay := []
  nextRelay : Nat := 0
  bme : Bool := false
  msixEn : Bool := false                   -- MSI-X Enable of the function's Message Control (R404)
  msixMask : Bool := false                 -- its Function Mask
  d3hot : Bool := false
  perst : Bool := false                    -- PERST_N level
  msix : List MsixEntry := List.replicate 64 {}
  pba : Nat := 0
  waitOut : List Out := []                 -- host-memory writes that wait for Bus Master Enable (R365), newest first
  telemAt : Option Nat := none             -- tick index of the last telemetry (R397)
  modeBlock : Bool := false                -- RESUME completes with BAD_MODE until MODE_SET(CONFIGURE) (R401)
  deriving DecidableEq, Repr

end Sys2Proof.Machine
end

