-- ==== Sys2Proof/Machine/TypesKry.lean ====
section
/-!
DEFINITION. State of the Krypel fabric (chapter 16), of the time servo and the Ethernet port (chapter 17), and of the
operator panel (chapter 21).
-/
namespace Sys2Proof.Machine

/-- A frame waiting to leave the device: its output port (4 until it is routed), the port whose buffer holds it (none for
a frame of this device), a number shared by the copies of one frame, and its arrival in 2^-32 ns. -/
structure KOut where
  out : Nat
  frame : KFrame
  inp : Option Nat := none
  key : Nat := 0
  at_ : Nat := 0
  deriving DecidableEq, Repr

/-- What KRY_p_STAT.STATE reports (R524). -/
inductive KSt where
  | down | training | up | degraded | retraining | quarantined | disabled
  deriving DecidableEq, Repr

/-- STATE codes of KRY_p_STAT (R524). -/
def KSt.code : KSt → Nat
  | .down => 0 | .training => 1 | .up => 2 | .degraded => 3 | .retraining => 4 | .quarantined => 5 | .disabled => 6

/-- A link in this state carries traffic. -/
def KSt.live : KSt → Bool
  | .up => true | .degraded => true | _ => false

/-- A link in this state carries link-local flits: a quarantined one carries nothing else (R507). -/
def KSt.linked : KSt → Bool
  | .up => true | .degraded => true | .quarantined => true | _ => false

/-- One fabric port. -/
structure KPort where
  st : KSt := .down
  step : Nat := 0                  -- bring-up step (R491), 5 for the HELLO exchange that ends a fast retrain; 0 when none runs
  stepAt : Nat := 0                -- core cycle at which the step began
  fails : Nat := 0                 -- failures of this step, or of fast retrain in a row
  rate : Nat := 0                  -- last rate trained, coded as KRY_p_STAT.SPEED
  speeds : Nat := 0                -- SPEEDS of the far end
  fresh : Bool := true             -- not UP since this device's last reset (R497)
  nbr : Option (Nat × Bool × Bool) := none   -- serial, ROOT and STGM of the last HELLO
  nbrId : Nat := 0
  conf : Option Nat := none        -- neighbour serial recorded at confirmation (R506)
  ctlPend : Bool := false          -- KRY_p_CTL written and not yet in force (R523)
  rtPend : Bool := false           -- RETRAIN written and not yet in force
  enNow : Bool := true             -- EN in force
  fseqTx : Nat := 0                -- FSEQ of the next new frame
  fseqRx : Nat := 65535            -- FSEQ of the last frame accepted in order
  replay : List (Nat × KFrame) := []   -- unacknowledged frames, oldest first
  replays : Nat := 0               -- replays of the oldest of them
  ackAt : Nat := 0                 -- core cycle at which ACK last advanced, or the first unacknowledged frame was sent
  idleAt : Nat := 0                -- core cycle of the last valid IDLE
  starve : List Nat := List.replicate 4 0    -- frames of higher VLs sent while each VL waited (R511)
  pair : Bool := false             -- PAIR of the next IDLE
  dlySeq : Nat := 0
  dlyAt : List (Nat × Nat) := []   -- departure of each DLY request not yet answered: SEQ, 1/16 ns
  dly : List Int := []             -- the last 16 exchanges, twice the delay, newest first
  errs : List Nat := []            -- core cycles of the last 17 CHK or frame CRC errors, newest first (R493)
  maxNow : Nat := 2                -- MAXSPEED in force (R523)
  eye : Option (Nat × Nat) := none -- eye scan in progress: lane, core cycle of its start
  deriving DecidableEq, Repr

/-- Krypel fabric. -/
structure Kry where
  ports : List KPort := List.replicate 4 {}
  route : List Nat := List.replicate 64 0    -- route table in force (R509)
  rootSerial : Nat := 0            -- ROOT_SERIAL of the present generation
  nextKey : Nat := 1
  dormantAt : Nat := 0             -- core cycle of the first tick edge
  dlyLast : Nat := 0               -- core cycle of the last DLY requests (R499)
  reported : Option (Nat × Nat) := none      -- conflict and links of the last MAP_REPORT sent (R505)
  deriving DecidableEq, Repr

/-- An entry of the transmit timestamp queue (R536). -/
structure TxTs where
  seqId : Nat
  msgType : Nat
  late : Bool
  at_ : Nat                        -- 2^-32 ns
  deriving DecidableEq, Repr

/-- A transmit slot (R535): the frame bytes as written, and whether it waits to be sent. -/
structure TxSlot where
  mem : List (Nat × Word) := []    -- words of the slot's frame memory that are not 0, by word index
  busy : Bool := false
  order : Nat := 0
  deriving DecidableEq, Repr

/-- A receive slot (R537): the frame and its arrival, 2^-32 ns. -/
structure RxSlot where
  bytes : List Byte
  at_ : Nat
  deriving DecidableEq, Repr

/-- Time servo and Ethernet port. -/
structure Tim where
  refRate : Int := 0               -- TIME_RATE as written on a reference
  slew : Int := 0                  -- slew left at slewAt, 2^-32 ns
  slewAt : Nat := 0                -- core cycle
  wroteAt : Nat := 0               -- core cycle of the last write of TIME_RATE or TIME_SLEW
  holdover : Bool := false
  disciplined : Bool := false
  stepArm : Option (Int × Bool) := none      -- step for the next edge, ns; true: from the fabric (R527, R531)
  freq : Int := 0
  lastO : Int := 0
  lastSeq : Option Nat := none
  seqs : List Nat := []            -- SEQs taken, newest first, over half of their range (R530)
  wasRef : Bool := true            -- time reference as of the last change of links (R526)
  lastEpoch : Option Nat := none
  good : Nat := 0                  -- consecutive messages within 0.5 ns
  msgAt : Nat := 0                 -- core cycle of the last message
  missed : Nat := 0                -- intervals since then
  locked : Bool := false
  seqOut : Nat := 0                -- SEQ of the next message of the ROOT
  sentAt : Option Nat := none      -- core cycle of the last message sent
  epoch : Nat := 0                 -- EPOCH of this ROOT
  slots : List TxSlot := List.replicate 8 {}
  nextOrder : Nat := 0
  txq : List TxTs := []
  rx : List (Option RxSlot) := List.replicate 16 none
  pdelay : List (List Byte × Nat × Nat) := []   -- Pdelay_Req received: source port, sequenceId, arrival
  deriving DecidableEq, Repr

/-- Operator panel: keys pressed as debounced, and the key and lamp settings in force (R631). -/
structure Pnl where
  keys : Nat := 0
  cfg : List Nat := List.replicate 8 0
  led : List Nat := List.replicate 8 0
  deriving DecidableEq, Repr

end Sys2Proof.Machine
end

