-- ==== Sys2Proof/Machine/TypesMet.lean ====
section
/-!
DEFINITION. State of the metrology partition (chapter 19).
-/
namespace Sys2Proof.Machine

/-- A parameter image in force (R585). -/
structure MetParam where
  ver : Nat := 0
  serials : List Nat := List.replicate 16 0
  k : List Nat := List.replicate 128 0
  railMin : Nat := 0
  railMax : Nat := 0
  crc : Nat := 0
  deriving DecidableEq, Repr

/-- A layer open in the partition (R583), with what its record will hold (R591). -/
structure MetLayer where
  num : Nat
  tag : Nat
  build : Bool                        -- it began while a build was open
  acc : Nat := 0                      -- 2^-8 pJ
  expo : Nat := 0                     -- crystal periods
  lastPer : Option Nat := none
  msgs : Nat := 0
  cnt : List Nat := List.replicate 6 0
  cntTick : Nat := 0
  uncal : Nat := 0
  oor : Nat := 0
  stray : Nat := 0
  causes : Nat := 0
  err : Bool := false
  part : Bool := false
  deriving DecidableEq, Repr

/-- The build in progress, or the last one. -/
structure MetBuild where
  isOpen : Bool := false
  num : Nat := 0
  tag : Nat := 0
  acc : Nat := 0
  expo : Nat := 0
  lastPer : Option Nat := none
  layers : Nat := 0
  interrupted : Nat := 0
  firstSeq : Option Nat := none
  lastSeq : Option Nat := none
  stray : Nat := 0
  uncal : Bool := false
  oor : Bool := false
  err : Bool := false
  part : Bool := false
  endBy : Option Desc := none         -- MET_BUILD_END in progress
  endSeq : Option Nat := none         -- SEQ of the BUILD record it waits for
  deriving DecidableEq, Repr

/-- The external record memory (R593): its pages as written, page 0 first, and how many it has. -/
structure MetNv where
  pages : List (List Byte) := []
  cap : Nat := 65536
  deriving DecidableEq, Repr

/-- What MET_LED shows (R598). -/
inductive Led where
  | off | steady | blink1Hz | blink4Hz
  deriving DecidableEq, Repr

/-- Metrology partition. `grade` is the billing grade that the factory fixes (R4); nothing outside the partition
depends on it (R5), and it changes no strike (R580). It is a region of its own, which takes nothing from the host but
through R579 (R578). -/
structure Met where
  on : Bool := false
  measuring : Bool := true
  grade : Bool := true                -- R3, R589
  romcs : Nat := 0
  noSign : Bool := false              -- no record is signed (R599, ROM or OTP)
  key : List Byte := []               -- private key in OTP; empty before the first power-on (R588)
  pub : List Byte := List.replicate 32 0
  factoryEc : Nat := 0
  factoryCrc : Nat := 0
  ec : Nat := 0
  boot : Nat := 0
  sealOpen : Bool := false
  param : MetParam := {}
  tser : List Nat := List.replicate 16 0      -- captured tile serials (R579)
  layers : List MetLayer := []        -- open layers, oldest first
  lastE : Nat := 0                    -- energy of the last layer, nJ
  build : MetBuild := {}
  nextSeq : Nat := 0                  -- SEQ of the next record
  wrote : Option Nat := none          -- SEQ of the last record in the NV memory
  exported : Option Nat := none       -- SEQ of the last record copied (R595)
  again : Option (Nat × Nat × Desc) := none   -- MET_EXPORT in progress: next SEQ, last SEQ, its descriptor
  nv : MetNv := {}
  nvOk : Bool := true                 -- the memory takes writes
  sram : List (Nat × List Byte) := []       -- records that wait for the NV memory
  errs : Nat := 0                     -- MET_ERR
  nvLow : Bool := false
  noAck : Nat := 0                    -- consecutive unacknowledged display updates
  dispAbsent : Bool := false
  showAt : Option Nat := none         -- core cycle of the last SHOW_MET press
  xtal : Bool := true
  per : Nat := 0                      -- crystal periods counted up to perAt
  perAt : Nat := 0
  devTime : Nat := 0
  lastTick : List (Option Nat) := List.replicate 16 none   -- tick of the last charge message of each tile
  deriving DecidableEq, Repr

end Sys2Proof.Machine
end

