-- ==== Sys2Proof/Machine/TypesSaf.lean ====
section
/-!
DEFINITION. State of the safety partition (chapter 18). Its settings in force are the SAF registers of the register file.
-/
namespace Sys2Proof.Machine

/-- Safety partition. It is a region of the die with resources of its own (R547). That both partitions have their
supplies is the builder's part (R654). -/
structure Saf where
  on : Bool := false
  safe : Bool := true                       -- SAFE_STATE
  cause : Nat := 1                          -- SAF_CAUSE
  inputs : Nat := 0                         -- filtered ESTOP_A, ESTOP_B, DOOR_OK, ATMOS_OK, HEAD_COOL_OK
  diffAt : Nat := 0                         -- core cycle at which ESTOP_A and ESTOP_B began to differ
  bothLow : Bool := false                   -- both have been low together since the discrepancy
  discOk : Bool := true                     -- the discrepancy condition has cleared (R561)
  staged : List (Nat × Word) := []          -- staged settings: offset and word; unlisted: the reset value
  commEn : Bool := false                    -- COMMISSION_EN level
  key : Option (List Byte) := none          -- commissioning key (R559)
  slots : List Nat := []                    -- CRCs recorded by LOCK, oldest first
  cfgCrc : Nat := 0
  lastCnt : Nat := 0
  bootId : Nat := 0
  boots : Nat := 0                          -- MODEL: number of BOOT_ID values drawn
  macFail : Nat := 0
  lockAt : Option Nat := none               -- core cycle at which the lockout began
  crcErr : Nat := 0
  resp : List Byte := []                    -- response that the next transaction shifts out
  hbAt : Nat := 0                           -- core cycle of the last accepted request
  hbSince : Bool := false                   -- a request has been accepted since cause HB was last asserted (R572)
  commitSince : Bool := false               -- a COMMIT has been accepted since cause SELF was last asserted
  spacing : List (Option Nat) := List.replicate 16 none
  plug : Nat := 0                           -- filtered plug inputs, bit t: present
  tmax : List Int := List.replicate 16 0
  tempAt : List Nat := List.replicate 16 0  -- core cycle of the last valid record of each tile
  benAt : List (Option Nat) := List.replicate 16 none   -- core cycle at which HD_t_BEN rose, none while it is low (R565)
  crcAt : Nat := 0                          -- core cycle of the last comparison of R549
  soft : Bool := false
  clkBad : Bool := false
  expTick : Nat := 0                        -- expected stroke tick (R568)
  lastRise : Option Nat := none             -- instant of the last STROBE rise, 2^-32 ns
  cutTick : Nat := 0
  cutOfs : Nat := 0
  edge : Bool := false                      -- SAFE_STATE has been asserted since the last tick edge (R59)
  deriving DecidableEq, Repr

end Sys2Proof.Machine
end

