-- ==== Sys2Proof/Machine/TypesSheaf.lean ====
section
/-!
DEFINITION. State of the Sheaf stream, the layers and strokes it carries (chapter 03), the Threshers (chapter 04)
and the dose ledger (chapter 20).
-/
namespace Sys2Proof.Machine

/-- What a record of a segment contributes to (R85). -/
inductive SegRef where
  | layer (lseq : Nat)                       -- LAYER_BEGIN, CLASS_TABLE, LAYER_END
  | stripe (sseq : Nat)                      -- STRIPE_BEGIN
  | lines (sseq : Nat) (a b : Int)           -- a geometry record, start and end line
  | block (sseq row band : Nat)              -- CHECK
  | fence (sseq id : Nat)                    -- FENCE
  deriving DecidableEq, Repr

/-- One segment delivered to a portion (R84): its descriptor, its 64-bit words, and how far it is parsed. -/
structure Segment where
  desc : Desc
  words : List (BitVec 64)
  pos : Nat := 0
  begun : Bool := false
  refs : List SegRef := []
  squashed : Bool := false                   -- lines to which it contributed were squashed
  deriving DecidableEq, Repr

/-- A geometry record or library body record, fields as R98 to R100 and R111 give them; REF is an AREF of 1 by 1. A
record contributes only to the pixels of its own portion (R83). -/
inductive Geo where
  | rect (cls : Nat) (xlo ylo xhi yhi : Int)
  | trap (cls : Nat) (ylo yhi xlLo xrLo xlHi xrHi : Int)
  | aref (cell orient : Nat) (dx dy : Int) (nx ny : Nat) (px py : Int)
  | raw (line lines pix0 count16 : Nat) (vals : List Nat)
  deriving DecidableEq, Repr

/-- One accepted geometry record of a portion: where it stands, its start and end line (R109). -/
structure GeoRec where
  geo : Geo
  start : Int
  last : Int
  typ : Nat
  index : Nat                                -- descriptor count, low 16 bits
  ofs : Nat                                  -- byte offset within the segment
  deriving DecidableEq, Repr

/-- One FENCE record (R117). -/
structure Fence where
  struck : Bool
  id : Nat
  line : Nat
  past : Bool := false                       -- reached, or squashed
  deriving DecidableEq, Repr

/-- The body of one stripe in one portion. -/
structure Stripe where
  sseq : Nat
  lseq : Nat
  hdr : List (BitVec 64)                     -- the three STRIPE_BEGIN words
  recs : List GeoRec := []
  checks : List (Nat × Nat × Nat) := []      -- row, band within the portion, check word
  fences : List Fence := []
  closed : Bool := false                     -- the next STRIPE_BEGIN or LAYER_END has been parsed
  at_ : Nat × Nat := (0, 0)                  -- descriptor count and offset of STRIPE_BEGIN
  deriving DecidableEq, Repr

/-- What record a portion may take next (R89). -/
inductive Order where
  | first           -- LAYER_BEGIN
  | afterBegin      -- CLASS_TABLE
  | afterClass      -- STRIPE_BEGIN
  | body            -- body records, STRIPE_BEGIN or LAYER_END
  deriving DecidableEq, Repr

/-- One layer as parsed in one portion. -/
structure LayerHdr where
  lseq : Nat
  begin_ : List (BitVec 64)
  cls : List (BitVec 64) := []
  ended : Bool := false
  first : Nat := 0                           -- sequence number of its first stroke
  beginAt : Nat × Nat := (0, 0)              -- descriptor count and offset of LAYER_BEGIN (R124)
  clsAt : Nat × Nat := (0, 0)
  deriving DecidableEq, Repr

/-- The parser of one portion (R82). -/
structure Portion where
  waiting : List Desc := []                  -- layout descriptors fetched whose segment has not been read
  segs : List Segment := []
  ord : Order := .first
  layers : List LayerHdr := []
  stripes : List Stripe := []
  lSeen : Nat := 0                           -- LAYER_BEGIN records parsed
  sSeen : Nat := 0                           -- STRIPE_BEGIN records parsed
  lastStroke : Option Nat := none            -- STROKE of the layer's last STRIPE_BEGIN
  lastStart : Option Int := none             -- start line of the stripe's last geometry record
  expRow : Nat := 0                          -- expected row (R115)
  gotBand : List Nat := []                   -- bands of the expected row whose CHECK has arrived
  stopped : Bool := false                    -- parsing stopped by a malformed record (R124)
  deriving DecidableEq, Repr

/-- A failed block row of a portion (R124, R125): from `row` to the end of stroke `sseq` no block is strikable. -/
structure FailRow where
  portion : Nat
  sseq : Nat
  row : Nat
  header : Bool                              -- its stroke is never accepted: a header record failed or does not come
  raised : Bool := false                     -- hold cause 0x08 has been registered for that stroke (R124)
  deriving DecidableEq, Repr

/-- One accepted layer (R92, R606). A layer is one or more strokes, numbered from 0 in the order submitted (R24). -/
structure Layer where
  lseq : Nat
  num : Nat
  tag : Nat
  duEnergy : Nat
  libBase : Nat
  libLimit : Nat
  scales : List Nat
  slot : Nat
  thresh : Nat := 0                          -- retirement threshold latched for the layer (R168)
  reqWinnow : Bool := false
  densEvt : Bool := true
  lastStroke : Option Nat := none            -- STROKE of the last accepted STRIPE_BEGIN
  ended : Option Nat := none                 -- LAST_STROKE, once LAYER_END has been parsed in all portions
  lines : Nat := 0                           -- lines of its strokes
  aborted : Bool := false
  winnowOff : Nat := 0                       -- strokes struck with WINNOW = 0
  firstOff : Nat := 0xFF
  closedAt : Option Nat := none              -- t_close (R236)
  closeTick : Nat := 0
  closeSlot : Option Stamp := none
  thermDeg : Bool := false
  degLines : Nat := 0
  flagged : Nat := 0
  flagEntries : Nat := 0
  flagProd0 : Option Nat := none
  flagOvf : Bool := false
  complete : Bool := false
  noEntry : Bool := false                    -- a reset of the host interface lost its completion's reservation (R401)
  abandoned : Bool := false                  -- its stroke was aborted after such a reset (R614)
  deriving DecidableEq, Repr

/-- One accepted stroke (R94, R142). -/
structure Stroke where
  sseq : Nat
  lseq : Nat
  layer : Nat
  stroke : Nat
  n : Nat
  x0 : Int
  y0 : Int
  blendE : Bool
  blendW : Bool
  winnow : Bool
  q0 : Nat
  ended : Bool := false                      -- its last stroke tick has passed (R22), or it was aborted
  aborted : Bool := false
  deriving DecidableEq, Repr

/-- The states of a block (R145). -/
inductive BlockSt where
  | expanding | checking | reexpanding | strikable | faulted | malformed
  deriving DecidableEq, Repr

/-- Why a block is rebuilt (R155). -/
inductive Why where
  | mismatch | resume | poisonInput | poisonDose | thrChange
  deriving DecidableEq, Repr

/-- One block of a band (R114, R145). -/
structure Block where
  sseq : Nat
  band : Nat
  row : Nat
  st : BlockSt := .expanding
  crc : Nat := 0                             -- CRC-32C of the values written
  firstCrc : Nat := 0                        -- CRC of the expansion that mismatched (0x3401)
  thr : Nat                                  -- the Thresher that wrote it
  once : Bool := false                       -- it has been STRIKABLE (R146)
  vals : List (List Nat) := []               -- the values written, line by line, as the ledger accounts them (R608)
  cls : List (List Nat) := []                -- cell classes of its rows, west to east (R241)
  badLines : List Nat := []                  -- lines found poisoned and not yet rebuilt (R157)
  susp : Bool := false                       -- rebuild suspended after persistent poison (R157)
  rem : List (Nat × Nat) := []               -- R_L of each poisoned line when the poison was found (R608)
  deriving DecidableEq, Repr

/-- One queued or running rebuild (R156). -/
structure Rebuild where
  sseq : Nat
  band : Nat
  row : Nat
  why : Why
  thr : Option Nat := none                   -- the Thresher that runs it
  pin : Option Nat := none                   -- the Thresher that must run it: the spare at a take-over (R159)
  deriving DecidableEq, Repr

/-- One Thresher. Working sets beyond R120 only cost refetches. -/
structure Thresher where
  busy : Option (Nat × Nat × Nat) := none    -- sseq, band, row being expanded
  retired : Bool := false
  matched : List (Nat × Nat) := []           -- layer, and its mismatches that a rebuild matched (R161)
  lseq : Option Nat := none                  -- layer for which its cell cache is valid (R148)
  cacheBand : Nat := 0
  cache : List (Nat × List (Nat × List (Nat × Bool))) := []   -- set, its lines (number, 16 words with their poison marks), latest first (R147)
  deriving DecidableEq, Repr

/-- LIB_VALIDATE in progress (R108). -/
structure LibCheck where
  desc : Desc
  base : Nat
  lib : Nat
  limit : Nat
  deriving DecidableEq, Repr

/-- Sheaf stream, layers, strokes and Threshers. -/
structure Sheaf where
  portions : List Portion := List.replicate 8 {}
  layers : List Layer := []                  -- accepted layers, oldest first
  strokes : List Stroke := []                -- accepted strokes, oldest first
  fails : List FailRow := []
  nextLayer : Nat := 0                       -- number of the next layer
  nextLseq : Nat := 0                        -- sequence number of the next layer to accept
  abortedStroke : Option (Nat × Nat) := none -- sequence number of the layer that may resume, and its first STROKE (R95)
  nextSseq : Nat := 0                        -- sequence number of the next stroke to accept
  nextQ : Nat := 0                           -- Q of line 0 of the next stroke (R142)
  waitLogged : Bool := false                 -- 0xF302 logged for this wait
  blocks : List Block := []
  rebuilds : List Rebuild := []
  threshers : List Thresher := List.replicate 17 {}
  bandNext : List (Nat × Nat) := List.replicate 16 (0, 0)   -- sseq and row each band expands next
  subst : Option Nat := none                 -- the band the spare serves
  lib : Option LibCheck := none
  libInForce : List (Nat × Nat) := [(0, 0), (0, 0)]   -- LIBx as a complete pair: LO, HI (R129)
  rabPair : Nat := 0                         -- THR_RAB as a complete pair (R167)
  rabBase : Nat := 0                         -- run-ahead buffer base in force (R167)
  deriving DecidableEq, Repr

/-- The state of a ledger slot (R622). -/
inductive SlotSt where
  | unused | opened | completed | abandoned
  deriving DecidableEq, Repr

/-- One ledger slot: layer number, tag and the six counters of R621, in weighted DU (R604). -/
structure Slot where
  st : SlotSt := .unused
  layer : Nat := 0
  tag : Nat := 0
  invalid : Bool := false
  cnt : List Nat := List.replicate 6 0
  deriving DecidableEq, Repr

/-- The dose ledger (R604 to R622); `pend` holds the changes registered in this tick, applied together at the next
edge (R609): slot, counter, amount. -/
structure Ledger where
  slots : List Slot := List.replicate 4 {}
  pend : List (Nat × Nat × Int) := []
  wait : Bool := false
  buildOpen : Bool := false
  buildInt : Nat := 0
  buildLayers : Nat := 0
  build : List Nat := List.replicate 5 0
  deriving DecidableEq, Repr

end Sys2Proof.Machine
end

