-- ==== Sys2Proof/Machine/TypesStrike.lean ====
section
/-!
DEFINITION. State of the strike path: width-code queues, the strike map and the retreat sequence (chapter 05), the
Tillers (chapter 06), the head tiles (chapter 09) and the stage port (chapter 11).
-/
namespace Sys2Proof.Machine

/-- One entry of a width-code queue (R172, R208, R219): the line-pass it belongs to, its prediction, its codes and the
shares they were computed with. -/
structure Entry where
  sseq : Nat
  line : Nat
  tick : Nat                       -- stroke tick at which it strikes
  q : Nat                          -- buffer line number
  tPred : Nat                      -- predicted strike time, ns (R172)
  period : Nat                     -- predicted period, ns
  epoch : Nat
  mask : Nat                       -- enable mask when last computed (R208)
  stale : Bool := false
  poison : Bool := false
  failed : Bool := false           -- headroom failure: no codes written (R205)
  left : Bool := false             -- its block has left STRIKABLE since it was computed (R174)
  codes : List Nat := []           -- 2,048 width codes
  shares : List Nat := []          -- share of each pixel, 2^-15
  es : List Nat := []              -- target energy of each beam, 2^-64 J (R210)
  dose : List Nat := []            -- nominal dose of each pixel as read
  geo : List Bool := []            -- pixel geofenced (R218)
  ptick : Bool := false            -- computed with a provisional strike time (R667)
  rearm : Bool := false            -- stale since the replay that arming ordered (R184 step 6)
  deriving DecidableEq, Repr

/-- One column: its width-code queue and its shadowed parameters (R221). -/
structure Column where
  queue : List Entry := []
  enPend : Option Bool := none     -- EN written, taking effect at the next edge (R208)
  en : Bool := true                -- EN in force
  delay : Nat := 0                 -- DELAY in force
  shDelay : Option Nat := Option.none     -- shadow DELAY that hands over at the next edge
  shDelayIn : Option Nat := Option.none   -- the one written inside the seal window, for the edge after it (R40)
  shShare : Option Nat := Option.none
  shShareIn : Option Nat := Option.none
  wNext : Nat := 4096              -- WEIGHT handed over
  sharePend : Bool := false        -- WEIGHT handed over, waiting for its configuration (R206)
  shRamp : Option (Bool × Nat) := Option.none   -- ACTIVE, N
  shRampIn : Option (Bool × Nat) := Option.none
  rampAct : Bool := false
  rampN : Nat := 0
  rampQ : Option Nat := Option.none   -- Q_r (R225); none until the first new entry after the hand-over (R214)
  rampMax : Nat := 0               -- highest Q computed while the ramp runs, plus 1
  handover : Nat := 0              -- tick index of the last hand-over (R222)
  nextLine : Nat × Nat := (0, 0)   -- sseq and line of the next entry to compute
  winTick : Option Nat := Option.none   -- tick in whose strike-critical window an entry was computed (R173)
  hrFail : Bool := false
  deriving DecidableEq, Repr

/-- A share configuration of a tile: base weights and health entries (R206); a health entry is none where its word is
poisoned in SRAM (R207). -/
structure ShareCfg where
  w : List Nat := List.replicate 8 4096
  health : List (Option Nat) := []       -- 16,384 entries; [] stands for all OK before the first load
  since : Nat × Nat := (0, 0)            -- sseq and line from which lines use it
  deriving DecidableEq, Repr

/-- The state of one line-pass (R181); `lost` is a line-pass resolved when its late window expired (R299). -/
inductive LP where
  | none | sent | struck | part | squashed | lost
  deriving DecidableEq, Repr

/-- One line of one tile in the strike map: the state of its eight passes, the enable mask recorded at each strike
(R203), and the shares struck. The strike map keeps a line and its passes while 7 S_t + 64 lines cover it (R21); a
line-pass is one line struck by one pass of one tile (R170). -/
structure MapLine where
  sseq : Nat
  line : Nat
  q : Nat := 0
  lp : List LP := List.replicate 8 .none
  maskOf : List (Option Nat) := List.replicate 8 Option.none
  deriving DecidableEq, Repr

/-- A PARTIAL line-pass's not-started mask and its pending outcome (R187, R188). -/
structure Partial where
  tile : Nat
  pass : Nat
  sseq : Nat
  line : Nat
  notStarted : List Bool
  unconf : Nat := 0                -- weighted DU of the not-started beams, in DU_unconfirmed
  deriving DecidableEq, Repr

/-- What one pass of a tile fired at a strike edge that awaits its STRIKE record (R298). -/
structure SentPass where
  pass : Nat
  entry : Entry
  fired : List Bool                -- beams that fire: code not 0 and, on a re-strike, those of the mask (R188)
  restrike : Bool := false
  deriving DecidableEq, Repr

/-- A strike of one tile that awaits its STRIKE record. -/
structure Strike where
  tile : Nat
  tick : Nat                       -- tick index X
  at_ : Nat                    -- t_s, 2^-32 ns
  fcrc : Nat
  delays : List Nat
  passes : List SentPass
  cut : Option Nat := Option.none  -- the tile's cut offset, ns (R293)
  held : Bool := false             -- missing or mismatched already registered
  expect : Nat                     -- HEAD_ACK_EXPECT in force, ns
  late : Nat                       -- late window, ns
  cal : Bool := false              -- a calibration strike
  cancel : Bool := false           -- its re-strike is cancelled: all its beams are unconfirmed (R300)
  deriving DecidableEq, Repr

/-- A stroke that came into progress: what a camera frame of a past instant t_f refers to (R264). -/
structure StrokeRun where
  sseq : Nat
  layer : Nat
  stroke : Nat
  n : Nat
  y0 : Int
  since : Nat                               -- device time (ns) of the edge of its stroke tick 0
  upto : Option Nat := none                 -- device time (ns) of the edge at which it ended
  deriving DecidableEq, Repr

/-- Run-ahead control. -/
structure RunAhead where
  epoch : Nat := 0                          -- correction epoch (R172)
  map : List (List MapLine) := List.replicate 16 []   -- strike map of each tile
  parts : List Partial := []
  dueOk : Bool := false                     -- every non-idle column passed its due-point check for edge T + 1
  dueStale : Bool := false                  -- a check for edge T + 1 failed because of a stale entry
  sent : List (List SentPass) := []         -- what the frames sent at edge T hold, by tile
  back : Bool := false                      -- the stage has been found before s_r since step 1, or before a stroke's tick 0
  stepAt : Nat := 0                         -- core cycle of the latest step 1 (R184)
  resume : Option Nat := none               -- s_r
  resumeSseq : Option Nat := none           -- the stroke s_r belongs to; none: the next stroke accepted
  step : Nat := 0                           -- step of R184 reached: 1 retreat asked, 3 RETREAT_REQ fallen, 4 STRIKE_OK, 6 armed
  armed : Bool := false                     -- armed (R184 step 6), in Hold or before a stroke's first strike (R667)
  holdAt : Nat := 0                         -- core cycle at which the Hold took effect
  holdEn : Bool := false                    -- RETREAT_EN as the Hold began with it (R362)
  holdD : Nat := 0                          -- D as the Hold began with it
  prep : Option Nat := none                 -- stroke (sseq) armed before its tick 0 (R667)
  cur : Option Nat := none                  -- sseq of the stroke being struck
  runs : List StrokeRun := []               -- strokes that came into progress within the reach of TOFS, newest first
  sTick : Option Nat := none                -- stroke tick of the current tick
  nextTick : Nat := 0                       -- next stroke tick of the stroke in progress
  cols : List Column := List.replicate 128 {}
  cfgs : List (ShareCfg × ShareCfg) := List.replicate 16 ({}, {})   -- current, previous
  cfgWait : List (Option (Bool × Bool)) := List.replicate 16 Option.none   -- a configuration waits: health, weights
  cfgStruck : List Bool := List.replicate 16 false   -- a strike tick has occurred since the current one took effect
  healthBank : Nat := 0
  healthPair : Nat := 0                     -- TIL_HEALTH as a complete pair (R226)
  healthBase : Nat := 0                     -- base in force (R226)
  healthPend : Nat := 0                     -- TIL_HEALTH_STAT.PENDING
  tileT : List Int := List.replicate 16 0   -- latched T
  tileV : List Nat := List.replicate 16 0
  tileM : List Nat := List.replicate 16 0x4000     -- exponent-table factor for the latched V (R212, R215)
  tvNext : List (Int × Nat × Nat) := List.replicate 16 (0, 0, 0x4000)   -- latched T, V and factor, not yet applied
  tvAt : Nat := 0                           -- tick index from which tvNext applies
  latchedAt : Option Nat := Option.none     -- tick index of the latest latch
  strikes : List Strike := []
  deriving DecidableEq, Repr

/-- The state of a tile link (R313). -/
inductive TileSt where
  | absent | ident | refused | training | up | degraded | fault | leaving
  deriving DecidableEq, Repr

/-- STATE codes of HEAD_t_STAT (R313); the spec states none for a tile that leaves (R306). -/
def TileSt.code : TileSt → Nat
  | .absent => 0 | .ident => 1 | .refused => 2 | .training => 3 | .up => 4 | .degraded => 5 | .fault => 6
  | .leaving => Config.leavingState.toNat

/-- One head tile port. -/
structure Tile where
  st : TileSt := .absent
  speed : Nat := 0
  present : Bool := false           -- debounced plug detect
  identDue : Bool := false          -- identified at the next entry to Configure (R308)
  calDone : Bool := false
  refuse : Nat := 0
  step : Nat := 0                   -- bring-up step (R304), 0 when none runs
  fails : Nat := 0                  -- failures of this step
  stepAt : Nat := 0                 -- core cycle at which this step began
  copyFails : Nat := 0              -- failures of step 2
  copyAt : Nat := 0                 -- core cycle at which step 2 began
  plugLate : Option Bool := none    -- a debounced plug change at the core cycle of a tick edge, judged after it (R310)
  copy : Bool := false              -- the factory calibration set is being copied (step 2)
  rate : Nat := 0                   -- last rate trained
  speeds : Nat := 0
  s : Nat := 0                      -- S_t
  benLat : Nat := 0
  format : Nat := 0
  serial : Nat := 0
  tset : List Int := []
  calCrc : Nat := 0                 -- CAL_CRC of its ID header (R302)
  report : Bool := false            -- a valid report has arrived since the last latch (R212)
  temps : List Int := [0, 0, 0, 0]
  rails : List Nat := [0, 0, 0]
  charges : List Nat := []          -- CHARGE_k of the last STRIKE record with a valid CRC (R301)
  charge : Nat := 0                 -- CHARGE sum since the last telemetry entry (R397)
  eyeBusy : Bool := false
  eyeTmo : Bool := false
  eyeLane : Nat := 0
  eyeDwell : Nat := 0
  eyeAt : Nat := 0
  hasCal : Bool := false            -- a calibration set is loaded (R52)
  deriving DecidableEq, Repr

/-- A stage sample record (R346). -/
structure Sample where
  t : Nat
  y : Int
  seq : Nat
  flags : Nat
  vwin : Nat
  period : Nat
  useDelay : Nat
  srcs : Nat := 0x70
  aux : Int := 0
  missed : Nat := 0                  -- how many of the records missing before this one have been registered (R353)
  deriving DecidableEq, Repr

/-- Stage port. -/
structure Stage where
  recs : List Sample := []           -- received records, newest first
  lost : Bool := false
  lateSeq : Option Nat := none       -- a record arrived after it became usable, not yet registered (R353)
  strikeOk : Bool := false
  retreat : Bool := false
  holdReq : Bool := false            -- filtered level
  holdClr : Bool := false            -- cause 0x05 clears at the next edge
  syncSeen : Bool := false
  syncEarly : Bool := false          -- an edge was accepted for a close whose command is still to come (R360)
  syncLate : Bool := false           -- an edge came in the core cycle of a tick edge still to come (R360)
  closed : Bool := false             -- a layer has closed and no edge has been accepted since
  lastT : Option Nat := none         -- nominal time n × PERIOD of the last sample taken, ns (R343)
  lastY : Int := 0                   -- last valid Y_REF of the master
  qerr : List Bool := [false, false] -- count error of each quadrature axis
  quad : List Int := [0, 0]          -- the signed 40-bit quadrature counters (R342)
  pos : Int := 0                     -- y at the latest tick edge
  stall : Bool := false
  period : Nat := 0                  -- P at the last commit point
  firstLayer : Bool := true          -- no layer has begun striking since entry to Expose
  ctl : Nat := 0x0470000C            -- STG_CTL in force (R362)
  reentry : Nat := 0x800             -- STG_REENTRY in force (R362)
  origin : Nat := 0                  -- STG_ORIGIN as a complete pair, 40 bits (R363)
  deriving DecidableEq, Repr

/-- Head ports. -/
structure Head where
  tiles : List Tile := List.replicate 16 {}
  expect : Nat := 0x2EE0             -- HEAD_ACK_EXPECT in force
  late : Nat := 0x3E8
  fcrc : List (Option Nat) := List.replicate 16 none   -- FCRC of the frame sent at edge T for edge T + 1
  deriving DecidableEq, Repr

end Sys2Proof.Machine
end

