-- ==== Sys2Proof/Machine/Dev.lean ====
section
/-!
DEFINITION. Everything the device holds but the queue of waiting commands, block by block.
-/
namespace Sys2Proof.Machine

/-- The device. `rf` is the register file: BAR0 offset and word, offsets strictly rising, no entry equal to the
register's reset value. `hbm` is the HBM3E: word index (address / 16) and code word, indexes strictly rising, no entry
equal to the never-written word. `outs` is what the device has sent, newest first; `log` the events it has logged,
newest first. Only what the bold labels of R1 bind the device to is here; numbers are read as R7 writes them. -/
structure Dev where
  rf : List (Nat × Word) := []
  latch : List (Nat × Word) := []
  clk : Clock := {}
  top : Top := {}
  host : HostIf := {}
  sheaf : Sheaf := {}
  ldg : Ledger := {}
  ra : RunAhead := {}
  head : Head := {}
  stg : Stage := {}
  heat : Heat := {}
  cal : Cal := {}
  cams : List Camera := List.replicate 4 {}
  saf : Saf := {}
  met : Met := {}
  gln : Gln := {}
  hbm : List (Nat × HWord) := []
  eng : Eng := {}
  hbmc : HbmC := {}
  kry : Kry := {}
  tim : Tim := {}
  pnl : Pnl := {}
  kq : List KOut := []               -- frames waiting to leave, oldest first
  kin : List KIn := []               -- frames delivered to this device and not yet consumed, oldest first
  outs : List Out := []
  log : List Event := []
  deriving DecidableEq, Repr

end Sys2Proof.Machine
end

