-- ==== Sys2Proof/Machine/Ops.lean ====
section
/-!
DEFINITION. The named operations that every block uses: registers, the clock, stamps and events, rings and MSI-X
messages, the CRCs, and the ledger's transfers. The device has no exception entry (it is a block): an error raises an
event, an interrupt message or a hold trigger, and those are here.
-/
namespace Sys2Proof.Machine

/-! ### Registers (R10, R11, R643) -/

/-- Whether an offset is an address of a register row. -/
def RegRow.hits (r : RegRow) (a : Nat) : Bool :=
  let o := a - r.base
  decide (r.base ≤ a) && decide (o / r.s1 < r.n1) && decide (o % r.s1 / r.s2 < r.n2) && o % r.s1 % r.s2 == 0

/-- The register row of an offset, none where the offset is unassigned (R643). -/
def regRow (a : Nat) : Option RegRow := (regRows (a >>> 20)).find? (·.hits a)

/-- The reset value of a register (R647); an unassigned offset reads 0. -/
def resetOf (a : Nat) : Nat :=
  match regRow a with
  | some r => r.reset
  | none => 0

/-- The stored value of a register. -/
def Dev.rd (d : Dev) (a : Nat) : Nat :=
  match getKey a d.rf with
  | some w => w.toNat
  | none => resetOf a

/-- Store a value into the register file, in canonical form. -/
def Dev.wr (d : Dev) (a v : Nat) : Dev :=
  { d with rf := if v % 2 ^ 32 = resetOf a then delKey a d.rf else insKey a (BitVec.ofNat 32 v) d.rf }

/-- A field of a stored register. -/
def Dev.get (d : Dev) (a : Nat) (f : Fld) : Nat := bits (d.rd a) f.hi f.lo

/-- A field of a register as a flag. -/
def Dev.flag (d : Dev) (a : Nat) (f : Fld) : Bool := d.get a f != 0

/-- Store a field of a register. -/
def Dev.set (d : Dev) (a : Nat) (f : Fld) (x : Nat) : Dev := d.wr a (setBits (d.rd a) f.hi f.lo x)

/-- Add to a 32-bit counter that saturates. -/
def Dev.bumpBy (d : Dev) (a n : Nat) : Dev := d.wr a (sat 32 (d.rd a + n))

/-- Add 1 to a 32-bit counter that saturates. -/
def Dev.bump (d : Dev) (a : Nat) : Dev := d.bumpBy a 1

/-- Add 1 to a counter field that saturates. -/
def Dev.bumpF (d : Dev) (a : Nat) (f : Fld) : Dev := d.set a f (sat (f.hi + 1 - f.lo) (d.get a f + 1))

/-- The 64-bit value of a LO and HI pair. -/
def Dev.rd64 (d : Dev) (lo hi : Nat) : Nat := d.rd lo + 2 ^ 32 * d.rd hi

/-- Forget the latched halves of a partition's registers, from one offset to another (R48). -/
def Dev.unlatch (d : Dev) (lo hi : Nat) : Dev :=
  { d with latch := d.latch.filter fun e => decide (e.1 < lo) || decide (hi ≤ e.1) }

/-- This device's ID (R503). -/
def Dev.id (d : Dev) : Nat := bits (d.rd Reg.KRY_ID) 11 0

/-! ### The clock (R525) -/

/-- INC of R525: 2^34 + 4 × RATE. -/
def Clock.inc (c : Clock) : Nat := ((2 ^ 34 : Nat) + 4 * c.rate).toNat

/-- Device time now, in 2^-32 ns: V + ⌊j × INC / 5⌋ (R525). -/
def Clock.now (c : Clock) : Nat := c.v + c.j * c.inc / 5

/-- n core cycles pass. -/
def Clock.cycles (c : Clock) (n : Nat) : Clock :=
  { c with v := c.v + (c.j + n) / 5 * c.inc, j := (c.j + n) % 5, up := c.up + n }

/-- Device time reaches an instant; nothing where it has passed. -/
def Clock.reach (c : Clock) (t : Nat) : Clock :=
  if c.now < t then { c with v := t, j := 0, up := c.up + ((t - c.now) * 5 + c.inc - 1) / c.inc } else c

/-- The rate adjustment changes from this cc on. -/
def Clock.setRate (c : Clock) (r : Int) : Clock := { c with v := c.now, j := 0, rate := r }

/-- Device time now, whole ns. -/
def Dev.ns (d : Dev) : Nat := d.clk.now >>> 32

/-- An amount of whole ns in the clock's unit. -/
def nsT (n : Nat) : Nat := n * 2 ^ 32

/-- Core cycles in a number of ns at 1.25 GHz (R9). -/
def ccOfNs (n : Nat) : Nat := n * 5 / 4

/-! ### Stamps (R540, R541) -/

/-- The rank of an event source (R541). -/
def rankOf : Nat → Nat
  | 0xE => 0 | 0xF => 1 | 0x0 => 2 | 0x9 => 3 | 0x4 => 4 | 0x7 => 5 | 0x3 => 6 | 0x5 => 7
  | 0x6 => 8 | 0x8 => 9 | 0xD => 10 | 0xA => 11 | 0xB => 12 | 0xC => 13 | 0x2 => 14 | _ => 15

/-- The stamp a record of a source takes now: q counts the source's earlier records of this tick index and saturates
at 15 (R541). -/
def Dev.stampOf (d : Dev) (src : Nat) : Stamp :=
  { ns := d.clk.now >>> 32, frac := d.clk.now % 2 ^ 32, tick := d.top.tick,
    slot := 16 * rankOf src + min 15 ((getKey src d.top.slots).getD 0) }

/-- The stamp of a record caused by an effect at the tick edge that began the present tick (R384, R540). -/
def Dev.edgeStamp (d : Dev) (src : Nat) : Stamp :=
  { d.stampOf src with ns := d.top.edgeAt >>> 32, frac := d.top.edgeAt % 2 ^ 32 }

/-- Whether a record stands before another of the same device (R542): by tick index, slot, device time and fraction. -/
def Stamp.before (a b : Stamp) : Bool :=
  decide (a.tick < b.tick ∨ a.tick = b.tick ∧ (a.slot < b.slot ∨ a.slot = b.slot ∧ (a.ns < b.ns ∨ a.ns = b.ns ∧ a.frac < b.frac)))

/-- Whether the head of one device's ordered records goes before that of another, each a device ID and a stamp (R542): by
device time, the lower device ID first where that is equal. -/
def headBefore (a b : Nat × Stamp) : Bool :=
  decide (a.2.ns < b.2.ns ∨ a.2.ns = b.2.ns ∧ (a.2.frac < b.2.frac ∨ a.2.frac = b.2.frac ∧ a.1 < b.1))

/-- Records of several devices in their common order (R542): the device IDs with their own ordered stamps; `n` bounds the
records. -/
def mergeRecords : (n : Nat) → List (Nat × List Stamp) → List (Nat × Stamp)
  | 0, _ => []
  | n + 1, qs =>
    let heads := qs.filterMap fun q => q.2.head?.map fun s => (q.1, s)
    match heads.foldl (fun (m : Option (Nat × Stamp)) x => match m with
      | none => some x
      | some y => if headBefore x y then some x else some y) none with
    | none => []
    | some x => x :: mergeRecords n (qs.map fun q => if q.1 = x.1 then (q.1, q.2.drop 1) else q)

/-- Count one more record of a source in this tick. -/
def Dev.countSlot (d : Dev) (src : Nat) : Dev :=
  { d with top := { d.top with slots := insKey src ((getKey src d.top.slots).getD 0 + 1) d.top.slots } }

/-- The 17 stamp bytes of a ring entry (R384). -/
def Stamp.bytes (s : Stamp) : List Byte := toLE 8 s.ns ++ toLE 8 s.tick ++ toLE 1 s.slot

/-! ### What the device sends out -/

/-- Send something that is no write to host memory. -/
def Dev.send (d : Dev) (o : Out) : Dev := { d with outs := o :: d.outs }

/-- Send a write to host memory; it waits while Bus Master Enable is 0, and in D3hot (R364, R365). Data goes before
the entry that describes it, and the entry before its message (R366); what the host must have written before a
doorbell is the host's (R367). -/
def Dev.dma (d : Dev) (o : Out) : Dev :=
  if d.host.bme && !d.host.d3hot then d.send o else { d with host := { d.host with waitOut := o :: d.host.waitOut } }

/-- Whether a vector is masked: by its entry, by the Function Mask, or with MSI-X not enabled (R404). -/
def Dev.msixMasked (d : Dev) (v : Nat) : Bool :=
  !d.host.msixEn || d.host.msixMask || bit (nth d.host.msix v {}).ctrl.toNat 0

/-- Signal an MSI-X vector (R403, R404): a masked vector sets its pending bit. -/
def Dev.msix (d : Dev) (v : Nat) : Dev :=
  if d.msixMasked v then
    { d with host := { d.host with pba := d.host.pba ||| 2 ^ v } }
  else
    let e := nth d.host.msix v {}
    d.dma (.msix v (e.addrLo.toNat + 2 ^ 32 * e.addrHi.toNat) e.data)

/-- A vector that is pending and no longer masked is signalled (R404). -/
def Dev.msixRelease (d : Dev) (v : Nat) : Dev :=
  if bit d.host.pba v && !d.msixMasked v then
    ({ d with host := { d.host with pba := d.host.pba ^^^ 2 ^ v } }).msix v
  else d

/-! ### CRCs -/

/-- One bit of a reflected CRC. -/
def crcBit (poly c : Nat) : Nat := if c % 2 = 1 then (c / 2) ^^^ poly else c / 2

/-- One byte of a reflected CRC. -/
def crcByte (poly c b : Nat) : Nat :=
  crcBit poly <| crcBit poly <| crcBit poly <| crcBit poly <|
  crcBit poly <| crcBit poly <| crcBit poly <| crcBit poly (c ^^^ b)

/-- A reflected 32-bit CRC with initial value and final XOR of all ones. -/
def crcRefl (poly : Nat) (bs : List Byte) : Nat :=
  (bs.foldl (fun c b => crcByte poly c b.toNat) 0xFFFFFFFF) ^^^ 0xFFFFFFFF

/-- CRC-32 of R287 (polynomial 0x04C1_1DB7, reflected). -/
def crc32 (bs : List Byte) : Nat := crcRefl 0xEDB88320 bs

/-- CRC-32C of R116 (polynomial 0x1EDC_6F41, reflected). -/
def crc32c (bs : List Byte) : Nat := crcRefl 0x82F63B78 bs

/-- 12-bit values packed as a little-endian bit stream, two values to three bytes (R112). -/
def pack12 : List Nat → List Byte
  | [] => []
  | [a] => toLE 2 (a % 4096)
  | a :: b :: r => toLE 3 (a % 4096 + 4096 * (b % 4096)) ++ pack12 r

/-- The 12-bit values of a packed byte stream (R112). -/
def unpack12 : List Byte → List Nat
  | a :: b :: c :: r =>
    let x := a.toNat + 256 * b.toNat + 65536 * c.toNat
    (x % 4096) :: (x / 4096) :: unpack12 r
  | _ => []

/-! ### The performance counters and the trace port (R637 to R639) -/

/-- Add to every performance counter that counts this quantity (R639). -/
def Dev.pmc (d : Dev) (sel : Nat) (arg : Option Nat) (any : Nat) (n : Nat) : Dev :=
  if d.flag Reg.GLN_PMC_CTL Fd.GLN_PMC_CTL_RUN then
    { d with gln := { d.gln with pmc := d.gln.pmc.mapIdx fun k x =>
        let w := d.rd (Reg.GLN_PMC_k_SEL k)
        let a := bits w 15 8
        if (bits w 4 0 == sel && (arg.isNone || arg == some a || decide (any ≤ a))) then (x + n) % 2 ^ 64 else x } }
  else d

/-! ### Time passes -/

/-- The clock takes a later value; the performance counters that count core cycles count those that passed (R639). -/
def Dev.setClk (d : Dev) (c : Clock) : Dev := { (d.pmc 1 none 0 (c.up - d.clk.up)) with clk := c }

/-- n core cycles pass. -/
def Dev.after (d : Dev) (n : Nat) : Dev := d.setClk (d.clk.cycles n)

/-- Device time reaches an instant; nothing where it has passed. -/
def Dev.reach (d : Dev) (t : Nat) : Dev := d.setClk (d.clk.reach t)

/-- The core-cycle count reaches a value; nothing where it has passed. -/
def Dev.reachUp (d : Dev) (u : Nat) : Dev := d.after (u - d.clk.up)

/-- The core cycles that one record takes at the rate in force (R634). -/
def Dev.glnRecord (d : Dev) : Nat := match d.get Reg.GLN_CTL Fd.GLN_CTL_RATE with | 0 => 150 | 1 => 300 | _ => 600

/-- The 48 bytes of a record with sequence number `seq` (R636). -/
def glnBytes (dev seq : Nat) (lost : Bool) (g : GRec) : List Byte :=
  let b := toLE 2 0x5AA5 ++ toLE 1 g.source ++ toLE 1 g.type ++ toLE 2 seq ++ toLE 2 dev ++ g.stamp.bytes ++
    toLE 1 (b2n lost) ++ toLE 2 g.code ++ padTo 12 g.det ++ toLE 4 g.stamp.frac
  b ++ toLE 4 (crc32 b)

/-- Send the oldest queued record (R635, R638). -/
def Dev.glnSend (d : Dev) : Dev :=
  match d.gln.buf with
  | [] => d
  | g :: rest =>
    let n := d.gln.sent + 1
    let d := d.send (.trace (glnBytes d.id d.gln.seq d.gln.lostMark g))
    let d := (d.wr Reg.GLN_SENT_LO n).wr Reg.GLN_SENT_HI (n / 2 ^ 32)
    ({ d with gln := { d.gln with buf := rest, seq := (d.gln.seq + 1) % 65536, sent := n, lostMark := false } }).pmc 17 none 0 1

/-- The records whose boundaries have passed are sent; with nothing queued a boundary sends IDLE (R635). -/
def Dev.glnDrain (d : Dev) : Dev :=
  if !d.flag Reg.GLN_CTL Fd.GLN_CTL_EN ∨ d.clk.up < d.gln.nextAt then d
  else
    let n := (d.clk.up - d.gln.nextAt) / d.glnRecord + 1
    let d := (List.range (min n d.gln.buf.length)).foldl (fun (d : Dev) _ => d.glnSend) d
    { d with gln := { d.gln with nextAt := d.gln.nextAt + n * d.glnRecord } }

/-- Queue a trace record; a full buffer drops and counts it (R638). -/
def Dev.trace (d : Dev) (g : GRec) : Dev :=
  let d := d.glnDrain
  if !d.flag Reg.GLN_CTL Fd.GLN_CTL_EN then d
  else if d.gln.buf.length < 512 then { d with gln := { d.gln with buf := d.gln.buf ++ [g] } }
  else { d.bump Reg.GLN_LOST with gln := { d.gln with lostMark := true } }

/-- Queue a trace record of a type other than 0x01: its q comes from the trace records' own count (R541). -/
def Dev.traceOwn (d : Dev) (src type code : Nat) (det : List Byte) : Dev :=
  let q := (getKey src d.gln.slots).getD 0
  let st : Stamp := { ns := d.clk.now >>> 32, frac := d.clk.now % 2 ^ 32, tick := d.top.tick, slot := 16 * rankOf src + min 15 q }
  let d := { d with gln := { d.gln with slots := insKey src (q + 1) d.gln.slots } }
  d.trace { source := src, type, code, det := padTo 12 det, stamp := st }

/-! ### Rings (R368 to R376, R404) -/

/-- The number of entries of a ring (R369, R407). -/
def Dev.ringSize (d : Dev) (n : Nat) : Nat := 2 ^ clampN 4 16 (d.get (Reg.RING_n_CTL n) Fd.RING_n_CTL_LOG2SIZE)

/-- Whether a ring is enabled. -/
def Dev.ringEn (d : Dev) (n : Nat) : Bool := d.flag (Reg.RING_n_CTL n) Fd.RING_n_CTL_EN

/-- Entries produced and not consumed (R370). -/
def Dev.ringFill (d : Dev) (n : Nat) : Nat := (d.rd (Reg.RING_n_PROD n) + 2 ^ 32 - d.rd (Reg.RING_n_CONS n)) % 2 ^ 32

/-- Free entries of an enabled device-written ring, less those of ring 1 that are reserved (R374). -/
def Dev.ringFree (d : Dev) (n : Nat) : Nat := if d.ringEn n then d.ringSize n - d.ringFill n else 0

/-- The state of a ring that no register shows. -/
def Dev.ringSt (d : Dev) (n : Nat) : RingSt := nth d.host.rings n {}

/-- Change that state. -/
def Dev.setRing (d : Dev) (n : Nat) (f : RingSt → RingSt) : Dev :=
  { d with host := { d.host with rings := put 16 {} d.host.rings n f } }

/-- PHASE of the entry with count k (R373). -/
def phaseOf (k size : Nat) : Nat := (k / size + 1) % 2

/-- The 64 bytes of an event entry (R396). -/
def eventEntry (dev : Nat) (e : Event) (ph : Nat) : List Byte :=
  padTo 64 (e.stamp.bytes ++ toLE 1 ph ++ toLE 2 e.code ++ toLE 2 dev ++ toLE 2 0 ++ padTo 12 e.det ++ toLE 4 e.stamp.frac)

/-- Whether frames of this device are sent on the fabric for relay (R519). -/
def Dev.relayTo (d : Dev) (en : Fld) : Option Nat :=
  let dest := bits (d.rd Reg.KRY_RELAY) 11 0
  if d.flag Reg.KRY_RELAY en && dest != d.id then some dest else none

/-- Queue a frame of this device for the fabric; the fabric routes it when it is taken (R508). -/
def Dev.kSend (d : Dev) (f : KFrame) : Dev :=
  let x : KOut := { out := 4, frame := f, key := d.kry.nextKey, at_ := d.clk.now }
  { d with kq := d.kq ++ [x], kry := { d.kry with nextKey := d.kry.nextKey + 1 } }

/-- A copy of every entry of ring 2 or 3 goes to the device that takes them (R519). -/
def Dev.relayEntry (d : Dev) (n : Nat) (bs : List Byte) : Dev :=
  let send := fun (en : Fld) (ptype : Nat) => match d.relayTo en with
    | some dest => d.kSend { vl := 3, plen := 4, dst := dest, src := d.id, ptype, payload := padTo 64 bs }
    | none => d
  if n = 2 then send Fd.KRY_RELAY_EVT_EN 0x30 else if n = 3 then send Fd.KRY_RELAY_TELEM_EN 0x31 else d

/-- Whether a host-memory write is an entry of ring n. -/
def Out.isEntryOf (n : Nat) : Out → Bool
  | .entry r _ _ _ => r == n
  | _ => false

/-- An entry of ring n has been written: its vector is signalled when IRQ_CNT entries are unsignalled (R404). -/
def Dev.entryWritten (d : Dev) (n : Nat) : Dev :=
  let st := d.ringSt n
  let d := d.setRing n fun r => { r with unsig := r.unsig + 1, firstUnsig := if r.unsig = 0 then d.clk.up else r.firstUnsig }
  if max 1 (d.get (Reg.RING_n_CTL n) Fd.RING_n_CTL_IRQ_CNT) ≤ st.unsig + 1 then
    (d.setRing n fun r => { r with unsig := 0 }).msix n
  else d

/-- The writes that waited for Bus Master Enable go out, oldest first, and the entries among them count as written
(R365, R404). -/
def Dev.sendWaiting (d : Dev) : Dev :=
  d.host.waitOut.reverse.foldl (fun (d : Dev) o =>
    let d := d.send o
    match o with
    | .entry n _ _ _ => d.entryWritten n
    | _ => d) { d with host := { d.host with waitOut := [] } }

/-- Write one entry on a device-written ring that has space, and signal its vector when IRQ_CNT entries are
unsignalled; an entry that waits for Bus Master Enable counts when it goes out (R365, R404). `mk` builds the 64 bytes
from PHASE. -/
def Dev.putEntry (d : Dev) (n : Nat) (op status : Nat) (mk : Nat → List Byte) : Dev :=
  let k := d.rd (Reg.RING_n_PROD n)
  let addr := d.rd64 (Reg.RING_n_BASE_LO n) (Reg.RING_n_BASE_HI n) + 64 * (k % d.ringSize n)
  let d := (d.dma (.entry n k addr (mk (phaseOf k (d.ringSize n))))).relayEntry n (mk 0)
  let d := d.wr (Reg.RING_n_PROD n) (k + 1)
  let d := if d.flag Reg.GLN_CTL Fd.GLN_CTL_RING_EN then
    d.traceOwn 0x1 0x03 (n + 2 * 16) (toLE 4 k ++ toLE 2 op ++ toLE 1 status) else d
  let d := d.pmc 12 none 0 64
  if d.host.bme && !d.host.d3hot then d.entryWritten n else d

/-- Event 0x1006 goes first when ring 2 has space again (R376). -/
def Dev.flushLost (d : Dev) : Dev :=
  let lost := (d.ringSt 2).lostPend
  if lost != 0 && decide (0 < d.ringFree 2) then
    let st := d.stampOf 0x1
    let e6 : Event := { code := 0x1006, det := padTo 12 (toLE 4 lost), stamp := st }
    let d := (d.countSlot 0x1).setRing 2 fun r => { r with lostPend := 0 }
    { (d.putEntry 2 0 0 (eventEntry d.id e6)) with log := e6 :: d.log }
  else d

/-- Write an event's entry on ring 2, or count it lost (R376). -/
def Dev.putEvent (d : Dev) (e : Event) : Dev :=
  let d := d.flushLost
  if 0 < d.ringFree 2 then
    d.putEntry 2 0 0 (eventEntry d.id e)
  else (d.bump (Reg.RING_n_LOST 2)).setRing 2 fun r => { r with lostPend := sat 32 (r.lostPend + 1) }

/-- Log an event with a given stamp: it enters the log, ring 2, and the trace port when its source is traced (R637). -/
def Dev.eventAt (d : Dev) (st : Stamp) (code : Nat) (det : List Byte) : Dev :=
  let e : Event := { code, det := padTo 12 det, stamp := st }
  let d := { d with log := e :: d.log }
  let d := if bit (d.rd Reg.GLN_SRC_EN) (code / 4096) then
    d.trace { source := code / 4096, type := 0x01, code, det := e.det, stamp := st } else d
  d.putEvent e

/-- Log an event now: its source is the top hex digit of its code (R126, R540). The codes and details are those of the
event tables: R162, R257, R361, R436, R461, R485 and those of the other chapters. -/
def Dev.event (d : Dev) (code : Nat) (det : List Byte) : Dev :=
  let st := d.stampOf (code / 4096)
  (d.countSlot (code / 4096)).eventAt st code det

/-- Log an event that is limited to the first of every aligned window of 1,024 tk in a scope (R665). -/
def Dev.eventLim (d : Dev) (scope code : Nat) (det : List Byte) : Dev :=
  let key := code * 65536 + scope
  let m := d.top.tick / 1024
  if getKey key d.top.evWin = some m then d
  else ({ d with top := { d.top with evWin := insKey key m d.top.evWin } }).event code det

/-- Write an entry on ring 3 or 12, or drop and count it (R376). -/
def Dev.putOrLose (d : Dev) (n : Nat) (mk : Nat → List Byte) : Dev :=
  if 0 < d.ringFree n then d.putEntry n 0 0 mk else d.bump (Reg.RING_n_LOST n)

/-! ### Completions (R384 to R386) -/

/-- The 64 bytes of a ring-1 entry (R384). -/
def cplEntry (st : Stamp) (flags status ring index dev tag op : Nat) (det : List Byte) (ph : Nat) : List Byte :=
  padTo 64 (st.bytes ++ toLE 1 (ph + flags) ++ toLE 1 status ++ toLE 1 ring ++ toLE 2 index ++ toLE 2 dev ++
    toLE 4 tag ++ toLE 2 op ++ toLE 2 0 ++ padTo 32 det)

/-- The second entry of a two-entry completion: bytes 0 to 23 repeated with CONT, then detail bytes 32 to 71 (R384). -/
def cplEntry2 (st : Stamp) (flags status ring index dev : Nat) (det : List Byte) (ph : Nat) : List Byte :=
  padTo 64 (st.bytes ++ toLE 1 (ph + flags + 2) ++ toLE 1 status ++ toLE 1 ring ++ toLE 2 index ++ toLE 2 dev ++
    padTo 40 (det.drop 32))

/-- The number of completion entries of an opcode (R378). -/
def entriesOf (op : Nat) : Nat := if op == 0x0030 || op == 0x0031 then 2 else 1

/-- Write a descriptor's completion with a given stamp on ring 1, in the entries reserved for it; the completion of a
relayed command goes back to its origin (R383, R518). -/
def Dev.completeAt (d : Dev) (st : Stamp) (x : Desc) (status : Nat) (det : List Byte) (flags : Nat := 0) : Dev :=
  match x.origin with
  | some (dev, num) =>
    let send := fun (d : Dev) (bs : List Byte) =>
      d.kSend { vl := 2, plen := 4, dst := dev, src := d.id, ptype := 0x21, arg := num, payload := bs }
    let d := send d (cplEntry st flags status x.ring (x.count % 65536) d.id x.tag x.op det 0)
    if entriesOf x.op = 2 then send d (cplEntry2 st flags status x.ring (x.count % 65536) d.id det 0) else d
  | none =>
    let n := entriesOf x.op
    let d := { d with host := { d.host with resv1 := d.host.resv1 - n } }
    let d := d.setRing x.ring fun r => { r with outs := r.outs.erase x.count }
    let d := d.putEntry 1 x.op status (cplEntry st flags status x.ring (x.count % 65536) d.id x.tag x.op det)
    if n = 2 then d.putEntry 1 x.op status (cplEntry2 st flags status x.ring (x.count % 65536) d.id det) else d

/-- Write a descriptor's completion now (R384): the stamp is that of the tick edge at which its effect took place, the
latest one, and takes the host interface's rank and count (R541). -/
def Dev.complete (d : Dev) (x : Desc) (status : Nat) (det : List Byte) (flags : Nat := 0) : Dev :=
  let st := d.edgeStamp 0x1
  (d.countSlot 0x1).completeAt st x status det flags

/-- The detail of a mode-changing command (R386). -/
def Dev.modeDetail (d : Dev) : List Byte := toLE 1 d.top.mode.code ++ toLE 1 d.top.holdCause

/-- The detail of a descriptor that completes without having been carried out (R386): the mode-changing commands report
the mode and the hold cause; CAL_RUN and SELF_TEST, that no run took place before any layer or stroke and no tile was
measured. R386 states no value for a run that did not begin: DESIGN CHOICE, the ones that say so. -/
def Dev.plainDetail (d : Dev) (x : Desc) : List Byte :=
  match x.op with
  | 0x0003 => d.modeDetail
  | 0x0010 => d.modeDetail
  | 0x0011 => d.modeDetail
  | 0x0030 => noRun
  | 0x0031 => noRun
  | _ => []
where
  /-- No tick, no layer, no stroke, no tile; every tile of the mask skipped. -/
  noRun : List Byte :=
    let mask := x.arg 13 12
    toLE 16 0 ++ toLE 4 0xFFFFFFFF ++ toLE 1 0xFF ++ toLE 1 0 ++ toLE 2 0 ++
      (List.range 16).flatMap fun t => toLE 2 (if bit mask t then 0xFFFF else 0)

/-- Complete a descriptor that is not carried out. -/
def Dev.reject (d : Dev) (x : Desc) (status : Nat) : Dev := d.complete x status (d.plainDetail x)

/-- Status codes (R385). -/
def stOK : Nat := 0x00
def stCHALLENGE : Nat := 0x01
def stSQUASHED : Nat := 0x02
def stRETIRED : Nat := 0x03
def stBAD_MODE : Nat := 0x04
def stNO_SESSION : Nat := 0x05
def stAUTH_FAILED : Nat := 0x06
def stLOCKED : Nat := 0x07
def stBAD_OPCODE : Nat := 0x08
def stBAD_ARG : Nat := 0x09
def stBUSY : Nat := 0x0A
def stLIB_INVALID : Nat := 0x0B
def stPOISONED : Nat := 0x0C
def stBUS_ERROR : Nat := 0x0D
def stRELAY_FAILED : Nat := 0x0E

/-! ### The dose ledger (R604 to R612) -/

/-- Register a change of a counter of an open slot; it is applied at the next edge (R609). -/
def Dev.ldgAdd (d : Dev) (slot cnt : Nat) (amount : Int) : Dev :=
  if amount = 0 then d else { d with ldg := { d.ldg with pend := d.ldg.pend ++ [(slot, cnt, amount)] } }

/-- Counter indexes of R621. -/
def cEXP : Nat := 0
def cSTR : Nat := 1
def cUNC : Nat := 2
def cWIT : Nat := 3
def cCHF : Nat := 4
def cPOI : Nat := 5

/-- The accepted layer of a sequence number. -/
def Dev.layer? (d : Dev) (lseq : Nat) : Option Layer := d.sheaf.layers.find? (·.lseq == lseq)

/-- The accepted stroke of a sequence number. -/
def Dev.stroke? (d : Dev) (sseq : Nat) : Option Stroke := d.sheaf.strokes.find? (·.sseq == sseq)

/-- The layer of a stroke. -/
def Dev.layerOf (d : Dev) (sseq : Nat) : Option Layer := (d.stroke? sseq).bind fun s => d.layer? s.lseq

/-- Register a change for the layer of a stroke (R607). -/
def Dev.ldgStroke (d : Dev) (sseq cnt : Nat) (amount : Int) : Dev :=
  match d.layerOf sseq with
  | some l => d.ldgAdd l.slot cnt amount
  | none => d

/-- Change one accepted layer. -/
def Dev.updLayer (d : Dev) (lseq : Nat) (f : Layer → Layer) : Dev :=
  { d with sheaf := { d.sheaf with layers := d.sheaf.layers.map fun l => if l.lseq = lseq then f l else l } }

/-- Change one accepted stroke. -/
def Dev.updStroke (d : Dev) (sseq : Nat) (f : Stroke → Stroke) : Dev :=
  { d with sheaf := { d.sheaf with strokes := d.sheaf.strokes.map fun s => if s.sseq = sseq then f s else s } }

/-- Change one portion's parser. -/
def Dev.updPortion (d : Dev) (n : Nat) (f : Portion → Portion) : Dev :=
  { d with sheaf := { d.sheaf with portions := put 8 {} d.sheaf.portions n f } }

/-- One portion's parser. -/
def Dev.portion (d : Dev) (n : Nat) : Portion := nth d.sheaf.portions n {}

/-! ### Where the device stands -/

/-- Whether a session is open. -/
def Dev.hasSession (d : Dev) : Bool := d.host.session.isSome

/-- Whether the main partition is past start-up. -/
def Dev.up (d : Dev) : Bool := d.top.phase == .running

/-- Whether the PCI Express link serves requests: PERST_N is high and the power state is D0 (R364, R401). -/
def Dev.linkUp (d : Dev) : Bool := d.up && d.host.perst && !d.host.d3hot

/-- Whether a BAR0 write that needs a session has effect (R643). -/
def Dev.hostOk (d : Dev) : Bool := d.linkUp && d.hasSession

/-- Whether this device is strapped ROOT (R503). -/
def Dev.isRoot (d : Dev) : Bool := bit d.top.straps 0

/-- A time reference is the ROOT, or a device with no fabric port UP or DEGRADED (R526). -/
def Dev.timeRef (d : Dev) : Bool := d.isRoot || !(d.kry.ports.any (·.st.live))

/-- Change the time block. -/
def Dev.setTim (d : Dev) (f : Tim → Tim) : Dev := { d with tim := f d.tim }

/-- The slew left at a core cycle, in 2^-32 ns (R526): ±429,497 per ns of device time works it off. -/
def Tim.slewLeft (t : Tim) (up : Nat) : Int :=
  let used : Int := ((up - t.slewAt) * 4 * 429497 / 5 : Nat)
  if 0 ≤ t.slew then max 0 (t.slew - used) else min 0 (t.slew + used)

/-- RATE on a time reference (R526). -/
def Dev.refRate (d : Dev) : Int :=
  let left := d.tim.slewLeft d.clk.up
  clampI (-2147483) 2147483 d.tim.refRate + (if 0 < left then 429497 else if left < 0 then -429497 else 0)

/-- RATE comes into force. -/
def Dev.setRate (d : Dev) (r : Int) : Dev := { d with clk := d.clk.setRate r }

/-- A device that becomes or ceases to be a time reference as its links change takes the RATE of its new part (R526):
TIME_RATE and the slew, or the servo's. -/
def Dev.timeRole (d : Dev) : Dev :=
  if d.tim.wasRef = d.timeRef then d
  else (d.setTim fun t => { t with wasRef := d.timeRef }).setRate (if d.timeRef then d.refRate else clampI (-2147483) 2147483 d.tim.freq)

/-- LOCKED (R532): a time reference always is. -/
def Dev.timeLocked (d : Dev) : Bool := d.timeRef || d.tim.locked

/-- The modes in which Threshers expand (R133). -/
def Dev.expoOrHold (d : Dev) : Bool := d.top.mode == .expose || d.top.mode == .hold

/-- The next free value: one draw of the opaque generator (MODEL). -/
def Dev.draw (d : Dev) : Nat × Dev := (d.top.draws, { d with top := { d.top with draws := d.top.draws + 1 } })

end Sys2Proof.Machine
end

