-- ==== Sys2Proof/Machine/Motion.lean ====
section
/-!
DEFINITION. The motion arithmetic that predicts strike times: usable stage records, when() and pos_at() (R349 to R351); and
the hold triggers, which take effect by the commit point of the next edge (R58).
-/
namespace Sys2Proof.Machine

/-! ### Motion (R349 to R351) -/

/-- Whether the device may read host memory (R364, R365). -/
def Dev.hostReads (d : Dev) : Bool := d.host.bme && !d.host.d3hot

/-- The next stroke to strike, where no stroke is in progress. -/
def Dev.nextStroke (d : Dev) : Option Stroke := d.sheaf.strokes.find? fun s => !s.ended

/-- The stroke whose origin the line position uses (R349): the one in progress, else the next accepted. -/
def Dev.motionStroke (d : Dev) : Option Stroke :=
  match d.ra.cur.bind d.stroke? with
  | some s => some s
  | none => d.sheaf.strokes.find? fun s => !s.ended

/-- The stroke in progress is over: no stroke is in progress (R22, R264). -/
def Dev.endRun (d : Dev) : Dev :=
  let ns := d.top.edgeAt >>> 32
  let runs := d.ra.runs.map fun (x : StrokeRun) => { x with upto := some (x.upto.getD ns) }
  { d with ra := { d.ra with cur := none, nextTick := 0, runs } }

/-- Y_REF to the pass-0 line position, 2^-16 line (R349). Layers and strokes carry origins of their own (R24, R30). -/
def Dev.linePos (d : Dev) (yref : Int) : Int :=
  let y0 := match d.motionStroke with | some s => s.y0 | none => 0
  yref + 65536 * (toS 32 (d.rd Reg.STG_HEAD_OFS) - asr y0 6)

/-- The pair of records usable at a device time in ns (R350): (t0, y0) and (t1, y1). -/
def Dev.motionPair (d : Dev) (c : Nat) : Option ((Int × Int) × (Int × Int)) :=
  let ok := d.stg.recs.filter fun r => bit r.flags 0 && decide (r.t + 1000 * r.useDelay ≤ c)
  let newest := fun (l : List Sample) => l.foldl (fun (m : Option Sample) r => match m with
    | none => some r | some x => if x.t < r.t then some r else some x) none
  match newest ok with
  | none => none
  | some r1 =>
    let old := ok.filter fun r => let g := (r1.seq + 65536 - r.seq) % 65536; decide (r1.vwin ≤ g) && decide (g < 32768) && decide (r.t < r1.t)
    match newest old with
    | none => none
    | some r0 => some (((r0.t : Int), d.linePos r0.y), ((r1.t : Int), d.linePos r1.y))

/-- when(): the device time in ns at which y reaches a target; none for NEVER (R351). -/
def Dev.whenY (d : Dev) (c : Nat) (target : Int) : Option Int :=
  match d.motionPair c with
  | none => none
  | some ((t0, y0), (t1, y1)) =>
    let dy := y1 - y0
    let dt := t1 - t0
    if dy ≤ 0 then none else some (t1 + Int.fdiv ((target - y1) * dt + asr dy 1) dy)

/-- pos_at(): y at a device time in ns (R351). -/
def Dev.posAt (d : Dev) (c : Nat) (t : Int) : Option Int :=
  match d.motionPair c with
  | none => none
  | some ((t0, y0), (t1, y1)) => some (y1 + Int.fdiv ((t - t1) * (y1 - y0) + asr (t1 - t0) 1) (t1 - t0))

/-- The target of stroke tick s: 2^16 × s + PHASE (R349, R352). -/
def Dev.tickTarget (d : Dev) (s : Nat) : Int := 65536 * (s : Int) + (d.get Reg.STG_PHASE Fd.STG_PHASE_PHASE : Int)

/-- The first instant after the present, in ns, at which a valid record becomes usable (R350). -/
def Dev.nextUsable (d : Dev) : Option Nat :=
  d.stg.recs.foldl (fun (m : Option Nat) r =>
    let u := r.t + 1000 * r.useDelay
    if bit r.flags 0 && decide (d.ns < u) then (match m with | some x => some (min x u) | none => some u) else m) none

/-- The predicted strike time of a stroke tick, in ns. -/
def Dev.predict (d : Dev) (s : Nat) : Option Int := d.whenY d.ns (d.tickTarget s)

/-- Whether the present is the latest tick edge: no core cycle has passed since. -/
def Dev.onEdge (d : Dev) : Bool := d.clk.up == d.top.edgeUp

/-! ### Hold triggers (R55 to R58) -/

/-- The instant of the commit point of the next edge, where that edge's instant is known (R36). -/
def Dev.nextEdge (d : Dev) : Option Nat :=
  match d.top.desig with
  | .strike _ => d.top.committed
  | _ => some d.top.nextIdle

/-- Whether the commit point of edge T + 1 has been reached (R58); a trigger registered in the same cc counts as
registered after it (R360). -/
def Dev.pastCommit (d : Dev) : Bool :=
  match d.top.desig with
  | .strike s => d.top.committed.isSome || decide (d.top.tPrev + nsT 1000000 ≤ d.clk.now + nsT 1024) ||
      (!d.top.overspeed && match d.predict s with
        | some t => decide (t * 2 ^ 32 ≤ ((d.clk.now + nsT 1024 : Nat) : Int))
        | none => false)
  | _ => decide (d.top.nextIdle ≤ d.clk.now + nsT 1024)

/-- Register a trigger (R58): one registered after the commit point takes effect an edge later. -/
def Dev.trigger (d : Dev) (w : Want) : Dev :=
  { d with top := { d.top with trigs := d.top.trigs ++ [⟨w, d.pastCommit⟩] } }

/-- Register a trigger that takes effect at the very next edge, as one registered at that edge's commit point or at
edge T itself (R152, R175, R205). -/
def Dev.triggerNext (d : Dev) (w : Want) : Dev :=
  { d with top := { d.top with trigs := d.top.trigs ++ [⟨w, false⟩] } }

end Sys2Proof.Machine
end

