-- ==== Sys2Proof/Machine/Memory.lean ====
section
/-!
DEFINITION. HBM3E as the blocks see it: the cross-parity code (R466 to R472), the address map (R445), reads and writes
of words and byte ranges with the error accounting of chapter 15.
-/
namespace Sys2Proof.Machine

/-- Row r of a data word: 16 bits (R466). -/
def cpcRow (d r : Nat) : Nat := (d >>> (16 * r)) % 65536

/-- The column parities of a data word, column c at bit c (R467). -/
def cpcCols (d : Nat) : Nat := (List.range 8).foldl (fun x r => x ^^^ cpcRow d r) 0

/-- The parity of the low n bits. -/
def parity (n v : Nat) : Nat := popCount n v % 2

/-- The check bits of a data word: P in [7:0], Q in [23:8] (R467). -/
def cpcEncode (d : Nat) : Nat :=
  let cp := cpcCols d
  let cpb := fun (i : Nat) => (cp >>> (i % 16)) % 2
  let p := fun (r : Nat) => (parity 16 (cpcRow d r) + cpb (2 * r + 10) + cpb (2 * r + 11) + cpb (2 * r + 12) + cpb (2 * r + 13)) % 2
  let q := fun (c : Nat) => (cpb c + p (c / 2)) % 2
  sumN ((List.range 8).map fun r => p r * 2 ^ r) + sumN ((List.range 16).map fun c => q c * 2 ^ (8 + c))

/-- The syndrome of received data and check bits: failing rows in [7:0], failing columns in [23:8] (R467, R468). -/
def cpcSyndrome (d chk : Nat) : Nat :=
  let cp := cpcCols d
  let q := fun (c : Nat) => (chk >>> (8 + c % 16)) % 2
  let p := fun (r : Nat) => (chk >>> (r % 8)) % 2
  let row := fun (r : Nat) => (parity 16 (cpcRow d r) + p r + q (2 * r + 10) + q (2 * r + 11) + q (2 * r + 12) + q (2 * r + 13)) % 2
  let col := fun (c : Nat) => ((cp >>> c) % 2 + q c + p (c / 2)) % 2
  sumN ((List.range 8).map fun r => row r * 2 ^ r) + sumN ((List.range 16).map fun c => col c * 2 ^ (8 + c))

/-- What the decoder makes of a syndrome (R468): clean, the position corrected, or uncorrectable. -/
inductive CpcResult where
  | clean
  | corrected (pos : Nat)
  | uncorrectable
  deriving DecidableEq, Repr

/-- The indexes of the ones among the low n bits. -/
def onesOf (n v : Nat) : List Nat := (List.range n).filter fun i => v.testBit i

/-- The decoder's table (R468). -/
def cpcDecode (syn : Nat) : CpcResult :=
  match onesOf 8 (syn % 256), onesOf 16 (syn / 256) with
  | [], [] => .clean
  | [r], [c] => .corrected (16 * r + c)
  | [r], [c1, c2] => if c1 == 2 * r && c2 == 2 * r + 1 then .corrected (128 + r) else .uncorrectable
  | [r1, r2], [c] =>
    let a := (c / 2 + 2) % 8
    let b := (c / 2 + 3) % 8
    if (r1 == a && r2 == b) || (r1 == b && r2 == a) then .corrected (136 + c) else .uncorrectable
  | _, _ => .uncorrectable

/-- A code word as a write of clean data stores it (R472). -/
def cleanWord (data : Nat) : HWord :=
  { data := data % 2 ^ 128, chk := cpcEncode (data % 2 ^ 128), poison := false, written := true }

/-- A code word as poisoned data is stored: all 24 check bits inverted (R471). -/
def poisonWord (data : Nat) : HWord :=
  { data := data % 2 ^ 128, chk := cpcEncode (data % 2 ^ 128) ^^^ 0xFFFFFF, poison := true, written := true }

/-- The check word of a data word in HBM3E (R470): P and Q in [23:0], POISON at bit 24, WRITTEN at bit 25. -/
def HWord.checkWord (w : HWord) : Nat := w.chk % 2 ^ 24 + b2n w.poison * 2 ^ 24 + b2n w.written * 2 ^ 25

/-- A stored word on chip (R466, R470): the data, the check bits at positions 128 to 151, POISON at 152, WRITTEN at 153. -/
def HWord.sramWord (w : HWord) : Nat := w.data % 2 ^ 128 + w.checkWord * 2 ^ 128

/-- Where the check word of data word w of data row r of a bank lies (R442): its row and its byte in that row. -/
def checkPlace (r w : Nat) : Nat × Nat := (19660 + r / 4, 256 * (r % 4) + 4 * w)

/-- A code word with the bits at some positions (R466) flipped. -/
def HWord.flip (w : HWord) (pos : List Nat) : HWord :=
  pos.foldl (fun w p =>
    if p < 128 then { w with data := w.data ^^^ 2 ^ p }
    else if p < 152 then { w with chk := w.chk ^^^ 2 ^ (p - 128) } else w) w

/-- The patterns of the checker self-test (R68, R477): the positions in error and the result expected. The two errors of a
row pair a < b are data bits 16 a + b and 16 b + a. -/
def cpcPatterns : List (List Nat × CpcResult) :=
  ([], CpcResult.clean) :: (List.range 152).map (fun p => ([p], CpcResult.corrected p)) ++
    (List.range 8).flatMap fun a => ((List.range 8).filter fun b => decide (a < b)).map fun b =>
      ([16 * a + b, 16 * b + a], CpcResult.uncorrectable)

/-- Whether a word is delivered poisoned: POISON is 1 or the syndrome is uncorrectable (R471); a never-written word is
(R473). -/
def HWord.poisoned (w : HWord) : Bool := !w.written || w.poison || cpcDecode (cpcSyndrome w.data w.chk) == .uncorrectable

/-- The checker self-test of a decoder (R68, R477): each pattern, laid over a clean word, is reported as R68 expects, a
single error is corrected, a pair of rows a and b fails exactly the rows a and b and the columns a and b, and only a
pair is delivered poisoned. -/
def cpcSelfTest : Bool :=
  cpcPatterns.all fun x =>
    let w := (cleanWord 0).flip x.1
    let syn := cpcSyndrome w.data w.chk
    let r := cpcDecode syn
    r == x.2 && (w.poisoned == decide (1 < x.1.length)) && (match r with
      | .corrected p => (w.flip [p]) == cleanWord 0
      | .uncorrectable => syn == (x.1.foldl (fun s p => s ||| 2 ^ (p / 16) ||| 2 ^ (8 + p % 16)) 0)
      | .clean => true)

/-- The first byte address beyond the usable range (R442). -/
def usable : Nat := 0x4CCC00000

/-- Whether a byte range leaves the usable range (R444). -/
def pastEnd (a len : Nat) : Bool := decide (usable < len) || decide (usable - len < a)

/-- Pseudo-channel, granule column, bank and row of a byte address under an order (R445). -/
def hbmMap (a order : Nat) : Nat × Nat × Nat × Nat :=
  let g := a >>> 6
  let u := g >>> 9
  if order = 1 then (g % 32, (g >>> 5) % 16, u / 19660, u % 19660)
  else
    let row := u >>> 5
    let bank := u % 32
    (g % 32, (g >>> 5) % 16, if 2 ≤ order then bank ^^^ (row % 32) ^^^ ((row >>> 5) % 32) else bank, row)

/-- The order in force (R446). -/
def Dev.hbmOrder (d : Dev) : Nat := d.get Reg.HBM_STAT Fd.HBM_STAT_ORDER

/-- An access to a data row: the bank's open row and its row misses (R449, R639), and the check-word buffer of 4,096 rows,
least recently used first out (R443). -/
def Dev.touchRow (d : Dev) (wi : Nat) (write : Bool) : Dev :=
  let (p, _, bank, row) := hbmMap (16 * wi) d.hbmOrder
  let b := 32 * p + bank
  let key := 32768 * b + row
  let d := match getKey b d.hbmc.openRow with
    | some (r, _) => if r = row then d else { (d.pmc 9 (some p) 32 1) with hbmc := { d.hbmc with openRow := insKey b (row, 0) d.hbmc.openRow } }
    | none => { (d.pmc 9 (some p) 32 1) with hbmc := { d.hbmc with openRow := insKey b (row, 0) d.hbmc.openRow } }
  match d.hbmc.checkBuf with
  | (k, c) :: r =>
    if k = key then (if c || !write then d else { d with hbmc := { d.hbmc with checkBuf := (k, true) :: r } })
    else
      let was := (getKey key d.hbmc.checkBuf).getD false
      { d with hbmc := { d.hbmc with checkBuf := ((key, was || write) :: d.hbmc.checkBuf.filter (·.1 != key)).take 4096 } }
  | [] => { d with hbmc := { d.hbmc with checkBuf := [(key, write)] } }

/-- The code word stored at a word index; a word nothing has written is never written (R70, R473). -/
def Dev.hword (d : Dev) (wi : Nat) : HWord := (getKey wi d.hbm).getD {}

/-- Store a code word, in canonical form. -/
def Dev.putWord (d : Dev) (wi : Nat) (w : HWord) : Dev :=
  { d with hbm := if w = {} then delKey wi d.hbm else insKey wi w d.hbm }

/-- Log an integrity event at most once per decoder per 1,024 tk (R478, R480, R665) under a shared limit; `vec` also
signals vector 56. The codes are those of R485; a write-back that a newer write overtakes is dropped (R479), which one
command at a time never shows. -/
def Dev.eccEvent (d : Dev) (kind dec code : Nat) (vec : Bool) (det : List Byte) : Dev :=
  let key := (0xC100 + kind) * 65536 + dec
  let m := d.top.tick / 1024
  if getKey key d.top.evWin = some m then d
  else
    let d := ({ d with top := { d.top with evWin := insKey key m d.top.evWin } }).event code det
    if vec then d.msix 56 else d

/-- Record the first uncorrectable or never-written read while no record is held (R480). -/
def Dev.ueLog (d : Dev) (dec addr syn : Nat) (hbm unwr scrub : Bool) : Dev :=
  if d.flag Reg.ECC_UE_LOG_INFO Fd.ECC_UE_LOG_INFO_VALID then d
  else
    let d := d.wr Reg.ECC_UE_LOG_LO addr
    let d := d.wr Reg.ECC_UE_LOG_HI (dec * 2 ^ 24 + bits addr 34 32)
    d.wr Reg.ECC_UE_LOG_INFO (2 ^ 31 + b2n hbm * 2 ^ 30 + b2n unwr * 2 ^ 29 + b2n scrub * 2 ^ 28 + syn)

/-- Account one corrected word (R478). -/
def Dev.ceNote (d : Dev) (dec addr syn : Nat) (hbm scrub : Bool) : Dev :=
  let d := d.bump Reg.ECC_CE_CNT
  let d := d.wr Reg.ECC_CE_LOG_LO addr
  let d := d.wr Reg.ECC_CE_LOG_HI (dec * 2 ^ 24 + bits addr 34 32)
  let d := d.wr Reg.ECC_CE_LOG_INFO (2 ^ 31 + b2n hbm * 2 ^ 30 + b2n scrub * 2 ^ 28 + syn)
  if d.flag Reg.ECC_CTL Fd.ECC_CTL_CE_EVT then
    d.eccEvent 1 dec 0xC101 false (toLE 1 dec ++ toLE 1 (b2n hbm) ++ toLE 5 addr ++ toLE 3 syn)
  else d

/-- Account one uncorrectable word (R480). -/
def Dev.ueNote (d : Dev) (dec addr syn : Nat) (hbm scrub : Bool) : Dev :=
  ((d.bump Reg.ECC_UE_CNT).ueLog dec addr syn hbm false scrub).eccEvent 2 dec 0xC102 true
    (toLE 1 dec ++ toLE 1 (b2n hbm + 2 * b2n scrub) ++ toLE 5 addr ++ toLE 3 syn)

/-- Account one read of a never-written word (R473, R480). -/
def Dev.unwrNote (d : Dev) (dec addr : Nat) (hbm : Bool) : Dev :=
  ((d.bump Reg.ECC_UNWR_CNT).ueLog dec addr 0 hbm true false).eccEvent 2 dec 0xC103 true
    (toLE 1 dec ++ toLE 1 (b2n hbm) ++ toLE 5 addr)

/-- The decoder that reads an on-chip word (R476); the table names none for the ledger: DESIGN CHOICE, the run-ahead
control's. -/
def SramWord.decoder : SramWord → Nat
  | .queue c => 32 + c
  | .state _ => 205
  | .mask _ => 205
  | .ledger _ => 205
  | .local_ dec => dec

/-- Whether an on-chip word is uncorrectable, and so arrives poisoned (R468, R471). -/
def Upset.bad (u : Upset) : Bool := cpcDecode u.syn == .uncorrectable

/-- Whether a word is among those that arrive poisoned. -/
def poisonedIn (ups : List Upset) (w : SramWord) : Bool := ups.any fun u => u.bad && u.word == w

/-- Account one on-chip word in error (R478, R480). -/
def Dev.upsetNote (d : Dev) (u : Upset) : Dev :=
  match cpcDecode u.syn with
  | .clean => d
  | .corrected _ => d.ceNote u.word.decoder u.addr u.syn false false
  | .uncorrectable => d.ueNote u.word.decoder u.addr u.syn false false

/-- Account the on-chip words found in error in one core cycle, the lower decoder index first (R484). -/
def Dev.upsetNotes (d : Dev) (ups : List Upset) : Dev :=
  (List.range 206).foldl (fun (d : Dev) n => (ups.filter fun u => u.word.decoder == n).foldl (fun (d : Dev) u => d.upsetNote u) d) d

/-- A decoder finds an on-chip word uncorrectable whose place and syndrome the command does not carry: free values. -/
def Dev.sramBad (d : Dev) (dec : Nat) : Dev :=
  let (a, d) := d.draw
  let (y, d) := d.draw
  d.ueNote dec ((Config.free a).toNat % 2 ^ 35) ((Config.free y).toNat % 2 ^ 24) false false

/-- Read one HBM3E word: its data, whether it is delivered poisoned, and the device after the accounting and the
write-back (R468, R471, R473, R478, R480). -/
def Dev.readWord (d : Dev) (wi : Nat) : (Nat × Bool) × Dev :=
  let w := d.hword wi
  let d := d.touchRow wi false
  let addr := 16 * wi
  let dec := (hbmMap addr d.hbmOrder).1
  if !w.written then ((w.data, true), d.unwrNote dec addr true)
  else if w.poison then ((w.data, true), d)
  else
    let syn := cpcSyndrome w.data w.chk
    match cpcDecode syn with
    | .clean => ((w.data, false), d)
    | .corrected p =>
      let data := if p < 128 then w.data ^^^ 2 ^ p else w.data
      ((data, false), (d.ceNote dec addr syn true false).putWord wi (cleanWord data))
    | .uncorrectable => ((w.data, true), (d.ueNote dec addr syn true false).putWord wi (poisonWord w.data))

/-- Store one word: whole, clean or poisoned (R472). -/
def Dev.writeWord (d : Dev) (wi data : Nat) (poison : Bool) : Dev :=
  (d.touchRow wi true).putWord wi (if poison then poisonWord data else cleanWord data)

/-- Account a request out of the usable range (R444). -/
def Dev.oor (d : Dev) (rq : Rq) (addr : Nat) (write : Bool) : Dev :=
  (d.bump Reg.HBM_OOR).event 0xA102 (toLE 1 rq.arb ++ toLE 1 rq.req ++ toLE 5 addr ++ toLE 1 (b2n write))

/-- A byte range whose first byte is out of the usable range: one request out of range for each granule (R444). -/
def Dev.oorAll (d : Dev) (rq : Rq) (write : Bool) (a : Nat) : (n : Nat) → Dev
  | 0 => d
  | n + 1 => (d.oor rq a write).oorAll rq write (64 * (a / 64 + 1)) n

/-- How many bytes of a range lie within the usable range (R442). -/
def inRange (a len : Nat) : Nat := min len (usable - a)

/-- The number of 64-byte granules a byte range touches (R441). -/
def granules (a len : Nat) : Nat := if len = 0 then 0 else (a + len - 1) / 64 - a / 64 + 1

/-- Read the words of a list, least first: their data, whether any came poisoned, the device after. A read that merges
a partial write has the writer's requester (R668). -/
def Dev.readWords (d : Dev) : List Nat → (List Byte × Bool) × Dev
  | [] => (([], false), d)
  | wi :: r =>
    let ((v, p), d1) := d.readWord wi
    let ((bs, q), d2) := d1.readWords r
    ((toLE 16 v ++ bs, p || q), d2)

/-- Account the granules of a byte range that are out of range (R444). -/
def Dev.oorPast (d : Dev) (rq : Rq) (write : Bool) (a len : Nat) : Dev :=
  let n := inRange a len
  d.oorAll rq write (a + n) (granules (a + n) (len - n))

/-- Read a byte range within the usable range: the bytes, whether any of them is poisoned, the device after (R475). -/
def Dev.readRange (d : Dev) (rq : Rq) (a len : Nat) : (List Byte × Bool) × Dev :=
  if len = 0 then (([], false), d)
  else
    let d := d.pmc 7 (some rq.cls) 5 (granules a len)
    let ((bs, p), d) := d.readWords ((List.range ((a + len - 1) / 16 - a / 16 + 1)).map (· + a / 16))
    (((bs.drop (a % 16)).take len, p), d)

/-- Read a byte range for a requester (R444, R475): each granule out of range returns poisoned data. -/
def Dev.hbmRead (d : Dev) (rq : Rq) (a len : Nat) : (List Byte × Bool) × Dev :=
  let n := inRange a len
  let ((bs, p), d) := d.readRange rq a n
  ((padTo len bs, p || decide (n < len)), d.oorPast rq false a len)

/-- Read the words of a list, each with its poison mark. -/
def Dev.readMarks (d : Dev) : List Nat → List (Nat × Bool) × Dev
  | [] => ([], d)
  | wi :: r =>
    let (v, d) := d.readWord wi
    let (x, d) := d.readMarks r
    (v :: x, d)

/-- Read a run of n words for a requester, each with its poison mark; those out of range are poisoned (R444). -/
def Dev.hbmWords (d : Dev) (rq : Rq) (a n : Nat) : List (Nat × Bool) × Dev :=
  let k := inRange a (16 * n) / 16
  let d := if k = 0 then d else d.pmc 7 (some rq.cls) 5 (granules a (16 * k))
  let (ws, d) := d.readMarks ((List.range k).map (· + a / 16))
  (ws ++ List.replicate (n - k) (0, true), d.oorPast rq false a (16 * n))

/-- Write part of one word: read, merge, store; poisoned where the word read was poisoned or never written, or the
new bytes are (R412, R472). -/
def Dev.mergeWord (d : Dev) (wi ofs : Nat) (bs : List Byte) (poison : Bool) : Dev :=
  let ((old, p), d) := d.readWord wi
  let o := toLE 16 old
  d.writeWord wi (ofLE (o.take ofs ++ bs ++ o.drop (ofs + bs.length))) (p || poison)

/-- Write a run of bytes word by word; `n` bounds the number of words. -/
def Dev.writeRun (d : Dev) (a : Nat) (bs : List Byte) (poison : Bool) : Nat → Dev
  | 0 => d
  | n + 1 =>
    match bs with
    | [] => d
    | _ =>
      let ofs := a % 16
      let k := 16 - ofs
      let now := bs.take k
      let d := if ofs == 0 && now.length == 16 then d.writeWord (a / 16) (ofLE now) poison
               else d.mergeWord (a / 16) ofs now poison
      d.writeRun (a + now.length) (bs.drop k) poison n

/-- Write a byte range for a requester; each granule out of range is discarded (R444). -/
def Dev.hbmWrite (d : Dev) (rq : Rq) (a : Nat) (bs : List Byte) (poison : Bool) : Dev :=
  let n := inRange a bs.length
  let d := if n = 0 then d else (d.pmc 8 (some rq.cls) 5 (granules a n)).writeRun a (bs.take n) poison (n / 16 + 2)
  d.oorPast rq true a bs.length

/-- Store whole words from word index wi on, each with its poison mark. -/
def Dev.writeWords (d : Dev) (wi : Nat) : List (Nat × Bool) → Dev
  | [] => d
  | w :: r => (d.writeWord wi w.1 w.2).writeWords (wi + 1) r

/-- Write a run of whole words for a requester, each with its poison mark; those out of range are discarded (R444). -/
def Dev.hbmPut (d : Dev) (rq : Rq) (a : Nat) (ws : List (Nat × Bool)) : Dev :=
  let k := inRange a (16 * ws.length) / 16
  let d := if k = 0 then d else (d.pmc 8 (some rq.cls) 5 (granules a (16 * k))).writeWords (a / 16) (ws.take k)
  d.oorPast rq true a (16 * ws.length)

/-- Whether every HBM3E request waits because the address map changes (R446). -/
def Dev.hbmWaits (d : Dev) : Bool := d.flag Reg.HBM_STAT Fd.HBM_STAT_REMAP

/-- The memory's canonical form: rising indexes, and no entry equal to the never-written word. -/
def Memory.wf (m : List (Nat × HWord)) : Bool := keysRise m && m.all fun e => e.2 != {}

end Sys2Proof.Machine
end

