-- ==== Sys2Proof/Machine/Rings.lean ====
section
/-!
DEFINITION. What the blocks share of the rings: taking and ending a ring-0 command (R380), and the data areas of rings
12 and 13 (R398).
-/
namespace Sys2Proof.Machine

/-- The ring-0 command that may begin next (R380, R383): the oldest, but while a relayed command of this device waits for
its reply only commands that came by relay. -/
def Dev.front0 (d : Dev) : Option Desc :=
  if d.host.begun.isSome then none
  else if d.host.relays.isEmpty then d.host.q0.head?
  else d.host.q0.find? (·.origin.isSome)

/-- Begin the next ring-0 command if it has this opcode and the previous one has taken effect (R380). -/
def Dev.begin0 (d : Dev) (op : Nat) : Option (Desc × Dev) :=
  match d.front0 with
  | some x => if d.up && x.op == op then some (x, { d with host := { d.host with q0 := d.host.q0.erase x } }) else none
  | none => none

/-- A command has begun and its effect has not taken place (R380). -/
def Dev.holdCmd (d : Dev) (x : Desc) : Dev := { d with host := { d.host with begun := some x } }

/-- The command in progress completes (R387). -/
def Dev.endCmd (d : Dev) (x : Desc) (status : Nat) (det : List Byte) : Dev :=
  ({ d with host := { d.host with begun := none } }).complete x status det

/-- Whether the session a command needs is open: a relayed command needs one opened by relay from its origin (R379,
R383). -/
def Dev.cmdSession (d : Dev) (x : Desc) : Bool :=
  match d.host.session, x.origin with
  | none, _ => false
  | some _, none => true
  | some s, some (dev, _) => s.origin == some dev

/-- Begin a ring-0 command: `f` has its effect; one that needs a session and has none completes with NO_SESSION (R379,
R380). -/
def Dev.cmd0 (d : Dev) (op : Nat) (need : Bool) (f : Dev → Desc → Dev) : Dev :=
  match d.begin0 op with
  | none => d
  | some (x, d) => if need && !d.cmdSession x then d.reject x stNO_SESSION else f d x

/-- The offset at which ring n's data area takes an item of `len` bytes, none where it finds no space (R398). -/
def Dev.dataOfs (d : Dev) (n len : Nat) : Option Nat :=
  let size := 4096 * d.get (Reg.RING_n_DATA_SIZE n) Fd.RING_n_DATA_SIZE_PAGES
  let st := d.ringSt n
  let at0 := (st.dataOfs + 63) / 64 * 64
  let ofs := if size < at0 + len then 0 else at0
  if size < ofs + len then none
  else if st.items.all fun i => decide (ofs + len ≤ i.2.1) || decide (i.2.2 ≤ ofs) then some ofs else none

/-- Write an item into ring n's data area at an offset, to be freed with the entry about to be written (R398). -/
def Dev.dataPut (d : Dev) (n ofs : Nat) (bs : List Byte) : Dev :=
  let base := d.rd64 (Reg.RING_n_DATA_LO n) (Reg.RING_n_DATA_HI n)
  let k := d.rd (Reg.RING_n_PROD n)
  let d := d.setRing n fun r => { r with dataOfs := ofs + bs.length, items := r.items ++ [(k, ofs, ofs + bs.length)] }
  (d.dma (.hostWrite (base + ofs) bs false)).pmc 12 none 0 bs.length

end Sys2Proof.Machine
end

