-- ==== Sys2Proof/Machine/CalEnd.lean ====
section
/-!
DEFINITION. The end of a calibration run or self-test (chapter 10): its tiles, its completion, and a run abandoned, which
an entry into Safe does at once (R336).
-/
namespace Sys2Proof.Machine

/-- Calibration of a tile. -/
def Dev.calTile (d : Dev) (t : Nat) : CalTile := nth d.cal.tiles t {}

/-- Change the calibration of a tile. -/
def Dev.setCalTile (d : Dev) (t : Nat) (f : CalTile → CalTile) : Dev :=
  { d with cal := { d.cal with tiles := put 16 {} d.cal.tiles t f } }

/-- Change the run in progress. -/
def Dev.setRun (d : Dev) (f : CalRun → CalRun) : Dev := { d with cal := { d.cal with run := d.cal.run.map f } }

/-- Change one tile of the run in progress. -/
def Dev.setRunTile (d : Dev) (t : Nat) (f : CalTileRun → CalTileRun) : Dev :=
  d.setRun fun r => { r with tiles := r.tiles.map fun x => if x.tile = t then f x else x }

/-- The layer and stroke that come next where none has been accepted: the one after the last stroke accepted of the layer
still to be continued, or stroke 0 of the next layer (R333). -/
def Dev.strokeAhead (d : Dev) : Nat × Nat :=
  match d.sheaf.layers.getLast? with
  | none => (d.sheaf.nextLayer, 0)
  | some l =>
    let next := match l.lastStroke with | some k => k + 1 | none => 0
    let more := match l.ended with | none => true | some k => decide (next ≤ k)
    if l.closedAt.isNone && more then (l.num, next) else (d.sheaf.nextLayer, 0)

/-- Complete the descriptor of a request, where it has one. -/
def Dev.calComplete (d : Dev) (r : CalReq) (status : Nat) (det : List Byte) : Dev :=
  match r.desc with
  | some x => d.complete x status det
  | none => d

/-- Complete the descriptor of a request that does not begin. -/
def Dev.calReject (d : Dev) (r : CalReq) (status : Nat) : Dev :=
  match r.desc with
  | some x => d.reject x status
  | none => d

/-- The completion detail of CAL_RUN and SELF_TEST (R333, R386). -/
def Dev.calDetail (d : Dev) (r : CalRun) (code mask : Nat) (counts : Nat → Nat) : List Byte :=
  let (layer, stroke) :=
    if !r.turn then (0xFFFFFFFF, 0xFF)
    else match d.nextStroke with
      | some s => (s.layer, s.stroke)
      | none => d.strokeAhead
  toLE 8 (r.first.getD 0) ++ toLE 8 r.last ++ toLE 4 layer ++ toLE 1 stroke ++ toLE 1 code ++ toLE 2 mask ++
    (List.range 16).flatMap fun t => toLE 2 (if bit r.req.mask t then counts t else 0)

/-- End the run in progress with a result code (R333, R337). -/
def Dev.calFinish (d : Dev) (r : CalRun) (code mask total : Nat) (counts : Nat → Nat) : Dev :=
  let d := { d with cal := { d.cal with run := none, edge := false } }
  let d := d.event 0x8A02 (toLE 1 (b2n r.req.selfTest) ++ toLE 1 code ++ toLE 2 mask ++ toLE 4 total)
  d.calComplete r.req stOK (d.calDetail r code mask counts)

/-- A run or self-test in progress is abandoned (R309, R336): no bank comes into force, DUE stays, result code 1. -/
def Dev.calAbandon (d : Dev) : Dev :=
  match d.cal.run with
  | none => d
  | some r =>
    let d := { d with ra := { d.ra with strikes := d.ra.strikes.filter fun x => !x.cal } }
    d.calFinish r 1 r.mask 0 fun t => if bit r.mask t then 0 else 0xFFFF

end Sys2Proof.Machine
end

