-- ==== Sys2Proof/Machine/Engine.lean ====
section
/-!
DEFINITION. Channel programs and check units (chapter 13).
-/
namespace Sys2Proof.Machine

/-- A channel. -/
def Dev.chan (d : Dev) (c : Nat) : Chan := nth d.eng.chans c {}

/-- Change a channel. -/
def Dev.setChan (d : Dev) (c : Nat) (f : Chan → Chan) : Dev := { d with eng := { d.eng with chans := put 32 {} d.eng.chans c f } }

/-- A check unit. -/
def Dev.unit (d : Dev) (u : Nat) : ChkUnit := nth d.eng.units u {}

/-- Change a check unit. -/
def Dev.setUnit (d : Dev) (u : Nat) (f : ChkUnit → ChkUnit) : Dev := { d with eng := { d.eng with units := put 8 {} d.eng.units u f } }

/-- A channel is running in RUN, WAIT and PARK (R408). -/
def ChanSt.running : ChanSt → Bool
  | .run => true | .wait => true | .park => true | _ => false

/-- Whether any channel runs (R446). -/
def Dev.chanRunning (d : Dev) : Bool := d.eng.chans.any (·.st.running)

/-! ### Stops and completions (R432, R433) -/

/-- The completion status of a reason (R432). -/
def chanStatus (reason : Nat) (poison : Bool) : Nat :=
  match reason with
  | 0 => if poison then stPOISONED else stOK
  | 1 => stBUS_ERROR
  | 2 => stBAD_ARG
  | 3 => stBAD_ARG
  | _ => stBAD_MODE

/-- The CHANNEL_START of channel c completes at its first park or stop (R382, R432, R433). -/
def Dev.chanDone (d : Dev) (c : Nat) : Dev :=
  match d.host.out14.find? fun x => x.arg 12 12 == c with
  | none => d
  | some x =>
    let y := d.chan c
    let d := { d with host := { d.host with out14 := d.host.out14.erase x } }
    d.complete x (chanStatus y.reason y.poison)
      (toLE 8 y.pc ++ toLE 1 (b2n y.hbm) ++ toLE 1 y.reason ++ toLE 1 c ++ toLE 1 0 ++ toLE 4 (sat 32 y.count) ++ toLE 8 y.written)
      (if y.poison then 4 else 0)

/-- A channel stops for a reason (R432). -/
def Dev.stopChan (d : Dev) (c reason : Nat) : Dev :=
  let d := d.setChan c fun x => { x with st := .stop, reason, wait := none }
  let d := d.event 0x2A01 (toLE 1 c ++ toLE 1 reason ++ toLE 8 (d.chan c).pc)
  d.chanDone c

/-- A channel goes on to the next instruction (R409). -/
def Dev.chanNext (d : Dev) (c : Nat) : Dev := d.setChan c fun x => { x with pc := (x.pc + 16) % 2 ^ 64, count := x.count + 1 }

/-- A check unit's claim is released (R429). -/
def Dev.unclaim (d : Dev) (c : Nat) : Dev :=
  let d := match (d.chan c).claim with
    | some u => d.setUnit u fun y => { y with owner := none }
    | none => d
  d.setChan c fun x => { x with claim := none, saved := none }

/-! ### Addresses (R411) -/

/-- The space and effective address of a 41-bit data address field. -/
def Dev.dataAddr (d : Dev) (c field : Nat) (acc : Int) : Bool × Int :=
  let ofs : Int := (field % 2 ^ 40 : Nat)
  if bit field 40 then (true, ofs + acc) else (false, (((d.chan c).hwin : Int) + ofs + acc) % (2 ^ 64 : Nat))

/-- An effective HBM3E address out of range (R411, R423). -/
def outOfRange (x : Bool × Int) (n : Nat) : Bool := x.1 && (decide (x.2 < 0) || decide ((usable : Int) < x.2 + n))

/-- The requester of a channel (R410, R452). -/
def rqChan (c : Nat) : Rq := ⟨18, c, 3⟩

/-- The length of the access of width 2^wl that starts `ofs` bytes into a range of `len` bytes at `a` (R414). -/
def accessLen (a : Int) (wl ofs len : Nat) : Nat := min (len - ofs) (2 ^ wl - ((a + ofs) % ((2 ^ wl : Nat) : Int)).toNat)

/-- Read the words of a list with the poison mark of each byte. -/
def Dev.readMarked (d : Dev) : List Nat → List (Byte × Bool) × Dev
  | [] => ([], d)
  | wi :: r =>
    let ((v, p), d) := d.readWord wi
    let (bs, d) := d.readMarked r
    ((toLE 16 v).map (·, p) ++ bs, d)

/-- One source access (R414): the bytes with their poison marks. -/
def Dev.srcAccess (d : Dev) (c : Nat) (x : Bool × Int) (n : Nat) (host : List Byte) : List (Byte × Bool) × Dev :=
  if x.1 then
    let a := x.2.toNat
    let d := d.pmc 7 (some (rqChan c).cls) 5 (granules a n)
    let (bs, d) := d.readMarked ((List.range ((a + n - 1) / 16 - a / 16 + 1)).map (· + a / 16))
    ((bs.drop (a % 16)).take n, d)
  else ((host.take n).map (·, false), d.pmc 11 none 0 n)

/-- Write marked bytes to HBM3E word by word; `n` bounds the number of words. -/
def Dev.writeMarked (d : Dev) (a : Nat) (bs : List (Byte × Bool)) : Nat → Dev
  | 0 => d
  | n + 1 =>
    if bs.isEmpty then d
    else
      let now := bs.take (16 - a % 16)
      let p := now.any (·.2)
      let raw := now.map (·.1)
      let d := if now.length = 16 then d.writeWord (a / 16) (ofLE raw) p else d.mergeWord (a / 16) (a % 16) raw p
      d.writeMarked (a + now.length) (bs.drop now.length) n

/-- One destination access (R414, R417). -/
def Dev.dstAccess (d : Dev) (c : Nat) (x : Bool × Int) (bs : List (Byte × Bool)) : Dev :=
  let d := d.setChan c fun y => { y with written := y.written + bs.length }
  if x.1 then (d.pmc 8 (some (rqChan c).cls) 5 (granules x.2.toNat bs.length)).writeMarked x.2.toNat bs 5
  else
    let p := bs.any (·.2)
    let d := if p then d.setChan c fun y => { y with poison := true } else d
    (d.dma (.hostWrite x.2.toNat (bs.map (·.1)) p)).pmc 12 none 0 bs.length

/-- Whether a MOVE overlaps forward at too small a distance (R415). -/
def overlaps (src dst : Bool × Int) (len : Nat) : Bool :=
  src.1 == dst.1 && decide (src.2 < dst.2) && decide (dst.2 < src.2 + len) && decide (dst.2 - src.2 < 128)

/-- The number of accesses of width 2^wl that a range is divided into (R414). -/
def accesses (a : Int) (wl len : Nat) : Nat :=
  if len = 0 then 0 else ((a + len - 1) / ((2 ^ wl : Nat) : Int) - a / ((2 ^ wl : Nat) : Int)).toNat + 1

/-- The accesses of a MOVE (R414): `s` bytes read, `t` bytes written, the holding register; `n` bounds the accesses. The
answer says whether an access met the end of the usable range (R423). -/
def Dev.moveGo (d : Dev) (c : Nat) (src dst : Bool × Int) (swl dwl len : Nat) (host : List Byte) :
    (n s t : Nat) → List (Byte × Bool) → Bool × Dev
  | 0, _, _, _ => (false, d)
  | n + 1, s, t, hold =>
    if len ≤ t then (false, d)
    else
      let m := accessLen dst.2 dwl t len
      if m ≤ hold.length then
        let at_ := (dst.1, dst.2 + t)
        if outOfRange at_ m then (true, d)
        else (d.dstAccess c at_ (hold.take m)).moveGo c src dst swl dwl len host n s (t + m) (hold.drop m)
      else
        let k := accessLen src.2 swl s len
        let at_ := (src.1, src.2 + s)
        if outOfRange at_ k then (true, d)
        else
          let (bs, d) := d.srcAccess c at_ k host
          d.moveGo c src dst swl dwl len (host.drop k) n (s + k) t (hold ++ bs)

/-- The accesses of a FILL (R416). -/
def Dev.fillGo (d : Dev) (c : Nat) (dst : Bool × Int) (dwl len pat : Nat) : (n t : Nat) → Bool × Dev
  | 0, _ => (false, d)
  | n + 1, t =>
    if len ≤ t then (false, d)
    else
      let m := accessLen dst.2 dwl t len
      let at_ := (dst.1, dst.2 + t)
      if outOfRange at_ m then (true, d)
      else
        let bs := (List.range m).map fun (i : Nat) => (BitVec.ofNat 8 (pat >>> (8 * (((dst.2 + t + (i : Int)) % 4).toNat))), false)
        (d.dstAccess c at_ bs).fillGo c dst dwl len pat n (t + m)

/-! ### Check units (R429 to R431) -/

/-- One bit of the CRC of R430. -/
def chkBit (w poly b : Nat) (r : Nat) (i : Nat) : Nat :=
  let x := ((b >>> i) % 2) ^^^ ((r >>> (w - 1)) % 2)
  let r := (2 * r) % 2 ^ w
  if x = 1 then r ^^^ (poly % 2 ^ w) else r

/-- step() of R430. -/
def ChkUnit.step (u : ChkUnit) (b : Nat) : Nat :=
  let b := if u.refin then revBits 8 b else b
  [7, 6, 5, 4, 3, 2, 1, 0].foldl (fun r i => chkBit u.width u.poly b r i) u.r

/-- result() of R430. -/
def ChkUnit.result (u : ChkUnit) : Nat :=
  ((if u.refout then revBits u.width u.r else u.r) ^^^ u.xorout) % 2 ^ u.width

/-- Feed bytes to a unit. -/
def ChkUnit.feed (u : ChkUnit) : List (Byte × Bool) → ChkUnit
  | [] => u
  | (b, p) :: r => ({ u with r := u.step b.toNat, poison := u.poison || p }).feed r

/-- The accesses of a CHECK (R430). -/
def Dev.checkGo (d : Dev) (c u : Nat) (src : Bool × Int) (swl len : Nat) (host : List Byte) : (n s : Nat) → Bool × Dev
  | 0, _ => (false, d)
  | n + 1, s =>
    if len ≤ s then (false, d)
    else
      let k := accessLen src.2 swl s len
      let at_ := (src.1, src.2 + s)
      if outOfRange at_ k then (true, d)
      else
        let (bs, d) := d.srcAccess c at_ k host
        (d.setUnit u fun y => y.feed bs).checkGo c u src swl len (host.drop k) n (s + k)

/-- CHECK with INIT claims a unit, sets its register and takes its configuration (R429, R439, R440). -/
def Dev.checkInit (d : Dev) (c u : Nat) : Dev :=
  let ctl := d.rd (Reg.CHK_u_CTL u)
  let w := let w := bits ctl 6 0; if w = 0 ∨ 64 < w then 64 else w
  let y : ChkUnit :=
    { owner := some c, width := w, r := d.rd64 (Reg.CHK_u_INIT_LO u) (Reg.CHK_u_INIT_HI u) % 2 ^ w
      poly := d.rd64 (Reg.CHK_u_POLY_LO u) (Reg.CHK_u_POLY_HI u) % 2 ^ w
      xorout := d.rd64 (Reg.CHK_u_XOR_LO u) (Reg.CHK_u_XOR_HI u) % 2 ^ w
      expect := d.rd64 (Reg.CHK_u_EXP_LO u) (Reg.CHK_u_EXP_HI u) % 2 ^ w
      refin := bit ctl 8, refout := bit ctl 9 }
  ((d.unclaim c).setUnit u fun _ => y).setChan c fun x => { x with claim := some u }

/-- CHECK with FINAL stores and compares the result; the answer says whether it mismatched (R431). -/
def Dev.checkFinal (d : Dev) (c u : Nat) : Bool × Dev :=
  let y := d.unit u
  let res := y.result
  let bad := y.poison || res != y.expect
  let d := (d.wr (Reg.CHK_u_RES_LO u) res).wr (Reg.CHK_u_RES_HI u) (res / 2 ^ 32)
  let d := (d.set (Reg.CHK_u_STAT u) Fd.CHK_u_STAT_MISMATCH (b2n bad)).set (Reg.CHK_u_STAT u) Fd.CHK_u_STAT_POISON (b2n y.poison)
  let d := if bad then
      (d.msix (48 + u)).event 0x2B01 (toLE 1 u ++ toLE 1 c ++ toLE 1 (b2n y.poison) ++ toLE 1 0 ++ toLE 8 res)
    else d
  (bad, d.unclaim c)

/-! ### Instructions (R413, R423) -/

/-- Whether an instruction word has a defined opcode, valid widths and no reserved bit set (R413). -/
def encodingOk (w : Nat) : Bool :=
  match w % 16 with
  | 0 => w == 0
  | 1 => bits w 6 4 != 7 && bits w 9 7 != 7 && bits w 11 10 == 0 && bits w 127 126 == 0
  | 2 => bits w 6 4 == 0 && bits w 9 7 != 7 && bits w 11 10 == 0 && bits w 84 76 == 0 && bits w 127 126 == 0
  | 3 => bits w 6 4 != 7 && bits w 127 86 == 0
  | 4 => bits w 7 6 == 0
  | 5 => bits w 15 9 == 0 && bits w 63 48 == 0
  | 6 => bits w 63 48 == 0
  | 7 => bits w 63 5 == 0
  | _ => false

/-- Whether an instruction reads or writes HBM3E (R413). -/
def touchesHbm (w : Nat) : Bool :=
  match w % 16 with
  | 1 => bit w 84 || bit w 125
  | 2 => bit w 125
  | 3 => bit w 84
  | 6 => bit w 5 && bit w 47
  | _ => false

/-- The word at the program counter: `word` where the program lies in host memory, else HBM3E; true where it is
uncorrectable (R427). No prefetched copy is run (R425), so a host that extends a chain as R426 says is obeyed. -/
def Dev.fetchInstr (d : Dev) (c word : Nat) : (Nat × Bool) × Dev :=
  let x := d.chan c
  if x.hbm then
    let ((bs, p), d) := d.hbmRead (rqChan c) x.pc 16
    ((ofLE bs, p), d)
  else ((word % 2 ^ 128, false), d.pmc 11 none 0 16)

/-- The part of its current instruction that a channel had carried out before a bus error (R427, R428). -/
def Dev.doPart (d : Dev) (p : ChPart) : Dev :=
  let x := d.chan p.ch
  if x.st ≠ .run then d
  else
    let ((w, bad), d1) := d.fetchInstr p.ch p.word
    let len := bits w 43 12
    if bad || !encodingOk w then d
    else
      match w % 16 with
      | 1 =>
        let src := d1.dataAddr p.ch (bits w 84 44) x.sofs
        let dst := d1.dataAddr p.ch (bits w 125 85) x.dofs
        if overlaps src dst len then d
        else (d1.moveGo p.ch src dst (bits w 6 4) (bits w 9 7) len p.data p.steps 0 0 []).2
      | 2 => (d1.fillGo p.ch (d1.dataAddr p.ch (bits w 125 85) x.dofs) (bits w 9 7) len (bits w 75 44) p.steps 0).2
      | 3 =>
        let u := bits w 9 7
        let y := d1.unit u
        let src := d1.dataAddr p.ch (bits w 84 44) x.sofs
        if (if bit w 10 then y.owner.any (· != p.ch) else y.owner != some p.ch) then d
        else
          let d1 := if bit w 10 then d1.checkInit p.ch u else d1
          let d1 := d1.setChan p.ch fun x => { x with saved := some (u, y.r, y.poison) }
          let d1 := (d1.checkGo p.ch u src (bits w 6 4) len p.data p.steps 0).2
          if bit w 11 && decide (accesses src.2 (bits w 6 4) len ≤ p.steps) && (src.1 || decide (len ≤ p.data.length)) then
            (d1.checkFinal p.ch u).2
          else d1
      | _ => d

/-- A bus error (R427): it is recorded if none is held, and every running channel stops with reason 1. -/
def Dev.busError (d : Dev) (kind addr mask : Nat) (parts : List ChPart) : Dev :=
  let d := parts.foldl (fun (d : Dev) p => d.doPart p) d
  let running := (List.range 32).filter fun c => (d.chan c).st.running
  let mask := sumN (running.map fun c => if bit mask c then 2 ^ c else 0)
  let d := if d.flag Reg.CPE_BUSERR_STAT Fd.CPE_BUSERR_STAT_VALID then d
    else
      let d := (d.wr Reg.CPE_BUSERR_LO addr).wr Reg.CPE_BUSERR_HI (addr / 2 ^ 32)
      (d.wr Reg.CPE_BUSERR_CH mask).wr Reg.CPE_BUSERR_STAT (2 ^ 31 + kind)
  let d := (d.event 0x2A02 (toLE 8 addr ++ toLE 1 kind)).msix 56
  running.foldl (fun (d : Dev) c => d.stopChan c 1) d

/-- Execute the instruction at the program counter of a channel in RUN if it has this opcode (R409, R413, R423): a word
with no valid encoding stops the channel whatever instruction was expected. Requests to HBM3E wait while its map changes
(R446), and those to host memory while Bus Master Enable is 0 (R365). -/
def Dev.instr (d : Dev) (c op word : Nat) (f : Dev → Nat → Dev) : Dev :=
  let waits := (d.flag Reg.HBM_STAT Fd.HBM_STAT_REMAP && ((d.chan c).hbm || touchesHbm word)) || (!(d.chan c).hbm && !d.hostReads)
  if !d.up ∨ 32 ≤ c ∨ (d.chan c).st ≠ .run ∨ waits then d
  else
    let ((w, bad), d1) := d.fetchInstr c word
    if bad then d1.busError 4 (d.chan c).pc (2 ^ c) []
    else if !encodingOk w then d1.stopChan c 2
    else if w % 16 ≠ op then d
    else f d1 w

/-- END (R424, R432): the channel parks, or fetches the word again where a doorbell is pending. Every END that runs
has been read from memory (R425). -/
def chEnd (c word dt : Nat) (d : Dev) : Dev :=
  (d.after dt).instr c 0 word fun d _ =>
    let x := d.chan c
    if x.db then d.setChan c fun x => { x with db := false, count := x.count + 1 }
    else (d.setChan c fun x => { x with st := .park, reason := 0, count := x.count + 1 }).chanDone c

/-- MOVE (R414, R415, R417, R423); `data` is what host memory returns where the source lies there. -/
def chMove (c word : Nat) (data : List Byte) (dt : Nat) (d : Dev) : Dev :=
  (d.after dt).instr c 1 word fun d w =>
    let x := d.chan c
    let len := bits w 43 12
    let src := d.dataAddr c (bits w 84 44) x.sofs
    let dst := d.dataAddr c (bits w 125 85) x.dofs
    if len = 0 then d.chanNext c
    else if overlaps src dst len || outOfRange src 1 || outOfRange dst 1 then d.stopChan c 3
    else if !src.1 ∧ (!d.hostReads ∨ data.length < len) then d
    else
      let (bad, d) := d.moveGo c src dst (bits w 6 4) (bits w 9 7) len data (2 * len + 2) 0 0 []
      if bad then d.stopChan c 3 else d.chanNext c

/-- FILL (R416, R423). -/
def chFill (c word dt : Nat) (d : Dev) : Dev :=
  (d.after dt).instr c 2 word fun d w =>
    let len := bits w 43 12
    let dst := d.dataAddr c (bits w 125 85) (d.chan c).dofs
    if len = 0 then d.chanNext c
    else if outOfRange dst 1 then d.stopChan c 3
    else
      let (bad, d) := d.fillGo c dst (bits w 9 7) len (bits w 75 44) (len + 1) 0
      if bad then d.stopChan c 3 else d.chanNext c

/-- CHECK (R429 to R431); it waits while another channel holds the unit's claim. Where it stops part-way, the unit's
register at its start is kept for RESTART (R428). -/
def chCheck (c word : Nat) (data : List Byte) (dt : Nat) (d : Dev) : Dev :=
  (d.after dt).instr c 3 word fun d w =>
    let u := bits w 9 7
    let len := bits w 43 12
    let src := d.dataAddr c (bits w 84 44) (d.chan c).sofs
    let mine := (d.chan c).claim == some u
    if (!bit w 10 && !mine) || (len != 0 && outOfRange src 1) then d.stopChan c 3
    else if ((d.unit u).owner.any (· != c)) || (len != 0 && !src.1 && (!d.hostReads || decide (data.length < len))) then d
    else
      let y := d.unit u
      let d := if bit w 10 then d.checkInit c u else d
      let (bad, d) := d.checkGo c u src (bits w 6 4) len data (len + 1) 0
      if bad then (d.setChan c fun x => { x with saved := some (u, y.r, y.poison) }).stopChan c 3
      else if !bit w 11 then d.chanNext c
      else
        let (miss, d) := d.checkFinal c u
        if miss && bit w 85 then (d.setChan c fun x => { x with count := x.count + 1 }).stopChan c 6 else d.chanNext c

/-- LOOP (R418, R423). -/
def chLoop (c word dt : Nat) (d : Dev) : Dev :=
  (d.after dt).instr c 4 word fun d w =>
    let l := bits w 5 4
    let count := bits w 31 8
    let back := bits w 47 32
    let sstep := toS 40 (bits w 87 48)
    let dstep := toS 40 (bits w 127 88)
    if count = 0 ∨ back = 0 then d.stopChan c 3
    else
      d.setChan c fun x =>
        let lc := if nth x.act l false then nth x.lcnt l 0 else count - 1
        let x := { x with count := x.count + 1 }
        if 0 < lc then
          { x with act := put 4 false x.act l fun _ => true, lcnt := put 4 0 x.lcnt l fun _ => lc - 1
                   sofs := toS 64 (ofS 64 (x.sofs + sstep)), dofs := toS 64 (ofS 64 (x.dofs + dstep))
                   pc := ofS 64 ((x.pc : Int) - 16 * back) }
        else
          { x with act := put 4 false x.act l fun _ => false, lcnt := put 4 0 x.lcnt l fun _ => 0
                   sofs := toS 64 (ofS 64 (x.sofs - ((count - 1 : Nat) : Int) * sstep))
                   dofs := toS 64 (ofS 64 (x.dofs - ((count - 1 : Nat) : Int) * dstep))
                   pc := (x.pc + 16) % 2 ^ 64 }

/-- The portions a fence WAIT covers (R420). -/
def Wait.portions (v : Wait) : Nat := let m := bits v.value 39 32; if m = 0 then 0xFF else m

/-- WAIT (R420, R421): the channel enters WAIT. -/
def chWait (c word dt : Nat) (d : Dev) : Dev :=
  (d.after dt).instr c 5 word fun d w =>
    let kind := bits w 7 4
    if 4 < kind then d.stopChan c 3
    else
      let v : Wait := { kind, struck := bit w 8, tmo := bits w 31 16, mask := bits w 47 32, value := bits w 127 64
                        tick := d.top.tick, since := d.clk.up, logged := d.log.length }
      let seen := sumN ((List.range 8).map fun n =>
        if (nth d.eng.fences n []).contains (bits v.value 31 0, v.struck) then 2 ^ n else 0)
      d.setChan c fun x => { x with st := .wait, wait := some { v with seen } }

/-- Whether the condition of a WAIT holds (R420). -/
def Dev.waitHolds (d : Dev) (c : Nat) (v : Wait) : Bool :=
  match v.kind with
  | 0 => decide (v.value ≤ d.top.tick - v.tick)
  | 1 => decide (v.value ≤ d.top.tick)
  | 2 => v.seen &&& v.portions == v.portions
  | 3 => (d.log.take (d.log.length - v.logged)).any fun e => e.code &&& v.mask == bits v.value 15 0 &&& v.mask
  | _ => (d.chan c).db

/-- WAIT_SATISFIED (R420). -/
def waitSatisfied (c dt : Nat) (d : Dev) : Dev :=
  let d := d.after dt
  match (d.chan c).wait with
  | none => d
  | some v =>
    if (d.chan c).st ≠ .wait ∨ !d.waitHolds c v then d
    else (d.setChan c fun x => { x with st := .run, wait := none, db := x.db && v.kind != 4 }).chanNext c

/-- WAIT_TIMEOUT (R420, R435): TMO ms pass and the condition does not hold. A condition met in the core cycle of the
expiry prevails, so that cycle is over when the channel stops. -/
def waitTimeout (c : Nat) (d : Dev) : Dev :=
  match (d.chan c).wait with
  | none => d
  | some v =>
    if v.tmo = 0 ∨ (d.chan c).st ≠ .wait then d
    else
      let d1 := d.reachUp (v.since + 1250000 * v.tmo + 1)
      if d1.waitHolds c v then d else d1.stopChan c 4

/-- A fence of portion n has been reached: the log of R421 and the WAITs that watch it. -/
def Dev.fenceNote (d : Dev) (n id : Nat) (struck : Bool) : Dev :=
  let see := fun (x : Chan) => match x.wait with
    | some v => if v.kind == 2 && bits v.value 31 0 == id && v.struck == struck
        then { x with wait := some { v with seen := v.seen ||| 2 ^ n } } else x
    | none => x
  { d with eng := { d.eng with fences := put 8 [] d.eng.fences n fun l => ((id, struck) :: l).take 64
                               chans := d.eng.chans.map see } }

/-- Event 0x3303 reports a squashed fence of portion n: a WAIT for it stops its channel (R421). -/
def Dev.fenceSquashed (d : Dev) (n id : Nat) (struck : Bool) : Dev :=
  (List.range 32).foldl (fun (d : Dev) c => match (d.chan c).wait with
    | some v => if v.kind == 2 && bits v.value 31 0 == id && v.struck == struck && bit v.portions n then d.stopChan c 5 else d
    | none => d) d

/-- SIGNAL (R422, R423): EVT, WR, IRQ in this order. -/
def chSignal (c word dt : Nat) (d : Dev) : Dev :=
  (d.after dt).instr c 6 word fun d w =>
    let v := bits w 127 64
    let a := d.dataAddr c (bits w 47 7) (d.chan c).sofs
    if bit w 5 && (a.2 % 8 != 0 || outOfRange a 8) then d.stopChan c 3
    else
      let d := if bit w 4 then d.event 0x2A10 (toLE 8 v ++ toLE 1 c) else d
      let d := if bit w 5 then d.dstAccess c a ((toLE 8 v).map (·, false)) else d
      let d := if bit w 6 then d.msix (16 + c) else d
      d.chanNext c

/-- LINK (R419, R423). -/
def chLink (c word dt : Nat) (d : Dev) : Dev :=
  (d.after dt).instr c 7 word fun d w =>
    let a := bits w 127 64
    if a % 16 ≠ 0 then d.stopChan c 3
    else d.setChan c fun x => { x with pc := a, hbm := bit w 4, count := x.count + 1 }

/-! ### Starts, doorbells and recovery (R382, R409, R424, R427, R428) -/

/-- CHANNEL_START (R382, R409): the oldest descriptor of ring 14 starts its channel, or completes with BUSY. -/
def channelStart (dt : Nat) (d : Dev) : Dev :=
  let d := d.after dt
  match d.host.q14 with
  | [] => d
  | x :: rest =>
    if !d.up then d
    else
      let c := x.arg 12 12
      let d := { d with host := { d.host with q14 := rest } }
      if (d.chan c).st.running then d.reject x stBUSY
      else
        let d := { d with host := { d.host with out14 := d.host.out14 ++ [x] } }
        d.setChan c fun y => { hwin := y.hwin, claim := y.claim, st := .run, hbm := bit (x.arg 13 13) 0, pc := x.arg 23 16 }

/-- The channel whose doorbell lies at an offset of BAR2 (R371). -/
def bellChannel (o : Nat) : Option Nat :=
  if 0xE100 ≤ o ∧ o < 0xE180 ∧ o % 4 = 0 then some ((o - 0xE100) / 4) else none

/-- A doorbell of channel c is written (R424). -/
def Dev.channelDoorbell (d : Dev) (c : Nat) : Dev :=
  if !d.linkUp then d
  else
    match (d.chan c).st with
    | .park => d.setChan c fun x => { x with st := .run, db := false }
    | .run => d.setChan c fun x => { x with db := true }
    | .wait => d.setChan c fun x => { x with db := true }
    | _ => d

/-- CHANNEL_DOORBELL (R371, R424): `len` bytes are written at an offset of BAR2; every other offset is ignored, and every
write that is not 32 bits wide. -/
def channelDoorbell (o len dt : Nat) (d : Dev) : Dev :=
  let d := d.after dt
  match bellChannel o with
  | some c => if len = 4 then d.channelDoorbell c else d
  | none => d

/-- CPE_BUS_ERROR (R427): a host read fails with this kind, or (kind 4) an HBM3E instruction word is uncorrectable. -/
def cpeBusError (kind addr mask : Nat) (parts : List ChPart) (dt : Nat) (d : Dev) : Dev :=
  let d := d.after dt
  if !d.up ∨ !d.chanRunning ∨ 4 < kind then d
  else if kind = 4 then
    let ((_, p), d1) := d.hbmRead (rqChan 0) (addr / 16 * 16) 16
    if p then d1.busError 4 addr mask parts else d
  else d.busError kind (addr % 2 ^ 64) mask parts

/-- A write of CPE_c_CTL with RESTART = 1 (R428). -/
def Dev.restart (d : Dev) (c : Nat) : Dev :=
  if d.flag Reg.CPE_BUSERR_STAT Fd.CPE_BUSERR_STAT_VALID ∨ (d.chan c).st ≠ .stop then d
  else
    let d := match (d.chan c).saved with
      | some (u, r, p) => d.setUnit u fun y => if y.owner = some c then { y with r, poison := p } else y
      | none => d
    d.setChan c fun x => { x with st := .run, saved := none }

/-- A write of CPE_c_CTL with ABORT = 1 (R428, R432). -/
def Dev.abortChan (d : Dev) (c : Nat) : Dev :=
  let d := if (d.chan c).st.running then d.stopChan c 7 else d
  (d.unclaim c).setChan c fun x => { x with st := .idle, wait := none, db := false }

/-- RESTART (R428). -/
def chRestart (c dt : Nat) (d : Dev) : Dev :=
  let d := d.after dt
  if d.hostOk ∧ c < 32 then d.restart c else d

/-- ABORT (R428). -/
def chAbort (c dt : Nat) (d : Dev) : Dev :=
  let d := d.after dt
  if d.hostOk ∧ c < 32 then d.abortChan c else d

/-- A reset takes every channel to IDLE, releases every claim and loses results and bus-error records (R434); the
descriptors are retired by the reset itself. -/
def Dev.engReset (d : Dev) : Dev :=
  let regs := [Reg.CPE_BUSERR_LO, Reg.CPE_BUSERR_HI, Reg.CPE_BUSERR_CH, Reg.CPE_BUSERR_STAT] ++
    ((List.range 8).map fun u => [Reg.CHK_u_STAT u, Reg.CHK_u_RES_LO u, Reg.CHK_u_RES_HI u]).flatten
  let d := regs.foldl (fun (d : Dev) a => d.wr a 0) d
  { d with eng := { d.eng with chans := d.eng.chans.map (fun (x : Chan) => { hwin := x.hwin, reason := if x.st == .idle then x.reason else 7 })
                               units := List.replicate 8 {} } }

end Sys2Proof.Machine
end

