-- ==== Sys2Proof/Machine/Crypto.lean ====
section
/-!
DEFINITION. The cryptographic functions the spec names: SHA-256 and HMAC (R392), AES-128-CMAC (R552), SHA-512 and
Ed25519 (R588, R590). Their constants are computed from the definitions of their standards (PRESUMED: FIPS 180-4,
FIPS 197, RFC 4493, RFC 8032, which the spec names and does not reprint).
-/
namespace Sys2Proof.Machine

/-- The largest r with r^k ≤ n, r below 2^bits, built from its top bit. -/
def rootFrom (k n : Nat) : (bits r : Nat) → Nat
  | 0, r => r
  | b + 1, r => rootFrom k n b (if (r + 2 ^ b) ^ k ≤ n then r + 2 ^ b else r)

/-- Primality by trial division. -/
def isPrime (n : Nat) : Bool := decide (2 ≤ n) && (List.range n).all fun i => decide (i < 2) || n % i != 0

/-- The first primes below 410: 80 of them. -/
def primes80 : List Nat := (List.range 410).filter isPrime

/-- w bits of the fraction of the k-th root of p. -/
def rootFrac (k w p : Nat) : Nat := rootFrom k (p * 2 ^ (k * w)) (w + 6) 0 % 2 ^ w

/-- Rotate a w-bit word right. -/
def rotr (w x n : Nat) : Nat := (x >>> n ||| x <<< (w - n)) % 2 ^ w

/-- Big-endian bytes of a number. -/
def toBE (n v : Nat) : List Byte := (toLE n v).reverse

/-- The number of big-endian bytes. -/
def ofBE (bs : List Byte) : Nat := ofLE bs.reverse

/-- The parameters of a SHA-2 function: word width, rounds, and its rotations. -/
structure Sha where
  w : Nat
  s0 : Nat × Nat × Nat
  s1 : Nat × Nat × Nat
  e0 : Nat × Nat × Nat
  e1 : Nat × Nat × Nat
  k : List Nat
  h : List Nat
  deriving DecidableEq, Repr

/-- SHA-256's parameters. -/
def sha256P : Sha :=
  { w := 32, s0 := (7, 18, 3), s1 := (17, 19, 10), e0 := (2, 13, 22), e1 := (6, 11, 25)
    k := (primes80.take 64).map (rootFrac 3 32), h := (primes80.take 8).map (rootFrac 2 32) }

/-- SHA-512's parameters. -/
def sha512P : Sha :=
  { w := 64, s0 := (1, 8, 7), s1 := (19, 61, 6), e0 := (28, 34, 39), e1 := (14, 18, 41)
    k := primes80.map (rootFrac 3 64), h := (primes80.take 8).map (rootFrac 2 64) }

/-- The message schedule, newest word first. -/
def shaSchedule (p : Sha) : (n : Nat) → List Nat → List Nat
  | 0, ws => ws
  | n + 1, ws =>
    let g := fun i => nth ws i 0
    let small := fun (r : Nat × Nat × Nat) x => rotr p.w x r.1 ^^^ rotr p.w x r.2.1 ^^^ x >>> r.2.2
    shaSchedule p n ((small p.s1 (g 1) + g 6 + small p.s0 (g 14) + g 15) % 2 ^ p.w :: ws)

/-- One round on the eight working variables. -/
def shaRound (p : Sha) (s : List Nat) (kw : Nat × Nat) : List Nat :=
  match s with
  | [a, b, c, d, e, f, g, h] =>
    let big := fun (r : Nat × Nat × Nat) x => rotr p.w x r.1 ^^^ rotr p.w x r.2.1 ^^^ rotr p.w x r.2.2
    let ch := (e &&& f) ^^^ ((2 ^ p.w - 1 - e) &&& g)
    let maj := (a &&& b) ^^^ (a &&& c) ^^^ (b &&& c)
    let t1 := h + big p.e1 e + ch + kw.1 + kw.2
    let t2 := big p.e0 a + maj
    [(t1 + t2) % 2 ^ p.w, a, b, c, (d + t1) % 2 ^ p.w, e, f, g]
  | _ => s

/-- The compression of one block. -/
def shaBlock (p : Sha) (h : List Nat) (block : List Byte) : List Nat :=
  let n := p.w / 8
  let ws := (List.range 16).map fun i => ofBE ((block.drop (n * i)).take n)
  let w := (shaSchedule p (p.k.length - 16) ws.reverse).reverse
  List.zipWith (fun a b => (a + b) % 2 ^ p.w) h ((List.zip p.k w).foldl (shaRound p) h)

/-- All blocks of a padded message. -/
def shaBlocks (p : Sha) : (n : Nat) → List Nat → List Byte → List Nat
  | 0, h, _ => h
  | n + 1, h, bs => shaBlocks p n (shaBlock p h (bs.take (2 * p.w))) (bs.drop (2 * p.w))

/-- A SHA-2 digest. -/
def sha2 (p : Sha) (msg : List Byte) : List Byte :=
  let blk := 2 * p.w
  let n := (msg.length + 1 + p.w / 4 + blk - 1) / blk
  let padded := msg ++ [0x80] ++ List.replicate (n * blk - msg.length - 1 - p.w / 4) 0 ++ toBE (p.w / 4) (8 * msg.length)
  (shaBlocks p n p.h padded).flatMap (toBE (p.w / 8))

/-- SHA-256. -/
def sha256 (msg : List Byte) : List Byte := sha2 sha256P msg
/-- SHA-512. -/
def sha512 (msg : List Byte) : List Byte := sha2 sha512P msg

/-- HMAC-SHA-256 with a key of at most 64 bytes (R392). -/
def hmacSha256 (key msg : List Byte) : List Byte :=
  let k := padTo 64 key
  sha256 (k.map (· ^^^ 0x5C) ++ sha256 (k.map (· ^^^ 0x36) ++ msg))

/-! ### AES-128 and CMAC -/

/-- Doubling in the AES field. -/
def gfDouble (x : Nat) : Nat := if x < 128 then 2 * x else (2 * x) % 256 ^^^ 0x1B

/-- A product in the AES field: the low n bits of b. -/
def gfMul : (n : Nat) → (a b : Nat) → Nat
  | 0, _, _ => 0
  | n + 1, a, b => (if b % 2 = 1 then a else 0) ^^^ gfMul n (gfDouble a) (b / 2)

/-- The inverse in the AES field: the 254th power. -/
def gfInv (x : Nat) : Nat :=
  let sq := fun a => gfMul 8 a a
  let x2 := sq x
  let x4 := sq x2
  let x8 := sq x4
  let x16 := sq x8
  let x32 := sq x16
  let x64 := sq x32
  let x128 := sq x64
  [x4, x8, x16, x32, x64, x128].foldl (gfMul 8) x2

/-- The AES S-box. -/
def aesSbox (x : Nat) : Nat :=
  let b := gfInv x
  let rot := fun n => (b <<< n ||| b >>> (8 - n)) % 256
  b ^^^ rot 1 ^^^ rot 2 ^^^ rot 3 ^^^ rot 4 ^^^ 0x63

/-- Key expansion: n further round keys, from the last one. -/
def aesKeys : (n : Nat) → (rcon : Nat) → List Nat → List (List Nat)
  | 0, _, k => [k]
  | n + 1, rcon, k =>
    let g := fun i => nth k i 0
    let t := [aesSbox (g 13) ^^^ rcon, aesSbox (g 14), aesSbox (g 15), aesSbox (g 12)]
    let w0 := List.zipWith (· ^^^ ·) (k.take 4) t
    let w1 := List.zipWith (· ^^^ ·) ((k.drop 4).take 4) w0
    let w2 := List.zipWith (· ^^^ ·) ((k.drop 8).take 4) w1
    let w3 := List.zipWith (· ^^^ ·) (k.drop 12) w2
    k :: aesKeys n (gfDouble rcon) (w0 ++ w1 ++ w2 ++ w3)

/-- ShiftRows after SubBytes. -/
def aesSubShift (s : List Nat) : List Nat := (List.range 16).map fun i => aesSbox (nth s ((i + 4 * (i % 4)) % 16) 0)

/-- MixColumns. -/
def aesMix (s : List Nat) : List Nat :=
  (List.range 16).map fun i =>
    let c := fun j => nth s (4 * (i / 4) + (i + j) % 4) 0
    gfDouble (c 0) ^^^ gfDouble (c 1) ^^^ c 1 ^^^ c 2 ^^^ c 3

/-- AES-128 of one block of 16 bytes. -/
def aes128 (key : List Byte) (block : List Nat) : List Nat :=
  let add := List.zipWith (· ^^^ ·)
  match aesKeys 10 1 ((padTo 16 key).map (·.toNat)) with
  | k0 :: ks =>
    let s := (ks.take 9).foldl (fun s k => add (aesMix (aesSubShift s)) k) (add block k0)
    add (aesSubShift s) (nth ks 9 [])
  | [] => block

/-- Doubling of a 128-bit CMAC subkey, big-endian. -/
def cmacDouble (k : Nat) : Nat := (2 * k) % 2 ^ 128 ^^^ (if k < 2 ^ 127 then 0 else 0x87)

/-- CBC-MAC over whole blocks. -/
def cbcMac (key : List Byte) : (n : Nat) → List Nat → List Nat → List Nat
  | 0, x, _ => x
  | n + 1, x, bs => cbcMac key n (aes128 key (List.zipWith (· ^^^ ·) x (bs.take 16))) (bs.drop 16)

/-- AES-128-CMAC: 16 bytes (R552). -/
def cmac128 (key msg : List Byte) : List Byte :=
  let l := ofBE ((aes128 key (List.replicate 16 0)).map (BitVec.ofNat 8))
  let k1 := cmacDouble l
  let n := max 1 ((msg.length + 15) / 16)
  let whole := msg.length != 0 && msg.length % 16 == 0
  let sub := (toBE 16 (if whole then k1 else cmacDouble k1)).map (·.toNat)
  let m := (if whole then msg else padTo (16 * n) (msg ++ [0x80])).map (·.toNat)
  let body := m.take (16 * (n - 1))
  let last := List.zipWith (· ^^^ ·) (m.drop (16 * (n - 1))) sub
  (cbcMac key n (List.replicate 16 0) (body ++ last)).map (BitVec.ofNat 8)

/-! ### Ed25519 -/

/-- The field prime 2^255 − 19. -/
def edP : Nat := 2 ^ 255 - 19
/-- The group order. -/
def edL : Nat := 2 ^ 252 + 27742317777372353535851937790883648493

/-- x^e mod p by squaring over the low n bits of e. -/
def powMod (p : Nat) : (n : Nat) → (x e : Nat) → Nat
  | 0, _, _ => 1
  | n + 1, x, e =>
    let r := powMod p n (x * x % p) (e / 2)
    if e % 2 = 1 then x * r % p else r

/-- The inverse mod p. -/
def edInv (x : Nat) : Nat := powMod edP 255 x (edP - 2)

/-- d = −121665 / 121666. -/
def edD : Nat := (edP - 121665) * edInv 121666 % edP

/-- A point in extended coordinates. -/
structure EdPt where
  x : Nat
  y : Nat
  z : Nat
  t : Nat
  deriving DecidableEq, Repr

/-- Point addition. -/
def edAdd (p q : EdPt) : EdPt :=
  let m := edP
  let a := (p.y + m - p.x) * (q.y + m - q.x) % m
  let b := (p.y + p.x) * (q.y + q.x) % m
  let c := 2 * p.t * q.t * edD % m
  let dd := 2 * p.z * q.z % m
  let e := (b + m - a) % m
  let f := (dd + m - c) % m
  let g := (dd + c) % m
  let h := (b + a) % m
  { x := e * f % m, y := g * h % m, z := f * g % m, t := e * h % m }

/-- s times a point, over the low n bits of s. -/
def edMul : (n : Nat) → (s : Nat) → EdPt → EdPt
  | 0, _, _ => ⟨0, 1, 1, 0⟩
  | n + 1, s, p =>
    let r := edMul n (s / 2) (edAdd p p)
    if s % 2 = 1 then edAdd p r else r

/-- The base point: y = 4/5, x even. -/
def edBase : EdPt :=
  let y := 4 * edInv 5 % edP
  let x2 := (y * y + edP - 1) * edInv (edD * y * y + 1) % edP
  let x := powMod edP 255 x2 ((edP + 3) / 8)
  let x := if x * x % edP = x2 then x else x * powMod edP 255 2 ((edP - 1) / 4) % edP
  let x := if x % 2 = 0 then x else edP - x
  ⟨x, y, 1, x * y % edP⟩

/-- The 32-byte encoding of a point. -/
def edEnc (p : EdPt) : List Byte :=
  let zi := edInv p.z
  toLE 32 (p.y * zi % edP + (p.x * zi % edP % 2) * 2 ^ 255)

/-- The secret scalar and the prefix of a 32-byte private key. -/
def edSecret (key : List Byte) : Nat × List Byte :=
  let h := sha512 key
  let a := ofLE (h.take 32)
  (a % 2 ^ 254 / 8 * 8 + 2 ^ 254, h.drop 32)

/-- The public key of a private key (R588). -/
def edPublic (key : List Byte) : List Byte := edEnc (edMul 255 (edSecret key).1 edBase)

/-- The 64-byte Ed25519 signature of a message (R590). -/
def edSign (key msg : List Byte) : List Byte :=
  let (a, pre) := edSecret key
  let r := ofLE (sha512 (pre ++ msg)) % edL
  let rEnc := edEnc (edMul 253 r edBase)
  let k := ofLE (sha512 (rEnc ++ edEnc (edMul 255 a edBase) ++ msg)) % edL
  rEnc ++ toLE 32 ((r + k * a) % edL)

end Sys2Proof.Machine
end

