-- ==== Sys2Proof/Machine/Metrology.lean ====
section
/-!
DEFINITION. The metrology partition (chapter 19): what the main partition tells it, its records and their memory, its
error state, and its commands.
-/
namespace Sys2Proof.Machine

/-- Change the metrology partition. -/
def Dev.setMet (d : Dev) (f : Met → Met) : Dev := { d with met := f d.met }

/-- Crystal periods since this power-on (R590): the crystal runs at 32.768 kHz against 1.25 GHz core cycles. -/
def Dev.mtime (d : Dev) : Nat :=
  if d.met.on && d.met.xtal then d.met.per + (d.clk.up - d.met.perAt) * 32768 / 1250000000 else d.met.per

/-- energy_nj() (R581). The error bound of R584 is on what is delivered, not on this sum. -/
def energyNj (acc : Nat) : Nat := (acc + 128000) / 256000

/-- The verified condition (R589). -/
def Met.verified (m : Met) : Bool := m.grade && m.ec == m.factoryEc && m.param.crc == m.factoryCrc

/-- MET_LED (R598): off without VDD_MET, at 4 Hz in the error state, else at 1 Hz while the seal is open, else steady. -/
def Met.led (m : Met) : Led :=
  if !m.on then .off else if m.errs ≠ 0 then .blink4Hz else if m.sealOpen then .blink1Hz else .steady

/-- The 256 bytes of a record (R590): `flags` are bits 0 to 4 of FLAGS, `body` its bytes 56 to 191. -/
def Dev.metBytes (d : Dev) (typ flags : Nat) (body : List Byte) : List Byte :=
  let m := d.met
  let fl := flags + 32 * b2n m.verified + 64 * b2n m.grade + 128 * b2n (!m.sealOpen)
  let head := toLE 4 0x4D455431 ++ toLE 1 typ ++ toLE 1 fl ++ toLE 2 1 ++ toLE 8 m.nextSeq ++ toLE 8 d.top.otpSerial ++
    toLE 8 d.mtime ++ toLE 4 m.boot ++ toLE 2 m.ec ++ toLE 2 m.param.ver ++ toLE 4 m.param.crc ++ toLE 4 m.romcs ++ toLE 8 m.devTime
  let msg := padTo 192 (head ++ padTo 136 body)
  msg ++ (if m.noSign then List.replicate 64 0 else edSign m.key msg)

/-- Log what the main partition sees of the partition's mirror (R599, R601). -/
def Dev.metEvent (d : Dev) (code : Nat) (det : List Byte) : Dev := if d.up then d.event code det else d

/-- Whether the record memory can take the next record (R593, R594, R599). -/
def Met.nvTakes (m : Met) : Bool := m.nvOk && !bit m.errs 6 && decide (m.nv.pages.length < m.nv.cap)

/-- Write one record into the memory; NV_LOW is set below 1,024 free pages (R594). -/
def Dev.nvWrite (d : Dev) (seq : Nat) (page : List Byte) : Dev :=
  let d := d.setMet fun m => { m with nv := { m.nv with pages := m.nv.pages ++ [page] }, wrote := some seq }
  let free := d.met.nv.cap - d.met.nv.pages.length
  if free < 1024 && !d.met.nvLow then (d.setMet fun m => { m with nvLow := true }).metEvent 0xF205 (toLE 4 free) else d

/-- Make a record and store it: in the memory, or in partition SRAM while the memory takes none; a 65th waiting record
ends measurement (R593, R599). -/
def Dev.metStore (d : Dev) (typ flags : Nat) (body : List Byte) : Dev :=
  let page := d.metBytes typ flags body
  let seq := d.met.nextSeq
  let d := d.setMet fun m => { m with nextSeq := seq + 1 }
  if d.met.sram.isEmpty && d.met.nvTakes then d.nvWrite seq page
  else if d.met.sram.length < 64 then d.setMet fun m => { m with sram := m.sram ++ [(seq, page)] }
  else d.setMet fun m => { m with measuring := false }

/-- Enter the error state on a cause (R599): MET_ERR, an ERROR record, ERROR in the open layers' and build's records,
and vector 58 and event 0xF201 from the main partition. -/
def Dev.metCause (d : Dev) (c detail : Nat) : Dev :=
  if bit d.met.errs c then d
  else
    let d := d.setMet fun m => { m with
      errs := m.errs + 2 ^ c
      layers := m.layers.map fun l => { l with err := true, causes := l.causes ||| 2 ^ c }
      build := { m.build with err := true } }
    let d := d.metStore 6 0 (toLE 4 (2 ^ c) ++ toLE 4 detail)
    if d.up then (d.msix 58).event 0xF201 (toLE 4 d.met.errs) else d

/-- A cause clears; with the last one the error state ends (R599). -/
def Dev.metClear (d : Dev) (c : Nat) : Dev :=
  if bit d.met.errs c then
    let d := d.setMet fun m => { m with errs := m.errs - 2 ^ c }
    if d.met.errs = 0 then d.metEvent 0xF202 [] else d
  else d

/-- Make and store a record, entering the error state where the memory fails it or is full (R594, R599). -/
def Dev.metRecord (d : Dev) (typ flags : Nat) (body : List Byte) : Dev :=
  let d := d.metStore typ flags body
  if !d.met.nvOk then d.metCause 4 d.met.nv.pages.length
  else if d.met.nv.cap ≤ d.met.nv.pages.length then d.metCause 5 0
  else d

/-! ### What the main partition sends (R579) -/

/-- Every item carries the device time. -/
def Dev.metSees (d : Dev) : Dev := d.setMet fun m => if m.on then { m with devTime := d.ns } else m

/-- Whether the partition runs and measures. -/
def Dev.metOn (d : Dev) : Bool := d.met.on && d.met.measuring

/-- Layer begin (R579, R583); causes POISON and ORDER clear (R599). -/
def Dev.metBegin (d : Dev) (num tag : Nat) : Dev :=
  if !d.met.on then d
  else
    let d := ((d.metSees.metClear 0).metClear 7)
    d.setMet fun m => { m with layers := m.layers ++ [{ num, tag, build := m.build.isOpen }] }

/-- A charge message (R579, R581, R582); poisoned, it enters the error state and is measured as it came (R475, R599;
DESIGN CHOICE). -/
def Dev.metCharge (d : Dev) (t tick num : Nat) (charges : List Nat) (rail : Nat) (poison : Bool) : Dev :=
  if !d.metOn then d
  else
    let d := d.metSees
    let d := if poison then d.metCause 0 t else d
    let d := match nth d.met.lastTick t none with
      | some x => if tick < x then d.metCause 7 t else d
      | none => d
    let m := d.met
    let e := sumN (charges.mapIdx fun k q => (q * rail * nth m.param.k (8 * t + k) 0 + 2 ^ 22) >>> 23)
    let uncal := nth m.param.serials t 0 == 0 || nth m.tser t 0 != nth m.param.serials t 0
    let oor := decide (rail < m.param.railMin) || decide (m.param.railMax < rail)
    let here := charges.any (· != 0) && m.xtal
    let p := d.mtime
    let known := m.layers.any (·.num == num)
    let addL := fun (l : MetLayer) =>
      { l with
        acc := l.acc + e, msgs := l.msgs + 1
        uncal := if uncal then l.uncal ||| 2 ^ t else l.uncal
        oor := l.oor + b2n oor
        expo := if here && l.lastPer != some p then l.expo + 1 else l.expo
        lastPer := if here then some p else l.lastPer }
    let b := m.build
    let build := if b.isOpen then
        { b with
          acc := b.acc + e, stray := b.stray + b2n (!known)
          uncal := b.uncal || uncal, oor := b.oor || oor
          expo := if here && b.lastPer != some p then b.expo + 1 else b.expo
          lastPer := if here then some p else b.lastPer }
      else b
    d.setMet fun m => { m with
      layers := if known then m.layers.map fun l => if l.num = num then addL l else l
                else m.layers.mapIdx fun i l => if i = 0 then { l with stray := l.stray + 1 } else l
      build, lastTick := put 16 none m.lastTick t fun _ => some tick }

/-- A ledger snapshot (R579); poisoned, it enters the error state (R612, R599). -/
def Dev.metSnapshot (d : Dev) (num : Nat) (cnt : List Nat) (tick : Nat) (poison : Bool) : Dev :=
  if !d.metOn then d
  else
    let d := d.metSees
    let d := if poison then d.metCause 0 0 else d
    d.setMet fun m => { m with layers := m.layers.map fun l => if l.num = num then { l with cnt, cntTick := tick } else l }

/-- The body of a LAYER record (R591). -/
def Dev.layerBody (d : Dev) (l : MetLayer) : List Byte :=
  let b := d.met.build
  let g := fun i => toLE 8 (nth l.cnt i 0)
  toLE 4 l.num ++ toLE 3 l.tag ++ toLE 1 0 ++
    (if l.build then toLE 4 b.num ++ toLE 4 b.tag else toLE 4 0xFFFFFFFF ++ toLE 4 0) ++
    toLE 8 (energyNj l.acc) ++ toLE 8 l.expo ++ toLE 8 l.msgs ++
    g cEXP ++ g cSTR ++ g cWIT ++ g cCHF ++ g cPOI ++ g cUNC ++ toLE 8 l.cntTick ++
    toLE 2 l.uncal ++ toLE 4 l.oor ++ toLE 4 l.stray ++ toLE 4 l.causes

/-- The build closes with its record (R591, R596). -/
def Dev.metCloseBuild (d : Dev) : Dev :=
  let b := d.met.build
  let body := toLE 4 b.num ++ toLE 4 b.tag ++ toLE 8 (energyNj b.acc) ++ toLE 8 b.expo ++ toLE 4 b.layers ++ toLE 4 b.interrupted ++
    toLE 8 (b.firstSeq.getD 0) ++ toLE 8 (b.lastSeq.getD 0) ++ toLE 4 b.stray
  let seq := d.met.nextSeq
  let d := d.metRecord 2 (b2n b.err + 2 * b2n b.uncal + 4 * b2n b.oor + 16 * b2n b.part) body
  let d := { d with ldg := { d.ldg with buildOpen := false } }
  d.setMet fun m => { m with build := { m.build with isOpen := false, endSeq := some seq } }

/-- MET_BUILD_END proceeds once no layer is open, and completes once its record is in the memory (R596). -/
def Dev.metSettle (d : Dev) : Dev :=
  match d.met.build.endBy with
  | none => d
  | some x =>
    let d := if d.met.build.isOpen && d.met.layers.isEmpty then d.metCloseBuild else d
    match d.met.build.endSeq, d.met.wrote with
    | some s, some w =>
      if s ≤ w then
        (d.setMet fun m => { m with build := { m.build with endBy := none, endSeq := none } }).endCmd x stOK []
      else d
    | _, _ => d

/-- A layer's record is written: at layer final, or interrupted by a main reset (R583, R592). -/
def Dev.metCloseLayer (d : Dev) (num : Nat) (interrupted : Bool) : Dev :=
  match d.met.layers.find? (·.num == num) with
  | none => d
  | some l =>
    let seq := d.met.nextSeq
    let flags := b2n l.err + 2 * b2n (l.uncal != 0) + 4 * b2n (decide (0 < l.oor)) + 8 * b2n interrupted + 16 * b2n l.part
    let d := d.setMet fun m => { m with
      layers := m.layers.filter (·.num != num)
      lastE := energyNj l.acc
      build := if l.build && m.build.isOpen then
          { m.build with
            firstSeq := some (m.build.firstSeq.getD seq), lastSeq := some seq
            layers := m.build.layers + b2n (!interrupted), interrupted := m.build.interrupted + b2n interrupted }
        else m.build }
    d.metRecord 1 flags (d.layerBody l)

/-- Layer final (R579): the final counters, as of this tick. -/
def Dev.metFinal (d : Dev) (num : Nat) (cnt : List Nat) : Dev :=
  if !d.met.on then d
  else
    let d := d.metSees.setMet fun m => { m with layers := m.layers.map fun l =>
      if l.num = num then { l with cnt, cntTick := d.top.tick } else l }
    (d.metCloseLayer num false).metSettle

/-- Main reset (R72, R579, R592): every open layer closes as interrupted with the counters of the last snapshot. -/
def Dev.metMainReset (d : Dev) : Dev :=
  if !d.met.on then d
  else
    let d := d.metSees
    ((d.met.layers.map (·.num)).foldl (fun (d : Dev) n => d.metCloseLayer n true) d).metSettle

/-! ### The partition's own commands -/

/-- The 656 bytes of an image, checked (R585, R586): the result byte, and the image where it is 0. An exhausted event
counter refuses every image (R587). -/
def Met.checkImage (m : Met) (img : List Byte) : Nat × MetParam :=
  let p : MetParam :=
    { ver := fieldLE img 5 4
      serials := (List.range 16).map fun t => fieldLE img (8 + 8 * t + 7) (8 + 8 * t)
      k := (List.range 128).map fun c => fieldLE img (136 + 4 * c + 3) (136 + 4 * c)
      railMin := fieldLE img 649 648, railMax := fieldLE img 651 650, crc := fieldLE img 655 652 }
  if 4095 ≤ m.ec then (4, p)
  else if img.length ≠ 656 ∨ fieldLE img 3 0 ≠ 0x4D455450 ∨ crc32 (img.take 652) ≠ p.crc then (1, p)
  else if p.ver ≤ m.param.ver then (2, p)
  else if fieldLE img 7 6 ≠ 0 ∨ p.railMax < p.railMin ∨ p.k.any (fun k => decide (2 ^ 24 ≤ k)) then (3, p)
  else (0, p)

/-- MET_SERVICE_POLL (R586): the 100 ms poll of the service interface while the seal is open: the byte read, and the
image it then holds. -/
def metServicePoll (ready : Nat) (img : List Byte) (dt : Nat) (d : Dev) : Dev :=
  let d := d.after dt
  if !d.met.on ∨ !d.met.sealOpen ∨ ready ≠ 1 then d
  else
    let (res, p) := d.met.checkImage img
    let d := d.send (.i2c 0x2F (toLE 1 res))
    if res ≠ 0 then d
    else
      let old := d.met.param
      let d := d.setMet fun m => { m with ec := m.ec + 1 }
      let d := d.metRecord 3 0 (toLE 4 old.crc ++ toLE 2 old.ver ++ toLE 2 0 ++ toLE 4 p.crc ++ toLE 2 p.ver ++ toLE 2 d.met.ec)
      let d := d.setMet fun m => { m with param := p }
      d.metEvent 0xF203 (toLE 2 p.ver ++ toLE 2 d.met.ec ++ toLE 4 p.crc)

/-- MET_SEAL_CHANGE (R586): the debounced seal input changes. -/
def metSealChange (isOpen : Bool) (dt : Nat) (d : Dev) : Dev :=
  let d := d.after dt
  if !d.met.on ∨ d.met.sealOpen = isOpen then d
  else
    let d := (d.setMet fun m => { m with sealOpen := isOpen }).metRecord 4 0 (toLE 1 (b2n isOpen))
    d.metEvent 0xF204 (toLE 1 (b2n isOpen))

/-- Decimal digits of a number, n of them. -/
def decDigits : (n v : Nat) → List Byte
  | 0, _ => []
  | n + 1, v => decDigits n (v / 10) ++ [BitVec.ofNat 8 (48 + v % 10)]

/-- Upper-case hexadecimal digits of a number, n of them. -/
def hexDigits : (n v : Nat) → List Byte
  | 0, _ => []
  | n + 1, v => let x := v % 16; hexDigits n (v / 16) ++ [BitVec.ofNat 8 (if x < 10 then 48 + x else 55 + x)]

/-- ASCII bytes of a text. -/
def ascii (s : String) : List Byte := s.toList.map fun c => BitVec.ofNat 8 c.toNat

/-- Energy in J shown with three decimals, from 2^-8 pJ. -/
def joules (acc : Nat) : List Byte :=
  let mj := energyNj acc / 1000000
  decDigits 9 (mj / 1000) ++ ascii "." ++ decDigits 3 (mj % 1000)

/-- The 41 bytes of a screen (R597). -/
def Dev.metScreen (d : Dev) : List Byte :=
  let m := d.met
  let shown := match m.showAt with | some a => decide (d.clk.up < a + 12500000000) | none => false
  let error := m.errs != 0 && (d.clk.up / 2500000000) % 2 == 0
  let layerAcc := match m.layers.head? with | some l => l.acc | none => m.lastE * 256000
  let layerNum := match m.layers.head? with | some l => l.num | none => m.build.layers
  if shown then
    toLE 1 1 ++ padTo 20 (ascii "SK262 MET V1.03 G" ++ decDigits 1 (b2n m.grade) ++ ascii "  ") ++
      padTo 20 (ascii "CS " ++ hexDigits 8 m.romcs ++ ascii " PV " ++ decDigits 5 m.param.ver)
  else if error then
    toLE 1 2 ++ ascii "METER ERROR         " ++ padTo 20 (ascii "ERR " ++ hexDigits 8 m.errs ++ ascii "        ")
  else
    toLE 1 0 ++ padTo 20 (ascii "BLD " ++ joules (if m.build.isOpen then m.build.acc else layerAcc) ++ ascii " J ") ++
      padTo 20 (ascii "LYR " ++ decDigits 8 layerNum ++ ascii " EC " ++ decDigits 4 m.ec)

/-- MET_DISPLAY_UPDATE (R597): one update, acknowledged or not. -/
def metDisplayUpdate (ack : Bool) (dt : Nat) (d : Dev) : Dev :=
  let d := d.after dt
  if !d.met.on then d
  else
    let s := d.metScreen
    let d := d.send (.i2c 0x2E (s ++ toLE 4 (crc32 s)))
    if ack then d.setMet fun m => { m with noAck := 0, dispAbsent := false }
    else
      let n := d.met.noAck + 1
      let d := d.setMet fun m => { m with noAck := n }
      if 3 ≤ n ∧ !d.met.dispAbsent then (d.setMet fun m => { m with dispAbsent := true }).metEvent 0xF206 [] else d

/-- MET_XTAL_STOP (R599): no crystal edge for 1 ms. -/
def metXtalStop (dt : Nat) (d : Dev) : Dev :=
  let d := d.after dt
  if !d.met.on ∨ !d.met.xtal then d
  else (d.setMet fun m => { m with per := d.mtime, xtal := false }).metCause 1 0

/-- MET_XTAL_RESTORED (R599): the crystal has run for 1 s. -/
def metXtalRestored (dt : Nat) (d : Dev) : Dev :=
  let d := d.after dt
  if !d.met.on ∨ d.met.xtal then d
  else (d.setMet fun m => { m with perAt := d.clk.up, xtal := true }).metClear 1

/-- Write waiting records into the memory while it takes them. -/
def Dev.nvFlush (d : Dev) : List (Nat × List Byte) → Dev
  | [] => d.setMet fun m => { m with sram := [] }
  | (s, r) :: rest =>
    if d.met.nvTakes then (d.nvWrite s r).nvFlush rest else d.setMet fun m => { m with sram := (s, r) :: rest }

/-- MET_NV_RETRY (R599): the retry of the record memory every 1 s; `works` says whether the memory takes writes from
here on. After a successful write cause NV clears. -/
def metNvRetry (works : Bool) (dt : Nat) (d : Dev) : Dev :=
  let d := d.after dt
  if !d.met.on then d
  else
    let d := d.setMet fun m => { m with nvOk := works }
    if works then ((d.nvFlush d.met.sram).metClear 4).metSettle else d

/-- The NV header page (R593). -/
def Dev.nvHeader (d : Dev) : List Byte :=
  let h := toLE 4 0x4D45544E ++ toLE 8 d.top.otpSerial ++ d.met.pub
  padTo 256 (h ++ toLE 4 (crc32 h))

/-- The number of the last build whose BUILD record the memory holds, 0 where it holds none (R591, R596). -/
def MetNv.lastBuild (nv : MetNv) : Nat :=
  match ((nv.pages.drop 1).filter fun p => fieldLE p 4 4 == 2).getLast? with
  | some p => fieldLE p 59 56
  | none => 0

/-- MET_POWER_ON (R588, R593, R594): the partition starts. `nv` is the memory it finds, `none` for the one it had; `rom`
says that ROMCS agrees with OTP; `otp` is the word index of an OTP read failure. Builds are numbered on from the last
BUILD record in the memory (R596), unless one is open. -/
def metPowerOn (nv : Option (List (List Byte) × Nat)) (rom : Bool) (otp : Option Nat) (dt : Nat) (d : Dev) : Dev :=
  let d := d.after dt
  if d.met.on then d
  else
    let d := d.unlatch 0x1000000 0x1100000
    let mem : MetNv := match nv with | some (p, c) => { pages := p, cap := c } | none => d.met.nv
    let key := if d.met.key.isEmpty then toLE 32 (Config.ed25519Seed 0).toNat else d.met.key
    let d := d.setMet fun m => { m with
      on := true, measuring := true, key, pub := edPublic key, romcs := Config.romChecksum.toNat
      noSign := false, boot := m.boot + 1, nv := mem, sram := [], errs := 0, nvLow := false, noAck := 0, dispAbsent := false
      showAt := none, xtal := true, per := 0, perAt := d.clk.up, devTime := 0, sealOpen := false
      lastTick := List.replicate 16 none, exported := m.exported, again := none
      build := if m.build.isOpen then m.build else { m.build with num := mem.lastBuild } }
    let found := match mem.pages.getLast? with
      | some p => if mem.pages.length ≤ 1 then none else some (fieldLE p 15 8)
      | none => none
    let header := d.nvHeader
    let gap := (mem.pages.drop 1).any fun p => p.all (· == 0xFF)
    let d := match mem.pages with
      | [] => d.setMet fun m => { m with nv := { m.nv with pages := [header] } }
      | h :: _ => if h ≠ header ∨ gap then d.metCause 6 0
                  else d.setMet fun m => { m with nextSeq := match found with | some s => s + 1 | none => m.nextSeq, wrote := found }
    let d := if rom then d else (d.metCause 2 d.met.romcs).setMet fun m => { m with noSign := true }
    let d := match otp with
      | some i => (d.metCause 3 i).setMet fun m => { m with noSign := true }
      | none => d
    d.metRecord 5 0 (toLE 8 (found.getD 0) ++ toLE 4 (d.met.nv.cap - d.met.nv.pages.length))

/-- VDD_MET_LOSS (R71, R600): the partition stops; accumulation of open layers and of the build is lost, and the next
record of such a layer carries PARTIAL. -/
def vddMetLoss (dt : Nat) (d : Dev) : Dev :=
  let d := d.after dt
  d.setMet fun m => { m with
    on := false
    layers := m.layers.map fun l => { num := l.num, tag := l.tag, build := l.build, part := true }
    build := { m.build with acc := 0, expo := 0, lastPer := none, stray := 0, part := m.build.isOpen } }

/-! ### Export and build commands (R595, R596) -/

/-- The stored record of a sequence number. -/
def Met.recOf (m : Met) (seq : Nat) : Option (List Byte) := (m.nv.pages.drop 1).find? fun p => fieldLE p 15 8 == seq

/-- The SEQ that is copied next, and whether an export asks for it (R595, R596). -/
def Met.nextCopy (m : Met) : Option (Nat × Bool) :=
  match m.again, m.wrote with
  | some (s, _, _), _ => some (s, true)
  | none, some w =>
    let s := match m.exported with | some e => e + 1 | none => 0
    if s ≤ w then some (s, false) else none
  | none, none => none

/-- The entry of a metrology record on ring 13 (R396). -/
def recEntry (st : Stamp) (dev ofs len seq ph : Nat) : List Byte :=
  padTo 64 (st.bytes ++ toLE 1 ph ++ [1, 0] ++ toLE 2 dev ++ toLE 2 0 ++ toLE 4 ofs ++ toLE 4 len ++ toLE 8 seq)

/-- A copy under MET_EXPORT has been made; with the last one the command completes (R596). -/
def Dev.metCopied (d : Dev) (s : Nat) (again : Bool) : Dev :=
  if again then
    match d.met.again with
    | some (_, last, x) =>
      if last ≤ s then (d.setMet fun m => { m with again := none }).endCmd x stOK []
      else d.setMet fun m => { m with again := some (s + 1, last, x) }
    | none => d
  else d.setMet fun m => { m with exported := some s }

/-- MET_RECORD_EXPORT (R595, R398): the next record is copied to ring 13, when the ring and its data area have space. -/
def metRecordExport (dt : Nat) (d : Dev) : Dev :=
  let d := d.after dt
  match d.met.nextCopy with
  | none => d
  | some (s, again) =>
    if !d.up ∨ !d.met.on then d
    else
      match d.met.recOf s with
      | none => d.metCopied s again
      | some bytes =>
        match d.dataOfs 13 256 with
        | none => d
        | some ofs =>
          if d.ringFree 13 = 0 then d
          else
            let st := d.stampOf 0xF
            let d := (d.countSlot 0xF).dataPut 13 ofs bytes
            (d.putEntry 13 0 0 (recEntry st d.id ofs 256 s)).metCopied s again

/-- MET_BUILD_BEGIN (R596, R615). -/
def metBuildBegin (dt : Nat) (d : Dev) : Dev :=
  (d.after dt).cmd0 0x0110 true fun d x =>
    if d.met.build.isOpen then d.reject x stBAD_MODE
    else
      let d := d.metSees.setMet fun m => { m with build := { isOpen := true, num := m.build.num + 1, tag := x.arg 15 12 } }
      ({ d with ldg := { d.ldg with buildOpen := true, buildInt := 0, buildLayers := 0, build := List.replicate 5 0 } }).complete x stOK []

/-- MET_BUILD_END (R596). -/
def metBuildEnd (dt : Nat) (d : Dev) : Dev :=
  (d.after dt).cmd0 0x0111 true fun d x =>
    if !d.met.build.isOpen then d.reject x stBAD_MODE
    else ((d.metSees.setMet fun m => { m with build := { m.build with endBy := some x } }).holdCmd x).metSettle

/-- MET_EXPORT (R596): with nothing to copy it completes at once. -/
def metExport (dt : Nat) (d : Dev) : Dev :=
  (d.after dt).cmd0 0x0112 true fun d x =>
    let first := x.arg 19 12
    match d.met.wrote with
    | some w => if first ≤ w then (d.setMet fun m => { m with again := some (first, w, x) }).holdCmd x else d.complete x stOK []
    | none => d.complete x stOK []

end Sys2Proof.Machine
end

