-- ==== Sys2Proof/Machine/Geometry.lean ====
section
/-!
DEFINITION. The exact geometry of the Threshers: record fields (R98 to R101, R111), shape transformation and
normalisation (R134, R135), areas (R136), cells of the library (R103 to R107) and nominal dose (R138).
-/
namespace Sys2Proof.Machine

/-- A field of a 64-bit record word. -/
def wf (w : BitVec 64) (hi lo : Nat) : Nat := bits w.toNat hi lo

/-- A signed 32-bit half of a record word: half 1 is [63:32], half 0 is [31:0]. -/
def ws (w : BitVec 64) (half : Nat) : Int := toS 32 (w.toNat >>> (32 * half))

/-- Word i of a record. -/
def rw (r : List (BitVec 64)) (i : Nat) : BitVec 64 := (r[i]?).getD 0

/-- A mapped and normalised shape (R135): form H, or form V with x and y exchanged. -/
structure Shape where
  cls : Nat
  v : Bool
  ylo : Int
  yhi : Int
  xlLo : Int
  xrLo : Int
  xlHi : Int
  xrHi : Int
  deriving DecidableEq, Repr

/-- An instance placement: ORIENT and offset (R101). -/
structure Place where
  orient : Nat
  dx : Int
  dy : Int
  deriving DecidableEq, Repr

/-- (x', y') of an orientation (R101). -/
def orientPt (o : Nat) (p : Int × Int) : Int × Int :=
  match o with
  | 0 => (p.1, p.2)
  | 1 => (-p.2, p.1)
  | 2 => (-p.1, -p.2)
  | 3 => (p.2, -p.1)
  | 4 => (-p.1, p.2)
  | 5 => (-p.2, -p.1)
  | 6 => (p.1, -p.2)
  | _ => (p.2, p.1)

/-- The image of a cell-local point in its parent's frame (R101). -/
def Place.pt (x : Place) (p : Int × Int) : Int × Int :=
  let q := orientPt x.orient p
  (q.1 + x.dx, q.2 + x.dy)

/-- A point mapped through a chain of placements, innermost first (R134). -/
def mapPt (ps : List Place) (p : Int × Int) : Int × Int := ps.foldl (fun p x => x.pt p) p

/-- Whether a chain of placements exchanges the axes. -/
def swaps (ps : List Place) : Bool := (ps.filter fun x => x.orient % 2 == 1).length % 2 == 1

/-- A box: x and y extents. -/
structure Box where
  x0 : Int
  y0 : Int
  x1 : Int
  y1 : Int
  deriving DecidableEq, Repr

/-- The box of two opposite corners. -/
def boxOf (a b : Int × Int) : Box := ⟨min a.1 b.1, min a.2 b.2, max a.1 b.1, max a.2 b.2⟩

/-- A box mapped through a chain of placements. -/
def Box.map (b : Box) (ps : List Place) : Box := boxOf (mapPt ps (b.x0, b.y0)) (mapPt ps (b.x1, b.y1))

/-- Whether two boxes overlap in more than an edge. -/
def Box.meets (a b : Box) : Bool := decide (a.x0 < b.x1) && decide (b.x0 < a.x1) && decide (a.y0 < b.y1) && decide (b.y0 < a.y1)

/-- Whether a box lies within another (R104). -/
def Box.within (a b : Box) : Bool := decide (b.x0 ≤ a.x0) && decide (a.x1 ≤ b.x1) && decide (b.y0 ≤ a.y0) && decide (a.y1 ≤ b.y1)

/-- Whether a coordinate fits in signed 32 bits (R102). -/
def fits32 (x : Int) : Bool := decide (-2147483648 ≤ x) && decide (x ≤ 2147483647)

/-- Whether every corner of a box fits in signed 32 bits. -/
def Box.fits (b : Box) : Bool := fits32 b.x0 && fits32 b.x1 && fits32 b.y0 && fits32 b.y1

/-- The vertices of a RECT or TRAP (R134). -/
def vertices : Geo → List (Int × Int)
  | .rect _ xlo ylo xhi yhi => [(xlo, ylo), (xhi, ylo), (xlo, yhi), (xhi, yhi)]
  | .trap _ ylo yhi a b c d => [(a, ylo), (b, ylo), (c, yhi), (d, yhi)]
  | _ => []

/-- The box of a list of points. -/
def ptsBox : List (Int × Int) → Box
  | [] => ⟨0, 0, 0, 0⟩
  | p :: r => r.foldl (fun b q => ⟨min b.x0 q.1, min b.y0 q.2, max b.x1 q.1, max b.y1 q.2⟩) ⟨p.1, p.2, p.1, p.2⟩

/-- The normalised form of a mapped RECT or TRAP (R135); `sw` says that its parallel edges became vertical. -/
def normalise (cls : Nat) (sw : Bool) (p : List (Int × Int)) : Shape :=
  let g := fun (i : Nat) => let q := nth p i (0, 0); if sw then (q.2, q.1) else q
  let a := g 0
  let b := g 1
  let c := g 2
  let e := g 3
  if a.2 < c.2 then ⟨cls, sw, a.2, c.2, min a.1 b.1, max a.1 b.1, min c.1 e.1, max c.1 e.1⟩
  else ⟨cls, sw, c.2, a.2, min c.1 e.1, max c.1 e.1, min a.1 b.1, max a.1 b.1⟩

/-- The shape of a RECT or TRAP under a chain of placements (R134, R135); a mapped RECT is always form H. -/
def shapeOf (ps : List Place) (g : Geo) : Option Shape :=
  match g with
  | .rect cls .. =>
    let b := ptsBox ((vertices g).map (mapPt ps))
    some ⟨cls, false, b.y0, b.y1, b.x0, b.x1, b.x0, b.x1⟩
  | .trap cls .. => some (normalise cls (swaps ps) ((vertices g).map (mapPt ps)))
  | _ => none

/-- The integral of R136: (n, m) with the value n / (2 × dy × m). -/
def edgeIntegral (xa xb ylo dy px0 ya yb : Int) : Int × Int :=
  let dx := xb - xa
  let top := 64 * dy
  let va := (xa - px0) * dy + dx * (ya - ylo)
  let vb := va + dx * (yb - ya)
  let ca := clampI 0 top va
  if dx = 0 then (2 * ca * (yb - ya), 1)
  else
    let cb := clampI 0 top vb
    let ka := ca * ca + 128 * dy * max (va - top) 0
    let kb := cb * cb + 128 * dy * max (vb - top) 0
    if 0 < dx then (kb - ka, dx) else (ka - kb, -dx)

/-- The exact area of a form-H shape in the pixel at (px0, qy0): numerator and denominator (R136). -/
def areaFrac (s : Shape) (px0 qy0 : Int) : Int × Int :=
  let ya := max s.ylo qy0
  let yb := min s.yhi (qy0 + 64)
  if yb ≤ ya then (0, 2)
  else
    let dy := s.yhi - s.ylo
    let l := edgeIntegral s.xlLo s.xlHi s.ylo dy px0 ya yb
    let r := edgeIntegral s.xrLo s.xrHi s.ylo dy px0 ya yb
    (r.1 * l.2 - l.1 * r.2, 2 * dy * l.2 * r.2)

/-- The area of a shape in a pixel in units of 1/4,096 pixel², rounded half up (R136). -/
def area (s : Shape) (px0 qy0 : Int) : Nat :=
  let f := if s.v then areaFrac s qy0 px0 else areaFrac s px0 qy0
  ((f.1 + f.2 / 2) / f.2).toNat

/-- Whether a shape covers a pixel in part (R119). -/
def partly (s : Shape) (px0 qy0 : Int) : Bool :=
  let f := if s.v then areaFrac s qy0 px0 else areaFrac s px0 qy0
  decide (0 < f.1) && decide (f.1 < 4096 * f.2)

/-- Whether a shape covers any of a pixel. -/
def meetsPix (s : Shape) (px0 qy0 : Int) : Bool :=
  decide (0 < (if s.v then areaFrac s qy0 px0 else areaFrac s px0 qy0).1)

/-- The box of a normalised shape in layout coordinates. -/
def Shape.box (s : Shape) : Box :=
  let a := min s.xlLo s.xlHi
  let b := max s.xrLo s.xrHi
  if s.v then ⟨s.ylo, a, s.yhi, b⟩ else ⟨a, s.ylo, b, s.yhi⟩

/-! ### Record fields -/

/-- The fields of a TRAP, RECT, REF or AREF record after its reserved bits were checked; an error is 0x3103 for a
reserved bit and 0x3105 for a field out of range (R88, R98 to R100). DESIGN CHOICE: a REF or AREF of cell 0 is a field out
of range (R126 could also give it 0x310B). -/
def geoFields (r : List (BitVec 64)) : Except Nat Geo :=
  let h := rw r 0
  match wf h 7 0 with
  | 0x31 =>
    if wf h 63 28 ≠ 0 then .error 0x3103
    else
      let xlo := ws (rw r 1) 0
      let ylo := ws (rw r 1) 1
      let xhi := ws (rw r 2) 0
      let yhi := ws (rw r 2) 1
      if xlo < xhi ∧ ylo < yhi then .ok (.rect (wf h 27 24) xlo ylo xhi yhi) else .error 0x3105
  | 0x30 =>
    if wf h 63 28 ≠ 0 then .error 0x3103
    else
      let ylo := ws (rw r 1) 0
      let yhi := ws (rw r 1) 1
      let a := ws (rw r 2) 0
      let b := ws (rw r 2) 1
      let c := ws (rw r 3) 0
      let e := ws (rw r 3) 1
      if ylo < yhi ∧ a ≤ b ∧ c ≤ e ∧ (a < b ∨ c < e) then .ok (.trap (wf h 27 24) ylo yhi a b c e) else .error 0x3105
  | 0x32 =>
    if wf h 63 56 ≠ 0 ∨ wf h 31 27 ≠ 0 then .error 0x3103
    else if wf h 55 32 = 0 then .error 0x3105
    else .ok (.aref (wf h 55 32) (wf h 26 24) (ws (rw r 1) 0) (ws (rw r 1) 1) 1 1 0 0)
  | _ =>
    if wf h 63 56 ≠ 0 ∨ wf h 31 27 ≠ 0 ∨ wf (rw r 2) 63 32 ≠ 0 then .error 0x3103
    else if wf h 55 32 = 0 ∨ wf (rw r 2) 15 0 = 0 ∨ wf (rw r 2) 31 16 = 0 then .error 0x3105
    else .ok (.aref (wf h 55 32) (wf h 26 24) (ws (rw r 1) 0) (ws (rw r 1) 1) (wf (rw r 2) 15 0) (wf (rw r 2) 31 16)
      (ws (rw r 3) 0) (ws (rw r 3) 1))

/-- LEN of a TRAP, RECT, REF or AREF (R87). -/
def geoLen : Nat → Option Nat
  | 0x30 => some 4 | 0x31 => some 3 | 0x32 => some 2 | 0x33 => some 4 | _ => none

/-- The body records of a cell (R103): TRAP, RECT, REF and AREF in any order; an ill-formed one gives none. -/
def bodyRecs : Nat → List (BitVec 64) → Option (List Geo)
  | _, [] => some []
  | 0, _ => none
  | n + 1, w :: ws' =>
    match geoLen (wf w 7 0) with
    | none => none
    | some len =>
      if wf w 23 8 ≠ len ∨ (w :: ws').length < len then none
      else
        match geoFields ((w :: ws').take len), bodyRecs n ((w :: ws').drop len) with
        | .ok g, some r => some (g :: r)
        | _, _ => none

/-! ### The cell library (R103 to R108) -/

/-- 64-bit words of a byte list. -/
def words64 : Nat → List Byte → List (BitVec 64)
  | 0, _ => []
  | _, [] => []
  | n + 1, bs => BitVec.ofNat 64 (ofLE (bs.take 8)) :: words64 n (bs.drop 8)

/-- What a library lookup finds (R105). -/
inductive CellRes where
  | undefined                                     -- 0x310B
  | bad                                           -- 0x310D
  | poisoned
  | found (box : Box) (addr bodyWords : Nat)
  deriving DecidableEq, Repr

/-- A Thresher. -/
def Dev.thr (d : Dev) (t : Nat) : Thresher := nth d.sheaf.threshers t {}

/-- Change a Thresher. -/
def Dev.setThr (d : Dev) (t : Nat) (f : Thresher → Thresher) : Dev :=
  { d with sheaf := { d.sheaf with threshers := put 17 {} d.sheaf.threshers t f } }

/-- The words of a 256-byte line that a cell cache of 512 sets and 8 ways holds. R147 does not say which set a line maps
to: DESIGN CHOICE, its number modulo 512. -/
def cacheLine? (cache : List (Nat × List (Nat × List (Nat × Bool)))) (line : Nat) : Option (List (Nat × Bool)) :=
  (((getKey (line % 512) cache).getD []).find? (·.1 == line)).map (·.2)

/-- Put a line first in its set; the ninth line of a set, the least recently used, leaves it (R147). -/
def cachePut (cache : List (Nat × List (Nat × List (Nat × Bool)))) (line : Nat) (ws : List (Nat × Bool)) :
    List (Nat × List (Nat × List (Nat × Bool))) :=
  insKey (line % 512) (((line, ws) :: ((getKey (line % 512) cache).getD []).filter (·.1 != line)).take 8) cache

/-- A Thresher begins a block or a rebuild of a layer: its cache is emptied where it holds another layer's lines, and the
spare's where the band is another one (R148). -/
def Dev.cacheBegin (d : Dev) (t lseq band : Nat) : Dev :=
  d.setThr t fun th =>
    if th.lseq != some lseq || (t == 16 && th.cacheBand != band) then { th with lseq := some lseq, cacheBand := band, cache := [] }
    else { th with cacheBand := band }

/-- Fetch one 256-byte line of a cell library (R147). -/
def Dev.fillLine (d : Dev) (rq : Rq) (line : Nat) : List (Nat × Bool) × Dev :=
  d.hbmWords rq (256 * line) 16

/-- Words lo to hi of a line through the cell cache of Thresher t, its hit or miss counted (R147, R166); a poisoned word
among them is refetched once with its line (R149). -/
def Dev.cacheRead (d : Dev) (t : Nat) (rq : Rq) (line lo hi : Nat) : Option (List (Nat × Bool)) × Dev :=
  let bad := fun (ws : List (Nat × Bool)) => ((ws.drop lo).take (hi + 1 - lo)).any (·.2)
  let (ws, d) := match cacheLine? (d.thr t).cache line with
    | some ws => (ws, d.bump (Reg.THR_n_CHIT t))
    | none => (d.bump (Reg.THR_n_CMISS t)).fillLine rq line
  let (ws, d) := if bad ws then d.fillLine rq line else (ws, d)
  let d := d.setThr t fun th => { th with cache := cachePut th.cache line ws }
  (if bad ws then none else some ws, d)

/-- The bytes of the lines of a list through the cell cache, those outside [a, a + n) unused. -/
def Dev.cacheLines (d : Dev) (t : Nat) (rq : Rq) (a n : Nat) : List Nat → Option (List Byte) × Dev
  | [] => (some [], d)
  | l :: r =>
    let lo := if l = a / 256 then a % 256 / 16 else 0
    let hi := if l = (a + n - 1) / 256 then (a + n - 1) % 256 / 16 else 15
    match d.cacheRead t rq l lo hi with
    | (none, d) => (none, d)
    | (some ws, d) =>
      match d.cacheLines t rq a n r with
      | (none, d) => (none, d)
      | (some bs, d) => (some (ws.flatMap (fun (w : Nat × Bool) => toLE 16 w.1) ++ bs), d)

/-- A read by a Thresher of library words, with its one refetch (R149): through the cell cache of Thresher `cache`, or
from HBM3E where none is named. -/
def Dev.libRead (d : Dev) (cache : Option Nat) (rq : Rq) (a n : Nat) : Option (List (BitVec 64)) × Dev :=
  match cache with
  | some t =>
    if n = 0 then (some [], d)
    else
      match d.cacheLines t rq a (8 * n) ((List.range ((a + 8 * n - 1) / 256 - a / 256 + 1)).map (· + a / 256)) with
      | (none, d) => (none, d)
      | (some bs, d) => (some (words64 n (bs.drop (a % 256))), d)
  | none =>
    let ((bs, p), d) := d.hbmRead rq a (8 * n)
    if p then
      let ((bs, p), d) := d.hbmRead rq a (8 * n)
      if p then (none, d) else (some (words64 n bs), d)
    else (some (words64 n bs), d)

/-- Look up a cell: the index entry, then the CELL_DEF header (R103, R105). -/
def Dev.cell (d : Dev) (cache : Option Nat) (rq : Rq) (lib limit c : Nat) : CellRes × Dev :=
  if limit ≤ c then (.undefined, d)
  else
    match d.libRead cache rq (lib + 8 * c) 1 with
    | (none, d) => (.poisoned, d)
    | (some ws', d) =>
      let e := rw ws' 0
      if wf e 63 63 = 0 then (.undefined, d)
      else if wf e 62 35 ≠ 0 ∨ wf e 34 0 % 8 ≠ 0 then (.bad, d)
      else
        match d.libRead cache rq (wf e 34 0) 4 with
        | (none, d) => (.poisoned, d)
        | (some h, d) =>
          let w0 := rw h 0
          if wf w0 7 0 ≠ 0x20 ∨ wf w0 23 8 ≠ 4 ∨ wf w0 63 56 ≠ 0 ∨ wf w0 31 24 ≠ 0 ∨ wf (rw h 3) 63 32 ≠ 0 then (.bad, d)
          else if wf w0 55 32 ≠ c then (.undefined, d)
          else
            let b : Box := ⟨ws (rw h 1) 0, ws (rw h 1) 1, ws (rw h 2) 0, ws (rw h 2) 1⟩
            if b.x1 < b.x0 ∨ b.y1 < b.y0 then (.bad, d)
            else (.found b (wf e 34 0) (wf (rw h 3) 31 0), d)

/-- The body of a cell: its records, none where one is ill-formed, and whether it arrived poisoned. -/
def Dev.cellBody (d : Dev) (cache : Option Nat) (rq : Rq) (addr n : Nat) : (Option (List Geo) × Bool) × Dev :=
  match d.libRead cache rq (addr + 32) n with
  | (none, d) => ((none, true), d)
  | (some ws', d) => ((bodyRecs n ws', false), d)

/-- Indexes i below n for which [lo + i × s, hi + i × s] overlaps [r0, r1]. -/
def hitRange (n : Nat) (s lo hi r0 r1 : Int) : List Nat :=
  if s = 0 then (if lo < r1 ∧ r0 < hi then List.range n else [])
  else
    let (a, b) := if 0 < s then (Int.fdiv (r0 - hi) s + 1, -(Int.fdiv (lo - r1) s) - 1)
                  else (Int.fdiv (lo - r1) (-s) + 1, -(Int.fdiv (r0 - hi) (-s)) - 1)
    let a := max a 0
    let b := min b ((n : Int) - 1)
    if b < a then [] else (List.range (b - a + 1).toNat).map fun i => (a.toNat + i)

/-- What an expansion of a block gathers: the shapes that meet it, the instance visits (R119), and the condition that stopped it: an event code, or 0 for input poisoned after its refetch (R149). -/
structure Gather where
  shapes : List Shape := []
  visits : Nat := 0
  err : Option Nat := none
  deriving DecidableEq, Repr

/-- The library being read: the cell cache it is read through, requester, base and limit. -/
structure LibRef where
  cache : Option Nat
  rq : Rq
  base : Nat
  limit : Nat
  deriving DecidableEq, Repr

/-- The placement of instance (i, j) of an AREF (R100). -/
def instPlace (o : Nat) (dx dy px py : Int) (i j : Nat) : Place := ⟨o, dx + i * px, dy + j * py⟩

/-- The box of an AREF's instances in its parent's frame: instance (0, 0) joined with instance (NX − 1, NY − 1). -/
def arefBox (b : Box) (o : Nat) (dx dy : Int) (nx ny : Nat) (px py : Int) : Box :=
  let p := b.map [instPlace o dx dy px py 0 0]
  let q := b.map [instPlace o dx dy px py (nx - 1) (ny - 1)]
  ⟨min p.x0 q.x0, min p.y0 q.y0, max p.x1 q.x1, max p.y1 q.y1⟩

/-- Gather the shapes of a list of records that meet the region, placed by a chain of placements (innermost first).
`depth` is the depth of these records (R107), `inside` the box of the cell they belong to (R104), `fuel` bounds the
nesting. -/
def gather (lib : LibRef) (region : Box) : (fuel : Nat) → (depth : Nat) → (inside : Option Box) → (ps : List Place) →
    List Geo → Gather × Dev → Gather × Dev
  | 0, _, _, _, _, (g, d) => ({ g with err := some 0x310C }, d)
  | fuel + 1, depth, inside, ps, recs, gd =>
    recs.foldl (fun (gd : Gather × Dev) rec_ =>
      let (g, d) := gd
      if g.err.isSome then gd
      else
        match rec_ with
        | .raw .. => gd
        | .aref c o dx dy nx ny px py =>
          match d.cell lib.cache lib.rq lib.base lib.limit c with
          | (.undefined, d) => ({ g with err := some 0x310B }, d)
          | (.bad, d) => ({ g with err := some 0x310D }, d)
          | (.poisoned, d) => ({ g with err := some 0 }, d)
          | (.found box addr n, d) =>
            let outside := match inside with
              | some b => !(arefBox box o dx dy nx ny px py).within b
              | none => false
            if outside then ({ g with err := some 0x310D }, d)
            else
              let first := box.map (instPlace o dx dy px py 0 0 :: ps)
              let stepOf := fun (v : Int × Int) => let a := mapPt ps v; let z := mapPt ps (0, 0); (a.1 - z.1, a.2 - z.2)
              let si := stepOf (px, 0)
              let sj := stepOf (0, py)
              let sw := swaps ps
              let is_ := if sw then hitRange nx si.2 first.y0 first.y1 region.y0 region.y1
                         else hitRange nx si.1 first.x0 first.x1 region.x0 region.x1
              let js := if sw then hitRange ny sj.1 first.x0 first.x1 region.x0 region.x1
                        else hitRange ny sj.2 first.y0 first.y1 region.y0 region.y1
              if is_.isEmpty || js.isEmpty then (g, d)
              else if 9 ≤ depth + 1 && n != 0 then ({ g with err := some 0x310C }, d)
              else
                match d.cellBody lib.cache lib.rq addr n with
                | ((_, true), d) => ({ g with err := some 0 }, d)
                | ((none, _), d) => ({ g with err := some 0x310D }, d)
                | ((some body, _), d) =>
                  js.foldl (fun gd j => is_.foldl (fun (gd : Gather × Dev) i =>
                    let (g, d) := gd
                    if g.err.isSome then gd
                    else
                      let p := instPlace o dx dy px py i j
                      let ib := box.map (p :: ps)
                      let off := mapPt ps (p.dx, p.dy)
                      if !(ib.fits && fits32 off.1 && fits32 off.2) then ({ g with err := some 0x310C }, d)
                      else gather lib region fuel (depth + 1) (some box) (p :: ps) body ({ g with visits := g.visits + 1 }, d)) gd) (g, d)
        | shape =>
          let local_ := ptsBox (vertices shape)
          let outside := match inside with
            | some b => !local_.within b
            | none => false
          if outside then ({ g with err := some 0x310D }, d)
          else
            let pts := (vertices shape).map (mapPt ps)
            let b := ptsBox pts
            if !b.meets region then gd
            else if !b.fits then ({ g with err := some 0x310C }, d)
            else
              match shapeOf ps shape with
              | some s => ({ g with shapes := s :: g.shapes }, d)
              | none => gd) gd

/-! ### Nominal dose (R138) -/

/-- Add values into a run of a line from pixel p0, each sum capped. -/
def addRun (cap : Nat) (l : List Nat) (p0 : Nat) (xs : List Nat) : List Nat :=
  l.take p0 ++ (List.zipWith (fun a b => min cap (a + b)) (l.drop p0) xs) ++ l.drop (p0 + xs.length)

/-- The pixels of a band that a shape's box meets: first pixel within the band and count. -/
def pixSpan (s : Shape) (bandX : Int) : Nat × Nat :=
  let b := s.box
  let a := clampI 0 2048 (Int.fdiv (b.x0 - bandX) 64)
  let z := clampI 0 2048 (-(Int.fdiv (bandX - b.x1) 64))
  (a.toNat, (z - a).toNat)

/-- The areas of a class over one line of a band, saturating at 4,096 (R138). -/
def classAreas (shapes : List Shape) (bandX qy0 : Int) : List Nat :=
  shapes.foldl (fun l s =>
    let (a, n) := pixSpan s bandX
    addRun 4096 l a ((List.range n).map fun i => area s (bandX + 64 * ((a + i : Nat) : Int)) qy0)) (List.replicate 2048 0)

/-- The blend of a seam pixel (R26, R138, R139). The stripes share 128 pixels (R25); a side that is not marked carries
no weights (R27), and neighbours to the north and south share no pixels (R28). -/
def blend (bw be : Bool) (p n : Nat) : Nat :=
  let n := if bw && decide (p < 128) then n - (n * (4080 - 32 * p) + 2048) / 4096 else n
  if be && decide (32640 ≤ p) then (n * (4080 - 32 * (p - 32640)) + 2048) / 4096 else n

/-- The raw runs of a band on a line: first pixel within the band and values (R113). -/
def rawRuns (recs : List Geo) (band line : Nat) : List (Nat × List Nat) :=
  recs.filterMap fun
    | .raw l0 lines pix0 cnt vals =>
      if l0 ≤ line ∧ line < l0 + lines then
        let row := (vals.drop ((line - l0) * 16 * cnt)).take (16 * cnt)
        let lo := band * 2048
        if pix0 + row.length ≤ lo ∨ lo + 2048 ≤ pix0 then none
        else if pix0 < lo then some (0, (row.drop (lo - pix0)).take 2048)
        else some (pix0 - lo, row.take (lo + 2048 - pix0))
      else none
    | _ => none

/-- The nominal dose of one line of a band (R138): areas by class, scales, raw values, blend. -/
def nominalLine (shapes : List Shape) (recs : List Geo) (scales : List Nat) (x0 y0 : Int) (bw be : Bool) (band line : Nat) :
    List Nat :=
  let bandX := x0 + 64 * ((band * 2048 : Nat) : Int)
  let qy0 := y0 + 64 * (line : Int)
  let here := shapes.filter fun s => let b := s.box; decide (b.y0 < qy0 + 64) && decide (qy0 < b.y1)
  let g := (List.range 16).foldl (fun acc k =>
    let sk := here.filter (·.cls == k)
    if sk.isEmpty then acc
    else List.zipWith (fun a ar => a + (ar * nth scales k 0 + 2048) / 4096) acc (classAreas sk bandX qy0)) (List.replicate 2048 0)
  let g := g.map (min 4095)
  let g := (rawRuns recs band line).foldl (fun l r => addRun 4095 l r.1 r.2) g
  if bw || be then g.mapIdx fun i n => blend bw be (band * 2048 + i) n else g

/-- The cost of a block in cc (R119). -/
def blockCost (shapes : List Shape) (visits : Nat) (x0 y0 : Int) (band first count : Nat) : Nat :=
  let bandX := x0 + 64 * ((band * 2048 : Nat) : Int)
  let pairs := shapes.map fun s =>
    ((List.range count).map fun i =>
      let qy0 := y0 + 64 * ((first + i : Nat) : Int)
      let b := s.box
      if b.y0 < qy0 + 64 ∧ qy0 < b.y1 then
        let (a, n) := pixSpan s bandX
        let px := (List.range n).map fun j => bandX + 64 * ((a + j : Nat) : Int)
        (b2n (px.any fun x => meetsPix s x qy0), (px.filter fun x => partly s x qy0).length)
      else (0, 0)).foldl (fun x y => (x.1 + y.1, x.2 + y.2)) (0, 0)
  let t := pairs.foldl (fun x y => (x.1 + y.1, x.2 + y.2)) (0, 0)
  32768 + t.1 + (t.2 + 3) / 4 + 4 * visits

end Sys2Proof.Machine
end

