-- ==== Sys2Proof/Machine/Blocks.lean ====
section
/-!
DEFINITION. Blocks of nominal dose: their place in the run-ahead buffer (R141, R142), whether a line may be struck
(R145), the Winnow check (R150, R151), and the failed rows of a malformed portion (R124, R125).
-/
namespace Sys2Proof.Machine

/-- The requester of Thresher t (R447, R452). -/
def rqThr (t : Nat) : Rq := ⟨16, t, 1⟩

/-- ⌈n / 64⌉: block rows of a stroke of n lines (R114). -/
def rowsOf (n : Nat) : Nat := (n + 63) / 64

/-- Lines of block row j of a stroke of n lines (R114). -/
def linesOfRow (n row : Nat) : Nat := min 64 (n - 64 * row)

/-- The slot address of line Q of a band (R142). Nothing checks that the region overlaps no other (R143). -/
def slotAddr (base band q : Nat) : Nat := base + (band * 2048 + q % 2048) * 3072

/-- A block. -/
def Dev.block? (d : Dev) (sseq band row : Nat) : Option Block :=
  d.sheaf.blocks.find? fun b => b.sseq == sseq && b.band == band && b.row == row

/-- Change a block. -/
def Dev.updBlock (d : Dev) (sseq band row : Nat) (f : Block → Block) : Dev :=
  { d with sheaf := { d.sheaf with blocks := d.sheaf.blocks.map fun b =>
      if b.sseq == sseq && b.band == band && b.row == row then f b else b } }

/-- Add or replace a block. -/
def Dev.putBlock (d : Dev) (x : Block) : Dev :=
  { d with sheaf := { d.sheaf with blocks :=
      (d.sheaf.blocks.filter fun b => !(b.sseq == x.sseq && b.band == x.band && b.row == x.row)) ++ [x] } }

/-- The stripe of a portion. -/
def Dev.stripe? (d : Dev) (n sseq : Nat) : Option Stripe := (d.portion n).stripes.find? (·.sseq == sseq)

/-- The check word of a block, once its CHECK record has been parsed (R114). -/
def Dev.checkWord (d : Dev) (sseq band row : Nat) : Option Nat :=
  match d.stripe? (band / 2) sseq with
  | some st => (st.checks.find? fun c => c.1 == row && c.2.1 == band % 2).map (·.2.2)
  | none => none

/-- Whether a block is marked not strikable under R124 (state MALFORMED of R145). -/
def Dev.malformedBlock (d : Dev) (sseq band row : Nat) : Bool :=
  d.sheaf.fails.any fun f => f.portion == band / 2 && f.sseq == sseq && decide (f.row ≤ row)

/-- Whether a line of a band may be struck: its block is STRIKABLE and the line is not waiting for a rebuild
(R145, R157). -/
def Dev.strikable (d : Dev) (sseq band line : Nat) : Bool :=
  !d.malformedBlock sseq band (line / 64) &&
  match d.block? sseq band (line / 64) with
  | some b => b.st == .strikable && !b.badLines.contains line
  | none => false

/-- Whether a line's nominal dose has been found poisoned and is not yet rebuilt: its unstruck part counts as poisoned
(R193, R608). -/
def Dev.poisonedLine (d : Dev) (band sseq line : Nat) : Bool :=
  match d.block? sseq band (line / 64) with
  | some b => b.badLines.contains line
  | none => false

/-- The values written for a line of a band. -/
def Dev.lineVals (d : Dev) (sseq band line : Nat) : List Nat :=
  match d.block? sseq band (line / 64) with
  | some b => nth b.vals (line % 64) []
  | none => []

/-- The class of a heat cell of a band's row (R241). -/
def Dev.cellClass (d : Dev) (sseq band row col : Nat) : Nat :=
  match d.block? sseq band (row / 8) with
  | some b => nth (nth b.cls (row % 8) []) col 0
  | none => 0

/-- A tile's line in the strike map (R181). -/
def Dev.mapLine? (d : Dev) (t sseq line : Nat) : Option MapLine :=
  (nth d.ra.map t []).find? fun m => m.sseq == sseq && m.line == line

/-- Change a tile's line in the strike map. -/
def Dev.updMap (d : Dev) (t sseq line : Nat) (f : MapLine → MapLine) : Dev :=
  { d with ra := { d.ra with map := put 16 [] d.ra.map t fun ms => ms.map fun m => if m.sseq == sseq && m.line == line then f m else m } }

/-- A block first becomes STRIKABLE: its lines' dose is expanded and they enter the strike map; a block that was
STRIKABLE before only takes its state again (R146, R181, R608). -/
def Dev.toStrikable (d : Dev) (sseq band row : Nat) : Dev :=
  match d.block? sseq band row, d.stroke? sseq with
  | some b, some s =>
    let d := d.updBlock sseq band row fun b => { b with st := .strikable, once := true, susp := false }
    if b.once then d
    else
      let total := sumN (b.vals.map sumN)
      let d := d.ldgStroke sseq cEXP (32768 * total)
      let lines := (List.range (linesOfRow s.n row)).map fun i => ({ sseq, line := 64 * row + i, q := s.q0 + 64 * row + i } : MapLine)
      { d with ra := { d.ra with map := put 16 [] d.ra.map band (· ++ lines) } }
  | _, _ => d

/-- Queue a rebuild (R155), unless one of this block is queued or running. -/
def Dev.queueRebuild (d : Dev) (sseq band row : Nat) (why : Why) : Dev :=
  if d.sheaf.rebuilds.any fun r => r.sseq == sseq && r.band == band && r.row == row then d
  else { d with sheaf := { d.sheaf with rebuilds := d.sheaf.rebuilds ++ [{ sseq, band, row, why }] } }

/-- The Winnow check, once the block is written and its check word is known (R150, R151). A stripe without check words
goes unchecked (R154). -/
def Dev.winnowCheck (d : Dev) (sseq band row : Nat) : Dev :=
  match d.block? sseq band row, d.checkWord sseq band row with
  | some b, some w =>
    if b.st != .checking then d
    else if b.crc = w then d.toStrikable sseq band row
    else
      let d := d.updBlock sseq band row fun b => { b with st := .reexpanding, firstCrc := b.crc }
      let d := d.bump (Reg.THR_n_WMISS b.thr)
      d.queueRebuild sseq band row .mismatch
  | _, _ => d

/-- Where a record stands (R124): its TYPE, the low 16 bits of its descriptor's count, its byte offset. -/
structure RecPos where
  typ : Nat
  index : Nat
  ofs : Nat
  deriving DecidableEq, Repr

/-- Whether (s, r) lies before (s', r') in stream order. -/
def before (s r s' r' : Nat) : Bool := decide (s < s') || (s == s' && decide (r < r'))

/-- Record a malformed condition of portion n in THR_SHF_ERR_n (R124, R130). -/
def Dev.shfErr (d : Dev) (n row code : Nat) : Dev :=
  let a := Reg.THR_SHF_ERR_n n
  let d := if d.flag a Fd.THR_SHF_ERR_n_VALID then d
    else (d.set a Fd.THR_SHF_ERR_n_VALID 1).set a Fd.THR_SHF_ERR_n_CODE (code % 4096)
  d.set a Fd.THR_SHF_ERR_n_ROW row

/-- A malformed condition of portion n (R124): logged and recorded unless an earlier row of the portion has failed; the
blocks from its row on are not strikable; `stop` ends the portion's parsing. R124 speaks of a later condition of the same
stroke: DESIGN CHOICE, a condition in an earlier stroke than the one that failed is logged and moves ROW to its row. A stroke
whose STRIPE_BEGIN the stopped portion has not parsed is never accepted (R91). -/
def Dev.malformed (d : Dev) (n code : Nat) (pos : RecPos) (sseq row : Nat) (header stop : Bool) : Dev :=
  let mine := d.sheaf.fails.filter (·.portion == n)
  let d := if mine.any fun f => !before sseq row f.sseq f.row then d
    else (d.shfErr n row code).event code (toLE 1 n ++ toLE 1 pos.typ ++ toLE 2 pos.index ++ toLE 4 pos.ofs ++ toLE 4 row)
  let d := { d with sheaf := { d.sheaf with fails :=
    (if header then List.range 8 else [n]).foldl (fun fs p =>
      if fs.any fun f => f.portion == p && f.sseq == sseq && decide (f.row ≤ row) then fs
      else fs ++ [{ portion := p, sseq, row, header := header || (d.stripe? n sseq).isNone }]) d.sheaf.fails } }
  if stop then d.updPortion n fun p => { p with stopped := true } else d

end Sys2Proof.Machine
end

