-- ==== Sys2Proof/Machine/Queues.lean ====
section
/-!
DEFINITION. Width-code queues: columns and entries (R171, R172) and replay orders (R179, R180).
-/
namespace Sys2Proof.Machine

/-- A column. Column c is pass c % 8 of tile c / 8 (R18, R31, R199). -/
def Dev.col (d : Dev) (c : Nat) : Column := nth d.ra.cols c {}

/-- Change a column. -/
def Dev.setCol (d : Dev) (c : Nat) (f : Column → Column) : Dev := { d with ra := { d.ra with cols := put 128 {} d.ra.cols c f } }

/-- A head tile port. Tile t serves band t, the pixels 2,048 t to 2,048 t + 2,047 (R16, R17). -/
def Dev.tile (d : Dev) (t : Nat) : Tile := nth d.head.tiles t {}

/-- Change a head tile port. -/
def Dev.setTile (d : Dev) (t : Nat) (f : Tile → Tile) : Dev := { d with head := { d.head with tiles := put 16 {} d.head.tiles t f } }

/-- S_t (R19). -/
def Dev.sOf (d : Dev) (t : Nat) : Nat := (d.tile t).s

/-- The largest pass spacing among the head's tiles (R22). -/
def Dev.sMax (d : Dev) : Nat := d.head.tiles.foldl (fun m t => max m t.s) 0

/-- The line that pass k of tile t strikes at stroke tick s of a stroke of n lines, none where the column is idle (R20). -/
def Dev.lineAt (d : Dev) (t k n s : Nat) : Option Nat :=
  let o := k * d.sOf t
  if s < o ∨ n ≤ s - o then none else some (s - o)

/-- The last stroke tick of a stroke of n lines (R22). -/
def Dev.lastTick (d : Dev) (n : Nat) : Nat := n - 1 + 7 * d.sMax

/-- The entry of a column for a stroke tick of a stroke. -/
def Dev.entryAt (d : Dev) (c sseq s : Nat) : Option Entry := (d.col c).queue.find? fun e => e.sseq == sseq && e.tick == s

/-- A replay order (R179, R180): the entries that `p` picks, by column, become stale; one event 0x4C04 where there is
any. Reasons: 0 heat, 1 boundary change, 2 arming, 3 re-share. -/
def Dev.orderReplay (d : Dev) (reason : Nat) (p : Nat → Entry → Bool) : Dev :=
  let counts := d.ra.cols.mapIdx fun c x => (x.queue.filter (p c)).length
  let n := sumN counts
  if n = 0 then d
  else
    let mark := fun (c : Nat) (x : Column) =>
      { x with queue := x.queue.map fun e => if p c e then { e with stale := true, rearm := e.rearm || reason == 2 } else e }
    let d := { d with ra := { d.ra with cols := d.ra.cols.mapIdx mark } }
    d.event 0x4C04 (toLE 1 reason ++ toLE 1 0 ++ toLE 2 (counts.filter (· != 0)).length ++ toLE 4 n)

/-- The correction epoch moves on (R172); the entries of the following stroke are replayed (R177). -/
def Dev.bumpEpoch (d : Dev) : Dev :=
  let d := { d with ra := { d.ra with epoch := d.ra.epoch + 1 } }
  d.orderReplay 1 fun _ _ => true

end Sys2Proof.Machine
end

