-- ==== Sys2Proof/Machine/Heat.lean ====
section
/-!
DEFINITION. The heat memory (chapter 07): decay, segments, seeding, deposits, heat-factor fetches, assimilation, seam
exchange and parameter changes.
-/
namespace Sys2Proof.Machine

/-! ### Arithmetic (R234, R238, R242, R245) -/

/-- Heat time of a device time in ns: bits [41:10] (R230). -/
def heatTime (ns : Nat) : Nat := (ns >>> 10) % 2 ^ 32

/-- gap(): heat time units from one time to another, 0 where the second is not later (R234). -/
def gap (a b : Nat) : Nat :=
  let x := (b + 2 ^ 32 - a % 2 ^ 32) % 2 ^ 32
  if x < 2 ^ 31 then x else 0

/-- decay_factor(): 0 to 2^32 (R234). -/
def decayFactor (delta : Nat) (tab : List Nat) : Nat :=
  (List.range 32).foldl (fun f i => if delta.testBit i then (f * nth tab i 0xFFFFFFFF + 0x80000000) >>> 32 else f) (2 ^ 32)

/-- decayed() (R234). -/
def decayed (h f : Nat) : Nat := (h * f + 0x80000000) >>> 32

/-- deposit(): the rise before saturation (R238). -/
def depositRise (eSum rise : Nat) : Nat := (eSum * rise + 2 ^ 47) >>> 48

/-- factor() (R242). -/
def heatFactor (h : Nat) (tab : Nat → Nat) : Nat :=
  let i := h >>> 6
  if i = 1023 then tab 1023
  else
    let dd : Int := (tab (i + 1) : Int) - tab i
    ((tab i : Int) + asr (dd * ((h % 64 : Nat) : Int) + 32) 6).toNat % 65536

/-- assimilate() (R245): the new state from h_d, m_d and W. -/
def assimilated (hd md w : Nat) : Nat :=
  (clampI 0 65535 ((hd : Int) + asr (((md : Int) - hd) * w + 16384) 15)).toNat

/-! ### Segments (R228 to R231, R255) -/

/-- The heat memory engine's requester (R447, R452). -/
def rqHeat : Rq := ⟨17, 0, 2⟩

/-- The age sweep's requester (R447, R452). -/
def rqSweep : Rq := ⟨19, 1, 4⟩

/-- Byte address of row r of plane x (R229). Cells are 8 by 8 pixels of the stripe (R29). -/
def Dev.planeRow (d : Dev) (x r : Nat) : Nat := d.heat.base + x * d.heat.rows * 8448 + 8448 * r

/-- HEAT_ROWS with its cap (R259). -/
def rowsCap (n : Nat) : Nat := min n 1048576

/-- Split a word into eight 16-bit states. -/
def states8 (w : Nat) : List Nat := (List.range 8).map fun i => (w >>> (16 * i)) % 65536

/-- A segment was found poisoned or clean: event 0x5E05 once for each poisoned segment found (R255). -/
def Dev.segFound (d : Dev) (x r t : Nat) (bad : Bool) : Dev :=
  if !bad then { d with heat := { d.heat with poisoned := d.heat.poisoned.filter (· != (x, r, t)) } }
  else if d.heat.poisoned.contains (x, r, t) then d
  else ({ d with heat := { d.heat with poisoned := (x, r, t) :: d.heat.poisoned } }).event 0x5E05 (toLE 1 x ++ toLE 1 t ++ toLE 4 r)

/-- Read segment t of row r of plane x; a poisoned one is logged (R255). -/
def Dev.readSeg (d : Dev) (rq : Rq) (x r t : Nat) : HSeg × Dev :=
  let a := d.planeRow x r
  let (ws', d) := d.hbmWords rq (a + 512 * t) 32
  let (rc, d) := d.hbmWords rq (a + 8192 + 16 * t) 1
  let (w, bad) := nth rc 0 (0, true)
  let h := ws'.flatMap fun v => (states8 v.1).map fun s => (s, v.2 || bad)
  let s : HSeg := { h, tSeg := w % 2 ^ 32, tStrike := bits w 63 32, ltag := bits w 87 64, fresh := bit w 96, bad }
  (s, d.segFound x r t (h.any (·.2)))

/-- Words of a segment's states, eight to a word. -/
def packStates : Nat → List (Nat × Bool) → List (Nat × Bool)
  | 0, _ => []
  | n + 1, l =>
    let w := l.take 8
    (sumN (w.mapIdx fun i s => s.1 % 65536 * 2 ^ (16 * i)), w.any (·.2)) :: packStates n (l.drop 8)

/-- Write a segment back; poisoned states stay poisoned (R255). -/
def Dev.writeSeg (d : Dev) (rq : Rq) (x r t : Nat) (s : HSeg) : Dev :=
  let a := d.planeRow x r
  (d.hbmPut rq (a + 512 * t) (packStates 32 s.h)).hbmPut rq (a + 8192 + 16 * t)
    [(s.tSeg + s.tStrike * 2 ^ 32 + s.ltag * 2 ^ 64 + b2n s.fresh * 2 ^ 96, s.bad)]

/-- t_close of a layer that has closed (R236). -/
def Dev.tClose (d : Dev) (layer : Nat) : Option Nat := (d.heat.closes.find? (·.1 == layer)).map (·.2)

/-- Map every state of a segment. -/
def HSeg.mapH (s : HSeg) (f : Nat → Nat) : HSeg := { s with h := s.h.map fun x => (f x.1, x.2) }

/-- Bring a segment of a layer in progress to a time: the fast table (R235). Every word belongs to one cell of the
layer's plane (R233). -/
def Dev.bringCur (d : Dev) (s : HSeg) (t : Nat) : HSeg :=
  if s.fresh then { s with tSeg := t, fresh := false }
  else if gap s.tSeg t = 0 then s
  else { (s.mapH fun h => decayed h (decayFactor (gap s.tSeg t) d.heat.fast)) with tSeg := t }

/-- Bring a segment of a closed layer to a time: fast to t_close, then slow (R235). -/
def Dev.bringPrev (d : Dev) (s : HSeg) (close t : Nat) : HSeg :=
  if s.fresh then { s with tSeg := t, fresh := false }
  else
    let g1 := gap s.tSeg close
    let from_ := if g1 = 0 then s.tSeg else close
    let g2 := gap from_ t
    let s1 := if g1 = 0 then s else s.mapH fun h => decayed h (decayFactor g1 d.heat.fast)
    let s2 := if g2 = 0 then s1 else s1.mapH fun h => decayed h (decayFactor g2 d.heat.slow)
    { s2 with tSeg := if g2 = 0 then from_ else t }

/-- Bring a segment of heat placed before layer 0: the slow table (R237). -/
def Dev.bringWarm (d : Dev) (s : HSeg) (t : Nat) : HSeg :=
  if s.fresh then { s with tSeg := t, fresh := false }
  else if gap s.tSeg t = 0 then s
  else { (s.mapH fun h => decayed h (decayFactor (gap s.tSeg t) d.heat.slow)) with tSeg := t }

/-- The place of a stroke in the planes. -/
def Dev.hstroke? (d : Dev) (sseq : Nat) : Option HStroke := d.heat.strokes.find? (·.sseq == sseq)

/-- 0x5E02, once per stroke (R237). -/
def Dev.noSeed (d : Dev) (s : HStroke) : Dev :=
  if d.heat.strokes.any fun o => o.sseq == s.sseq && o.logged then d
  else
    let mark := fun (o : HStroke) => if o.sseq = s.sseq then { o with logged := true } else o
    let d := { d with heat := { d.heat with strokes := d.heat.strokes.map mark } }
    d.event 0x5E02 (toLE 3 s.layer ++ toLE 1 s.stroke)

/-- The states that seed a segment (R237); the access brings the segment they come from to the present and writes it
(R235). What the planes hold before the first layer is the host's writing (R233). -/
def Dev.seedStates (d : Dev) (rq : Rq) (s : HStroke) (row band now : Nat) : List (Nat × Bool) × Dev :=
  let zero := List.replicate 256 (0, false)
  let prev := (s.layer + 1) % 2
  if s.layer = 0 then
    let (g, d) := d.readSeg rq prev (s.ofs + row) band
    if g.bad then (g.h, d)
    else if g.ltag ≠ 0 then (zero, d)
    else
      let g := d.bringWarm g now
      (g.h, d.writeSeg rq prev (s.ofs + row) band g)
  else
    match d.heat.strokes.find? fun o => o.layer + 1 == s.layer && o.stroke == s.stroke && o.x0 == s.x0 && o.y0 == s.y0 with
    | some o =>
      if row < (o.n + 7) / 8 then
        let (g, d) := d.readSeg rq prev (o.ofs + row) band
        if g.bad then (g.h, d)
        else if g.ltag ≠ s.layer % 2 ^ 24 then (zero, d)
        else
          let g := d.bringPrev g ((d.tClose (s.layer - 1)).getD now) now
          (g.h.map fun x => ((x.1 * d.heat.carry + 32768) >>> 16, x.2), d.writeSeg rq prev (o.ofs + row) band g)
      else (zero, d.noSeed s)
    | none => (zero, d.noSeed s)
/-- Access a segment of the current plane, seeding it where it is unseeded (R231, R237); the flag says it was seeded. -/
def Dev.openSeg (d : Dev) (rq : Rq) (s : HStroke) (row band now : Nat) : (HSeg × Bool) × Dev :=
  let (g, d) := d.readSeg rq (s.layer % 2) (s.ofs + row) band
  if g.bad ∨ g.ltag = (s.layer + 1) % 2 ^ 24 then ((g, false), d)
  else
    let (h, d) := d.seedStates rq s row band now
    (({ h, tSeg := now, tStrike := 0, ltag := (s.layer + 1) % 2 ^ 24, fresh := false, bad := false }, true), d)

/-- Write a segment of the current plane. -/
def Dev.closeSeg (d : Dev) (rq : Rq) (s : HStroke) (row band : Nat) (g : HSeg) : Dev :=
  d.writeSeg rq (s.layer % 2) (s.ofs + row) band g

/-! ### Heat-factor fetch (R241 to R244) -/

/-- The factor table of a class; none where an entry is poisoned or no bank is in force. -/
def Dev.ftabAt (d : Dev) (cls i : Nat) : Option Nat :=
  if d.heat.ftabLoaded then nth d.heat.ftab (1024 * cls + i) none else none

/-- The factor of one cell: none where an input is poisoned (R242, R255). -/
def Dev.cellFactor (d : Dev) (cls h : Nat) : Option Nat :=
  let i := h >>> 6
  match d.ftabAt cls i, (if i = 1023 then some 0 else d.ftabAt cls (i + 1)) with
  | some a, some b => some (heatFactor h fun j => if j = i then a else b)
  | _, _ => none

/-- A heat-factor fetch for a line of a band at a predicted strike time in ns: 256 factors (R242). -/
def Dev.heatFetch (d : Dev) (s : HStroke) (line band tp : Nat) : List (Option Nat) × Dev :=
  let now := heatTime d.ns
  let row := line / 8
  let ((g, seeded), d) := d.openSeg rqHeat s row band now
  let d := if seeded then d.closeSeg rqHeat s row band g else d
  let g := if g.fresh then { g with tSeg := now } else g
  let dt := gap g.tSeg (heatTime tp)
  let f := decayFactor dt d.heat.fast
  (g.h.mapIdx fun c x => if x.2 then none
    else d.cellFactor (d.cellClass s.sseq band row c) (if dt = 0 then x.1 else decayed x.1 f), d)

/-! ### Deposits (R238 to R240) -/

/-- The energy of a pixel as deposited: scaled in a blended seam whose side exchanges (R240). -/
def Dev.depositEnergy (d : Dev) (st : Stroke) (p e : Nat) : Nat :=
  let scale := fun (w : Nat) => (e * 4096 + w / 2) / w
  if d.heat.xchgW && st.blendW && decide (p < 128) then scale (16 + 32 * p)
  else if d.heat.xchgE && st.blendE && decide (32640 ≤ p) then scale (4080 - 32 * (p - 32640))
  else e

/-- Apply one strike deposit (R239). -/
def Dev.applyDeposit (d : Dev) (x : Deposit) : Dev :=
  match d.hstroke? x.sseq, d.stroke? x.sseq with
  | some hs, some st =>
    let row := x.line / 8
    let ((g, _), d) := d.openSeg rqHeat hs row x.tile x.time
    let e := x.es.mapIdx fun i e => if nth x.fired i false then d.depositEnergy st (2048 * x.tile + i) e else 0
    let rises := (sums8 256 e).map fun s => depositRise s d.heat.rise
    let late := !g.fresh && decide (0 < gap x.time g.tSeg)
    let g' := if late then
        let f := decayFactor (gap x.time g.tSeg) d.heat.fast
        { g with h := List.zipWith (fun s r => (min 65535 (s.1 + decayed (min 65535 r) f), s.2)) g.h rises
                 tStrike := if g.tStrike = 0 ∨ gap x.time g.tStrike = 0 then x.time else g.tStrike }
      else
        let b := d.bringCur g x.time
        { b with h := List.zipWith (fun s r => (min 65535 (s.1 + r), s.2)) b.h rises, tStrike := x.time }
    d.closeSeg rqHeat hs row x.tile g'
  | _, _ => d

/-! ### Changes beyond the tolerance (R248) -/

/-- Cells changed by more than the tolerance: counted, and the entries whose lines lie in them replayed (R248). -/
def Dev.heatReplay (d : Dev) (sseq : Nat) (cells : List (Nat × Nat)) : Dev :=
  if cells.isEmpty then d
  else
    let d := d.bumpBy Reg.HEAT_ASSIM_REPLAY cells.length
    d.orderReplay 0 fun c e => e.sseq == sseq && cells.any fun x => x.1 == e.line / 8 && x.2 == c / 8

/-- Whether a change of state exceeds HEAT_TOL (R248). -/
def Dev.beyondTol (d : Dev) (a b : Nat) : Bool := decide (d.heat.tol < (if a < b then b - a else a - b))

/-! ### Assimilation (R245 to R247) -/

/-- Group a map's cells by row and band, in the map's order (R247). -/
def segsOf (cells : List (Nat × Nat × Nat)) : List (Nat × Nat) :=
  cells.foldl (fun l c => if l.contains (c.1, c.2.1 / 256) then l else l ++ [(c.1, c.2.1 / 256)]) []

/-- HOSTWR (R254). -/
def Dev.hostWr (d : Dev) : Bool := d.flag Reg.HEAT_CTL Fd.HEAT_CTL_HOSTWR

/-- Assimilate a whole map (R245, R246): the device, and whether it was assimilated at all. A weight of 32,768 makes the
states clean, and the record with them where it was poisoned (R255). -/
def Dev.assimilate (d : Dev) (m : HMap) : Bool × Dev :=
  let skip := fun (d : Dev) (n : Nat) => d.bumpBy Reg.HEAT_ASSIM_SKIP n
  match m.sseq.bind d.hstroke? with
  | none => (false, skip d m.cells.length)
  | some hs =>
    if d.hostWr ∨ (d.tClose hs.layer).isSome ∨ d.ra.cur ≠ m.sseq then (false, skip d m.cells.length)
    else
      let now := heatTime d.ns
      let tf := heatTime m.tf
      let w := if m.zeroW then 0 else min 32768 (nth d.heat.wts m.cam 0)
      let f := decayFactor (gap tf now) d.heat.fast
      let (d, changed) := (segsOf m.cells).foldl (fun (x : Dev × List (Nat × Nat)) sg =>
        let d := x.1
        let mine := m.cells.filter fun c => c.1 == sg.1 && c.2.1 / 256 == sg.2
        let (g, d) := d.readSeg rqHeat (hs.layer % 2) (hs.ofs + sg.1) sg.2
        if (!g.bad && g.ltag != (hs.layer + 1) % 2 ^ 24) || (!g.bad && g.tStrike != 0 && decide (0 < gap tf g.tStrike)) then (skip d mine.length, x.2)
        else
          let b := d.bringCur g now
          let h := mine.foldl (fun h c => upd h (c.2.1 % 256) fun s =>
            (assimilated s.1 (decayed c.2.2 f) w, s.2 && w != 32768)) b.h
          let moved := mine.filter fun c => d.beyondTol (nth b.h (c.2.1 % 256) (0, false)).1 (nth h (c.2.1 % 256) (0, false)).1
          let b := if w = 32768 then { b with bad := false, ltag := (hs.layer + 1) % 2 ^ 24 } else b
          (d.closeSeg rqHeat hs sg.1 sg.2 { b with h }, x.2 ++ moved.map fun _ => sg)) (d, [])
      (true, d.heatReplay hs.sseq changed)

/-! ### Seam exchange (R249 to R252) -/

/-- The 16 seam states of a row with their poison marks, west to east, brought to now and written (R235, R250). -/
def Dev.seamStates (d : Dev) (hs : HStroke) (row : Nat) (east : Bool) : List (Nat × Bool) × Dev :=
  let now := heatTime d.ns
  let band := if east then 15 else 0
  let ((g, _), d) := d.openSeg rqHeat hs row band now
  let b := d.bringCur g now
  ((b.h.drop (if east then 240 else 0)).take 16, d.closeSeg rqHeat hs row band b)

/-- Send the seam states of row r to the eastern or western neighbour (R250, R502), with the poison mark where one is
poisoned (R475). -/
def Dev.seamSend (d : Dev) (s : Stroke) (hs : HStroke) (row e : Nat) (east : Bool) : Dev :=
  let (st, d) := d.seamStates hs row east
  let me := d.id
  let dst := if east then me / 64 * 64 + (me + 1) % 64 else me / 64 * 64 + (me + 63) % 64
  d.kSend { vl := 1, plen := 2, dst, src := me, ptype := 0x10,
            arg := e + s.stroke * 2 ^ 32 + s.layer % 2 ^ 24 * 2 ^ 40, payload := st.flatMap (fun (x : Nat × Bool) => toLE 2 x.1), poison := st.any (·.2) }

/-- The seam sends of the strike edge of a stroke tick (R249, R250). -/
def Dev.seamSends (d : Dev) (s : Stroke) (e : Nat) : Dev :=
  if e < 10 ∨ (e - 10) % 8 ≠ 0 then d
  else
    let row := (e - 10) / 8
    match d.hstroke? s.sseq with
    | none => d
    | some hs =>
      if (s.n + 7) / 8 ≤ row then d
      else
        let d := if d.heat.xchgE && s.blendE then d.seamSend s hs row e true else d
        if d.heat.xchgW && s.blendW then d.seamSend s hs row e false else d

/-- Replace the non-owned seam states of a row by a neighbour's (R251, R252). `tx` is the heat time of this device's
strike of tick e. -/
def Dev.seamReplace (d : Dev) (hs : HStroke) (row tx : Nat) (east : Bool) (states : List Nat) : Dev :=
  let now := heatTime d.ns
  let band := if east then 15 else 0
  let off := if east then 240 else 0
  let ((g, _), d) := d.openSeg rqHeat hs row band now
  let b := d.bringCur g now
  let f := decayFactor (gap tx now) d.heat.fast
  let theirs := if east then (List.range 8).map (· + 8) else List.range 8
  let h := theirs.foldl (fun h j => upd h (off + j) fun _ => (decayed (nth states j 0) f, false)) b.h
  let moved := theirs.filter fun j => d.beyondTol (nth b.h (off + j) (0, false)).1 (nth h (off + j) (0, false)).1
  let d := d.closeSeg rqHeat hs row band { b with h, bad := false, ltag := (hs.layer + 1) % 2 ^ 24 }
  d.heatReplay hs.sseq (moved.map fun _ => (row, band))

/-! ### Parameter changes (R253, R244) -/

/-- The masked values of the parameter registers. -/
def Dev.heatRegs (d : Dev) (h : Heat) : Heat :=
  { h with
    rise := if bit h.pend 1 then d.rd Reg.HEAT_RISE else h.rise
    carry := if bit h.pend 2 then d.get Reg.HEAT_CARRY Fd.HEAT_CARRY_CARRY else h.carry
    fast := if bit h.pend 0 then (List.range 32).map fun i => d.rd (Reg.HEAT_DF_FAST_i i) else h.fast
    slow := if bit h.pend 0 then (List.range 32).map fun i => d.rd (Reg.HEAT_DF_SLOW_i i) else h.slow
    ftab := match h.ftabNext with | some (_, t) => t | none => h.ftab
    ftabBank := match h.ftabNext with | some (b, _) => b | none => h.ftabBank
    ftabLoaded := h.ftabLoaded || h.ftabNext.isSome
    ftabNext := none
    pend := 0 }

/-- Whether a change of heat states may come at this tick edge after those already made: R256 orders parameter change (0),
deposits (1), assimilation (2) and seam replacement (3). -/
def Dev.heatTurn (d : Dev) (r : Nat) : Bool :=
  match d.heat.acted with
  | some (u, k) => u != d.top.edgeUp || decide (k ≤ r)
  | none => true

/-- A change of heat states has been made at this tick edge (R256). -/
def Dev.heatActed (d : Dev) (r : Nat) : Dev := { d with heat := { d.heat with acted := some (d.top.edgeUp, r) } }

/-- The pending parameter changes apply together (R253). -/
def Dev.applyHeat (d : Dev) : Dev :=
  let kinds := d.heat.pend
  if kinds = 0 then d
  else
    let d := { d with heat := d.heatRegs d.heat }
    let d := d.bumpEpoch
    d.event 0x5E04 (toLE 1 kinds ++ toLE 1 d.ra.epoch ++ toLE 8 (d.top.tick))

/-- Load a factor-table bank from HBM3E (R244): none where an entry's word is poisoned. -/
def Dev.loadFtab (d : Dev) (bank : Nat) : List (Option Nat) × Dev :=
  let (ws', d) := d.hbmWords rqHeat (d.heat.ftabBase + bank * 0x8000) 2048
  (ws'.flatMap fun w => (states8 w.1).map fun v => if w.2 then none else some v, d)

/-- A write of HEAT_FTAB_CTL with COMMIT = 1 (R244). -/
def Dev.ftabCommit (d : Dev) (bank : Nat) : Dev :=
  if d.heat.ftabNext.isSome then d.event 0x5E06 (toLE 1 bank)
  else
    let d := d.set Reg.HEAT_FTAB_CTL Fd.HEAT_FTAB_CTL_BANK bank
    let (t, d) := d.loadFtab bank
    { d with heat := { d.heat with ftabNext := some (bank, t), pend := d.heat.pend ||| 8 } }

end Sys2Proof.Machine
end

