-- ==== Sys2Proof/Machine/Shares.lean ====
section
/-!
DEFINITION. Pass shares (R201 to R208), the arithmetic of the dose chain (R210 to R216), and the weighted DU of a
line-pass (R219, R608).
-/
namespace Sys2Proof.Machine

/-! ### Shares (R202, R203) -/

/-- The cap of a pass for a pixel where it is eligible: its enable, its weight and its health entry (R202). -/
def capOf (en : Bool) (w e : Nat) : Option Nat :=
  if !en || w == 0 then none
  else match bits e 31 30 with
    | 0 => some 32768
    | 1 => some (min (bits e 15 0) 32768)
    | _ => none

/-- One step of share(): the share of pass j of what is left, and whether it fails (R203). `caps` are those of passes
j to 7 under pass j's mask. -/
def shareStep (r : Nat) (ws' : List Nat) (caps : List (Option Nat)) : Nat × Bool :=
  let wsum := sumN (List.zipWith (fun w (c : Option Nat) => if c.isSome then w else 0) ws' caps)
  let capsum := sumN ((caps.drop 1).map fun c => c.getD 0)
  let lo := r - capsum
  match caps.head?.join, ws' with
  | some cap, w :: _ =>
    let sh := max (r * w / wsum) lo
    if cap < sh then (cap, decide (cap < lo)) else (sh, false)
  | _, _ => (0, decide (0 < lo))

/-- share() of pass `j + n` with `r` left before pass j (R203): `masks` is mask_of for each pass, `ws` the weights,
`hs` the pixel's eight health entries. -/
def shareFrom (masks ws' hs : List Nat) : (n j r : Nat) → Nat × Bool
  | 0, j, r =>
    let m := nth masks j 0xFF
    shareStep r (ws'.drop j) (((List.range 8).drop j).map fun i => capOf (bit m i) (nth ws' i 0) (nth hs i 0))
  | n + 1, j, r =>
    let m := nth masks j 0xFF
    let (s, _) := shareStep r (ws'.drop j) (((List.range 8).drop j).map fun i => capOf (bit m i) (nth ws' i 0) (nth hs i 0))
    shareFrom masks ws' hs n (j + 1) (r - s)

/-- share() of pass k (R203). -/
def share (masks ws' hs : List Nat) (k : Nat) : Nat × Bool := shareFrom masks ws' hs k 0 32768

/-! ### The arithmetic of stages 3 to 5 (R210, R213 to R216) -/

/-- target_energy() (R210). -/
def targetEnergy (n s h e : Nat) : Nat := (n * s * h * e + 2 ^ 28) >>> 29

/-- The gain and W0 of a calibration word (R211). -/
def calGain (w : Nat) : Nat := w % 2 ^ 32
/-- See `calGain`. -/
def calW0 (w : Nat) : Nat := bits w 47 32

/-- A signed interpolation with a 16-bit fraction, rounded (R213, R214). -/
def lerp (a b : Int) (f : Nat) : Nat := (a + asr ((b - a) * f + 32768) 16).toNat

/-- The sets that bracket a temperature: the one set used alone, or i for sets i and i + 1 (R213). -/
def bracket (tset : List Int) (t : Int) : Nat ⊕ Nat :=
  if t ≤ nth tset 0 0 then .inl 0
  else if nth tset 4 0 ≤ t then .inl 4
  else .inr (((List.range 4).filter fun i => decide (nth tset i 0 ≤ t)).getLast?.getD 0)

/-- working(): gain, and threshold in 1/256 ns, from five words (R213). -/
def working (c : List Nat) (tset : List Int) (t : Int) : Nat × Nat :=
  match bracket tset t with
  | .inl s => (calGain (nth c s 0), 16 * calW0 (nth c s 0))
  | .inr i =>
    let lo := nth tset i 0
    let f := ((t - lo).toNat <<< 16) / (nth tset (i + 1) 0 - lo).toNat
    (lerp (calGain (nth c i 0)) (calGain (nth c (i + 1) 0)) f, lerp (16 * calW0 (nth c i 0) : Nat) (16 * calW0 (nth c (i + 1) 0) : Nat) f)

/-- The blend fraction of a ramp, 0 to 65,536 (R214). -/
def rampFr (q qr n : Nat) : Nat := (min (q - qr) n <<< 16) / n

/-- ramped() (R214). -/
def ramped (o i : Nat × Nat) (fr : Nat) : Nat × Nat := (lerp o.1 i.1 fr, lerp o.2 i.2 fr)

/-- gain_v() with the factor of the latched voltage (R215). -/
def gainV (g m : Nat) : Nat := min ((g * m + 8192) >>> 14) 0xFFFFFFFF

/-- The table index of a voltage (R215). -/
def vIndex (vcfg v : Nat) : Nat :=
  let base := bits vcfg 15 0
  if base < v then min 63 ((v - base) / max 1 (bits vcfg 23 16)) else 0

/-- width(): the code, or the headroom failure: 1 width limit, 2 zero gain (R216, R223). No pulse then ends within 500
ns of the period's end, and with delays below 256 ns none after 4,350 ns (R42). -/
def widthCode (e g w0 ceiling per delay : Nat) : Except Nat Nat :=
  if e = 0 then .ok 0
  else if g = 0 then .error 2
  else
    let code := (w0 + (e <<< 12) / g + 128) >>> 8
    if min (min 4095 ceiling) (max per 5000 - 500 - delay) < code then .error 1 else .ok code

/-! ### A line's configuration and masks -/

/-- The enable mask of a tile in force (R200). -/
def Dev.tileMask (d : Dev) (t : Nat) : Nat := sumN ((List.range 8).map fun k => b2n (d.col (8 * t + k)).en * 2 ^ k)

/-- The share configuration of a line of a tile (R206). -/
def Dev.lineCfg (d : Dev) (t sseq line : Nat) : ShareCfg :=
  let c := nth d.ra.cfgs t ({}, {})
  if before sseq line c.1.since.1 c.1.since.2 then c.2 else c.1

/-- mask_of for the eight passes of a line: the mask recorded where the pass has struck, else `now` (R203). -/
def Dev.masksOf (d : Dev) (t sseq line now : Nat) : List Nat :=
  match d.mapLine? t sseq line with
  | some m => (List.range 8).map fun j => (nth m.maskOf j none).getD now
  | none => List.replicate 8 now

/-- Rows of eight from eight lists. -/
def transpose8 : Nat → List (List (Option Nat)) → List (List (Option Nat))
  | 0, _ => []
  | n + 1, ls => (ls.map fun l => l.head?.join) :: transpose8 n (ls.map (·.drop 1))

/-- The health entries of a tile's pixels: eight for each of the 2,048 (R201); all OK before the first load. -/
def ShareCfg.rows (c : ShareCfg) : List (List (Option Nat)) :=
  if c.health.isEmpty then List.replicate 2048 (List.replicate 8 (some 0))
  else transpose8 2048 ((List.range 8).map fun m => (c.health.drop (2048 * m)).take 2048)

/-- The shares of pass k over a line's pixels under a mask (R203). -/
def Dev.lineShares (d : Dev) (t k sseq line mask : Nat) : List (Nat × Bool) :=
  let c := d.lineCfg t sseq line
  let ms := d.masksOf t sseq line mask
  c.rows.map fun h => share ms c.w (h.map fun e => e.getD 0) k

/-- The weighted DU of a line-pass that has no computed entry, under a mask (R608); where share() fails, the
unassigned remainder is attributed to the first failing pass. -/
def Dev.lpWeight (d : Dev) (t k sseq line mask : Nat) : Nat :=
  let c := d.lineCfg t sseq line
  let ms := d.masksOf t sseq line mask
  sumN (List.zipWith (fun n h =>
    let hs := h.map fun (e : Option Nat) => e.getD 0
    let all := (List.range 8).map fun j => share ms c.w hs j
    let s := (nth all k (0, false)).1
    if all.findIdx? (·.2) = some k then n * (s + (32768 - sumN (all.map (·.1))))
    else n * s) (d.lineVals sseq t line) c.rows)

/-- The weighted DU of a line-pass: its entry's where it has one, else that of R203 (R608). -/
def Dev.lpDU (d : Dev) (t k sseq line : Nat) : Nat :=
  match (d.col (8 * t + k)).queue.find? fun e => e.sseq == sseq && e.line == line with
  | some e => if e.failed || e.poison || e.shares.isEmpty then d.lpWeight t k sseq line (d.tileMask t)
              else sumN (List.zipWith (· * ·) e.dose e.shares)
  | none => d.lpWeight t k sseq line (d.tileMask t)

/-- The remainder R_L of a line: Σ n × (32,768 − Σ s) over its line-passes that are SENT, STRUCK or PARTIAL (R608). -/
def Dev.lineRemainder (d : Dev) (t sseq line : Nat) : Nat :=
  match d.mapLine? t sseq line with
  | none => 0
  | some m =>
    let now := d.tileMask t
    let done := (List.range 8).filter fun k => match nth m.lp k .none with | .none => false | .squashed => false | _ => true
    let ss := done.map fun k => (d.lineShares t k sseq line now).map (·.1)
    let used := ss.foldl (fun a s => List.zipWith (· + ·) a s) (List.replicate 2048 0)
    sumN (List.zipWith (fun n u => n * (32768 - u)) (d.lineVals sseq t line) used)

end Sys2Proof.Machine
end

