-- ==== Sys2Proof/Machine/Sheaf.lean ====
section
/-!
DEFINITION. The Sheaf stream (chapter 03): segments, the record commands, and the library check.
-/
namespace Sys2Proof.Machine

/-! ### Segments (R84, R381) -/

/-- Whether a segment's length and address keep R84. -/
def segOk (addr len : Nat) : Bool := decide (8 ≤ len) && decide (len ≤ 16777216) && len % 8 == 0 && addr % 8 == 0

/-- The row a condition found while parsing fails (R125). -/
def Portion.failRow (p : Portion) : Nat := match p.lastStart with | some l => l.toNat / 64 | none => 0

/-- SEGMENT (R82, R84, R381): the next layout descriptor of ring 4 + n delivers its segment to portion n. The words are
those the host's memory holds, read while Bus Master Enable is 1 (R365); a length or address that breaks R84 is a
malformed condition, and as no record was read the TYPE and the offset of its event are 0 (DESIGN CHOICE; R124 does not
say). -/
def segment (n : Nat) (words : List (BitVec 64)) (dt : Nat) (d : Dev) : Dev :=
  let d := d.after dt
  let p := d.portion n
  match p.waiting with
  | [] => d
  | x :: rest =>
    if n ≥ 8 ∨ !d.up ∨ !d.hostReads ∨ p.stopped then d
    else
      let len := x.arg 27 24
      let take := fun (ws : List (BitVec 64)) (begun : Bool) => d.updPortion n fun p =>
        { p with waiting := rest, segs := p.segs ++ [{ desc := x, words := ws, begun }] }
      if segOk (x.arg 23 16) len then
        (take ((words ++ List.replicate (len / 8) 0).take (len / 8)) false).pmc 11 none 0 len
      else
        let st := p.stripes.getLast?
        (take [] true).malformed n 0x3102 ⟨0, x.count % 65536, 0⟩ (match st with | some s => s.sseq | none => p.sSeen)
          (match st with | some _ => p.failRow | none => 0) false true

/-! ### Record parsing -/

/-- LEN of a record of a portion (R87): none where the TYPE is not one that a portion may hold. -/
def recLen (ws : List (BitVec 64)) : Option Nat :=
  match wf (rw ws 0) 7 0 with
  | 0x10 => some 2 | 0x11 => some 1 | 0x12 => some 3 | 0x13 => some 5
  | 0x30 => some 4 | 0x31 => some 3 | 0x32 => some 2 | 0x33 => some 4
  | 0x38 => some (2 + 3 * wf (rw ws 1) 38 32 * wf (rw ws 1) 24 16)
  | 0x40 => some 2 | 0x41 => some 2
  | _ => none

/-- What parsing a record comes to: accepted, with what it contributes to; refused with an event code, whether it is a
condition of a header record (R125), and the stroke and row that fail. -/
inductive Parsed where
  | ok (d : Dev) (ref : SegRef)
  | wait
  | bad (d : Dev) (code : Nat) (header : Bool)

/-- Parse the next record of portion n if its TYPE is `typ` or is no TYPE of R87: `f` gets the device, the record's
words and where it stands (R86, R124). R126 gives no precedence among the conditions of one record: DESIGN CHOICE, its
TYPE comes first, then LEN, reserved bits, the order of records, the fields, and last the missing checks. -/
def Dev.parse (d : Dev) (n typ : Nat) (f : Dev → List (BitVec 64) → RecPos → Parsed) : Dev :=
  let p := d.portion n
  if n ≥ 8 ∨ !d.up ∨ !d.expoOrHold ∨ p.stopped then d
  else
    match p.segs.findIdx? fun s => !s.squashed && decide (s.pos < s.words.length) with
    | none => d
    | some i =>
      match p.segs[i]? with
      | none => d
      | some s =>
        let ws := s.words.drop s.pos
        let t := wf (rw ws 0) 7 0
        let pos : RecPos := ⟨t, s.desc.count % 65536, 8 * s.pos⟩
        let begin_ := fun (d : Dev) => d.updPortion n fun p => { p with segs := upd p.segs i fun s => { s with begun := true } }
        let bad := fun (d : Dev) (code : Nat) (header : Bool) =>
          let p := d.portion n
          match header, p.stripes.getLast? with
          | true, _ => d.malformed n code pos p.sSeen 0 true true
          | false, some st => d.malformed n code pos st.sseq p.failRow false true
          | false, none => d.malformed n code pos p.sSeen 0 false true
        let hdr := t == 0x10 || t == 0x12 || t == 0x13
        match recLen ws with
        | none => bad (begin_ d) 0x3101 false
        | some len =>
          if t ≠ typ then d
          else if wf (rw ws 0) 23 8 ≠ len ∨ ws.length < len then bad (begin_ d) 0x3102 hdr
          else
            match f (begin_ d) (ws.take len) pos with
            | .wait => d
            | .bad d code header => bad d code header
            | .ok d ref => d.updPortion n fun p => { p with segs := upd p.segs i fun s => { s with pos := s.pos + len, refs := ref :: s.refs } }

/-- The layer a portion is parsing. -/
def Portion.layer (p : Portion) : Option LayerHdr := p.layers.getLast?

/-- Change the layer a portion is parsing. -/
def Portion.updLayer (p : Portion) (f : LayerHdr → LayerHdr) : Portion :=
  { p with layers := p.layers.dropLast ++ (p.layers.getLast?.map f).toList }

/-- Change the stripe a portion is parsing. -/
def Portion.updStripe (p : Portion) (f : Stripe → Stripe) : Portion :=
  { p with stripes := p.stripes.dropLast ++ (p.stripes.getLast?.map f).toList }

/-- LAYER_BEGIN (R92). -/
def layerBegin (n dt : Nat) (d : Dev) : Dev :=
  (d.after dt).parse n 0x10 fun d r pos =>
    let p := d.portion n
    let h := rw r 0
    if wf h 63 56 ≠ 0 ∨ wf h 31 25 ≠ 0 ∨ wf (rw r 1) 63 48 ≠ 0 then .bad d 0x3103 true
    else if p.ord ≠ .first then .bad d 0x3104 true
    else if wf (rw r 1) 47 0 = 0 then .bad d 0x3105 true
    else .ok (d.updPortion n fun p => { p with
                ord := .afterBegin, lSeen := p.lSeen + 1, lastStroke := none
                layers := p.layers ++ [{ lseq := p.lSeen, begin_ := r, first := p.sSeen, beginAt := (pos.index, pos.ofs) }] }) (.layer p.lSeen)

/-- The 16 class scales of a CLASS_TABLE record (R93). -/
def classScales (r : List (BitVec 64)) : List Nat :=
  (List.range 16).map fun k => wf (rw r (1 + k / 4)) (16 * (k % 4) + 11) (16 * (k % 4))

/-- CLASS_TABLE (R93). -/
def classTable (n dt : Nat) (d : Dev) : Dev :=
  (d.after dt).parse n 0x13 fun d r pos =>
    let p := d.portion n
    let tooBig := (List.range 16).any fun k => wf (rw r (1 + k / 4)) (16 * (k % 4) + 15) (16 * (k % 4) + 12) != 0
    if wf (rw r 0) 63 24 ≠ 0 ∨ tooBig then .bad d 0x3103 true
    else if p.ord ≠ .afterBegin then .bad d 0x3104 true
    else .ok (d.updPortion n fun p => { (p.updLayer fun l => { l with cls := r, clsAt := (pos.index, pos.ofs) }) with ord := .afterClass })
              (.layer (match p.layer with | some l => l.lseq | none => 0))

/-- N of a STRIPE_BEGIN record (R94). -/
def stripeN (r : List (BitVec 64)) : Nat := wf (rw r 2) 24 0

/-- Whether the CHECK records of a portion's stripe are all there (R115). -/
def Portion.checksDone (p : Portion) (winnow : Bool) (n : Nat) : Bool := !winnow || decide (rowsOf n ≤ p.expRow)

/-- Whether a STRIPE_BEGIN record sets WINNOW (R94). -/
def stripeWinnow (r : List (BitVec 64)) : Bool := wf (rw r 0) 24 24 == 1

/-- STRIPE_BEGIN (R94 to R96). It waits until its layer is accepted, since REQUIRE_WINNOW is latched then (R129). The
stripe origin lies on multiples of 64 (R30); the limits are those of R123. -/
def stripeBegin (n dt : Nat) (d : Dev) : Dev :=
  (d.after dt).parse n 0x12 fun d r pos =>
    let p := d.portion n
    let h := rw r 0
    match (p.layer.bind fun l => d.layer? l.lseq), p.ord with
    | none, .afterClass => .wait
    | none, .body => .wait
    | lay, _ =>
      if wf h 63 43 ≠ 0 ∨ wf h 31 27 ≠ 0 ∨ wf (rw r 2) 63 25 ≠ 0 then .bad d 0x3103 true
      else if p.ord ≠ .afterClass ∧ p.ord ≠ .body then .bad d 0x3104 true
      else
        let x0 := ws (rw r 1) 0
        let y0 := ws (rw r 1) 1
        let nn := stripeN r
        let lseq := match lay with | some l => l.lseq | none => 0
        let seqOk := match p.lastStroke with
          | some s => wf h 39 32 == s + 1
          | none => wf h 39 32 == 0 || d.sheaf.abortedStroke == some (lseq, wf h 39 32)
        if wf h 42 40 ≠ n ∨ x0 % 64 ≠ 0 ∨ y0 % 64 ≠ 0 ∨ nn = 0 ∨ 16777216 < nn ∨ 2145386496 < x0 ∨
            2147483648 < y0 + 64 * (nn : Int) ∨ !seqOk then .bad d 0x3105 true
        else
          let missing := match p.stripes.getLast? with
            | some st => p.ord == Order.body && !p.checksDone (stripeWinnow st.hdr) (stripeN st.hdr)
            | none => false
          let req := match lay with | some l => l.reqWinnow | none => false
          if missing then .bad d 0x3107 false
          else if req ∧ !stripeWinnow r then .bad d 0x3109 true
          else .ok (d.updPortion n fun p =>
              let p := p.updStripe fun st => { st with closed := true }
              { p with
                ord := .body, sSeen := p.sSeen + 1, lastStroke := some (wf h 39 32), lastStart := none, expRow := 0, gotBand := []
                stripes := p.stripes ++ [{ sseq := p.sSeen, lseq, hdr := r, at_ := (pos.index, pos.ofs) }] }) (.stripe p.sSeen)

/-- LAYER_END (R97). -/
def layerEnd (n dt : Nat) (d : Dev) : Dev :=
  (d.after dt).parse n 0x11 fun d r _ =>
    let p := d.portion n
    let h := rw r 0
    if wf h 63 56 ≠ 0 then .bad d 0x3103 false
    else
      match p.layer, p.stripes.getLast?, p.ord with
      | some l, some st, .body =>
        if wf h 55 32 ≠ wf (rw l.begin_ 0) 55 32 ∨ some (wf h 31 24) ≠ p.lastStroke then .bad d 0x3105 false
        else if !p.checksDone (stripeWinnow st.hdr) (stripeN st.hdr) then .bad d 0x3107 false
        else
          let d := d.updPortion n fun p =>
            let p := (p.updStripe fun st => { st with closed := true }).updLayer fun l => { l with ended := true }
            { p with ord := .first }
          let all := (List.range 8).all fun m => (d.portion m).layers.any fun x => x.lseq == l.lseq && x.ended
          .ok (if all then d.updLayer l.lseq fun x => { x with ended := some (wf h 31 24) } else d) (.layer l.lseq)
      | _, _, _ => .bad d 0x3104 false

/-! ### Geometry records (R90, R98 to R100, R109 to R111, R115) -/

/-- First and last line of a y extent (R109). -/
def firstLine (ylo y0 : Int) : Int := max 0 (asr (ylo - y0) 6)
/-- See `firstLine`. -/
def lastLine (yhi y0 : Int) : Int := asr (yhi - y0 + 63) 6 - 1

/-- The block rows, of `rows`, for which a record is active (R110): none where it contributes nothing (R109). -/
def activeRows (n : Nat) (start last : Int) : Option (Nat × Nat) :=
  if start > (n : Int) - 1 ∨ last < 0 ∨ last < start then none
  else some (start.toNat / 64, (min last ((n : Int) - 1)).toNat / 64)

/-- Take a geometry record whose fields and extents are known: its place in the order (R90, R115), the missing check
(R115), the number of active records (R110). -/
def Dev.takeGeo (d : Dev) (n : Nat) (st : Stripe) (g : Geo) (start last : Int) (pos : RecPos) : Parsed :=
  let p := d.portion n
  let nn := stripeN st.hdr
  let row := start / 64
  let checks := stripeWinnow st.hdr && decide (p.expRow < rowsOf nn)
  let late := stripeWinnow st.hdr && (decide (row < (p.expRow : Int)) || (row == (p.expRow : Int) && !p.gotBand.isEmpty))
  if (match p.lastStart with | some l => decide (start < l) | none => false) || late then .bad d 0x3104 false
  else if checks && decide ((64 * (p.expRow + 1) : Nat) ≤ start) then .bad d 0x3107 false
  else
    let tooBig := match activeRows nn start last with
      | none => false
      | some (r0, _) => decide (4096 ≤ (st.recs.filter fun (x : GeoRec) => match activeRows nn x.start x.last with
          | some (_, r1) => decide (r0 ≤ r1) | none => false).length)
    if tooBig then .bad d 0x310A false
    else .ok (d.updPortion n fun p =>
        { (p.updStripe fun st => { st with recs := st.recs ++ [{ geo := g, start, last, typ := pos.typ, index := pos.index, ofs := pos.ofs }] })
          with lastStart := some start }) (.lines st.sseq start last)

/-- A shape record: fields, then R89's place, then its extents. -/
def Dev.shapeRec (d : Dev) (n : Nat) (r : List (BitVec 64)) (pos : RecPos) : Parsed :=
  let p := d.portion n
  match geoFields r with
  | .error 0x3103 => .bad d 0x3103 false
  | g =>
    match p.stripes.getLast?, p.ord with
    | some st, .body =>
      match g with
      | .error c => .bad d c false
      | .ok g =>
        let y0 := ws (rw st.hdr 1) 1
        let b := ptsBox (vertices g)
        d.takeGeo n st g (firstLine b.y0 y0) (lastLine b.y1 y0) pos
    | _, _ => .bad d 0x3104 false

/-- RECT (R98). -/
def rect (n dt : Nat) (d : Dev) : Dev := (d.after dt).parse n 0x31 fun d r pos => d.shapeRec n r pos

/-- TRAP (R99). -/
def trap (n dt : Nat) (d : Dev) : Dev := (d.after dt).parse n 0x30 fun d r pos => d.shapeRec n r pos

/-- A top-level REF or AREF (R100, R109): the library entry and header are read now, with the layer's latched library;
it waits until that layer is accepted. -/
def Dev.refRec (d : Dev) (n : Nat) (r : List (BitVec 64)) (pos : RecPos) : Parsed :=
  let p := d.portion n
  match geoFields r with
  | .error 0x3103 => .bad d 0x3103 false
  | g =>
    match p.stripes.getLast?, p.ord with
    | some st, .body =>
      match g, d.layer? st.lseq with
      | .error c, _ => .bad d c false
      | .ok _, none => .wait
      | .ok (.aref c o dx dy nx ny px py), some l =>
        if d.hbmWaits then .wait else
        let y0 := ws (rw st.hdr 1) 1
        match d.cell none (rqThr (2 * n)) l.libBase l.libLimit c with
        | (.undefined, d) => .bad d 0x310B false
        | (.bad, d) => .bad d 0x310D false
        | (.poisoned, d) => .bad d 0x310D false
        | (.found b _ _, d) =>
          let x := arefBox b o dx dy nx ny px py
          d.takeGeo n st (.aref c o dx dy nx ny px py) (firstLine x.y0 y0) (lastLine x.y1 y0) pos
      | .ok _, some _ => .wait
    | _, _ => .bad d 0x3104 false

/-- REF (R100). -/
def ref_ (n dt : Nat) (d : Dev) : Dev := (d.after dt).parse n 0x32 fun d r pos => d.refRec n r pos

/-- AREF (R100). -/
def aref (n dt : Nat) (d : Dev) : Dev := (d.after dt).parse n 0x33 fun d r pos => d.refRec n r pos

/-- The fields of a RAW_BLOCK record of portion n in a stroke of `lines` lines (R111, R112), errors as `geoFields`. -/
def rawFields (n nn : Nat) (r : List (BitVec 64)) : Except Nat Geo :=
  let h := rw r 0
  let w := rw r 1
  let line := wf h 63 32
  let lines := wf w 38 32
  let cnt := wf w 24 16
  let pix := wf w 15 0
  if wf h 31 24 ≠ 0 ∨ wf w 63 39 ≠ 0 ∨ wf w 31 25 ≠ 0 then .error 0x3103
  else if lines = 0 ∨ 64 < lines ∨ cnt = 0 ∨ 256 < cnt ∨ pix % 16 ≠ 0 ∨ pix < 4096 * n ∨ 4096 * (n + 1) < pix + 16 * cnt ∨
      nn < line + lines then .error 0x3105
  else .ok (.raw line lines pix cnt (unpack12 ((r.drop 2).flatMap fun x => toLE 8 x.toNat)))

/-- The first and last line of a RAW_BLOCK (R109). -/
def rawSpan : Geo → Int × Int
  | .raw line lines .. => (line, ((line + lines : Nat) : Int) - 1)
  | _ => (0, 0)

/-- RAW_BLOCK (R111, R112). Raw data arrives with its segment (R122). -/
def rawBlock (n dt : Nat) (d : Dev) : Dev :=
  (d.after dt).parse n 0x38 fun d r pos =>
    let p := d.portion n
    let st := p.stripes.getLast?
    match rawFields n (match st with | some st => stripeN st.hdr | none => 0) r, st, p.ord with
    | .error 0x3103, _, _ => .bad d 0x3103 false
    | .ok g, some st, .body => d.takeGeo n st g (rawSpan g).1 (rawSpan g).2 pos
    | .error c, some _, .body => .bad d c false
    | _, _, _ => .bad d 0x3104 false

/-- A geometry record as it stands in host memory when it is read again (R85): its fields, or the code of what is wrong
with it. -/
def againGeo (n nn : Nat) (ws : List (BitVec 64)) : Except Nat Geo :=
  match recLen ws with
  | none => .error 0x3101
  | some len =>
    if wf (rw ws 0) 23 8 ≠ len ∨ ws.length < len then .error 0x3102
    else
      match wf (rw ws 0) 7 0 with
      | 0x38 => rawFields n nn (ws.take len)
      | 0x30 => geoFields (ws.take len)
      | 0x31 => geoFields (ws.take len)
      | 0x32 => geoFields (ws.take len)
      | 0x33 => geoFields (ws.take len)
      | _ => .error 0x3104

/-- CHECK (R114, R115). -/
def sheafCheck (n dt : Nat) (d : Dev) : Dev :=
  (d.after dt).parse n 0x40 fun d r _ =>
    let p := d.portion n
    let h := rw r 0
    if wf h 63 56 ≠ 0 ∨ wf h 31 25 ≠ 0 ∨ wf (rw r 1) 63 32 ≠ 0 then .bad d 0x3103 false
    else
      match p.stripes.getLast?, p.ord with
      | some st, .body =>
        let row := wf h 55 32
        let band := wf h 24 24
        let rows := rowsOf (stripeN st.hdr)
        if stripeWinnow st.hdr && decide (p.expRow < row) && decide (row < rows) then .bad d 0x3107 false
        else if !stripeWinnow st.hdr || decide (row < p.expRow) || decide (rows ≤ row) || p.gotBand.contains band then .bad d 0x3108 false
        else
          let done := !p.gotBand.isEmpty
          let d := d.updPortion n fun p =>
            { (p.updStripe fun st => { st with checks := st.checks ++ [(row, band, wf (rw r 1) 31 0)] })
              with expRow := if done then p.expRow + 1 else p.expRow, gotBand := if done then [] else [band] }
          .ok (d.winnowCheck st.sseq (2 * n + band) row) (.block st.sseq row (2 * n + band))
      | _, _ => .bad d 0x3104 false

/-- FENCE (R117). -/
def fence (n dt : Nat) (d : Dev) : Dev :=
  (d.after dt).parse n 0x41 fun d r _ =>
    let p := d.portion n
    let h := rw r 0
    if wf h 63 25 ≠ 0 then .bad d 0x3103 false
    else
      match p.stripes.getLast?, p.ord with
      | some st, .body =>
        let line := wf (rw r 1) 63 32
        if stripeN st.hdr < line then .bad d 0x3105 false
        else
          let f : Fence := { struck := wf h 24 24 == 1, id := wf (rw r 1) 31 0, line }
          .ok (d.updPortion n fun p => p.updStripe fun st => { st with fences := st.fences ++ [f] }) (.fence st.sseq f.id)
      | _, _ => .bad d 0x3104 false

/-! ### Library validation (R108) -/

/-- What the library check finds: the reason of R108's detail byte [2] and the first failing cell ID. -/
structure LibFail where
  reason : Nat
  cell : Nat
  deriving DecidableEq, Repr

/-- The boxes of a body's shapes lie within the cell's box, and every referenced cell is defined and its instances'
boxes lie within it (R104, R105): the first failure, in body order. -/
def Dev.libBody (d : Dev) (rq : Rq) (base limit c : Nat) (box : Box) : List Geo → Option LibFail × Dev
  | [] => (none, d)
  | g :: r =>
    match g with
    | .aref cc o dx dy nx ny px py =>
      match d.cell none rq base limit cc with
      | (.undefined, d) => (some ⟨0, c⟩, d)
      | (.bad, d) => (some ⟨0, c⟩, d)
      | (.poisoned, d) => (some ⟨1, c⟩, d)
      | (.found b _ _, d) =>
        if (arefBox b o dx dy nx ny px py).within box then d.libBody rq base limit c box r else (some ⟨2, c⟩, d)
    | .raw .. => d.libBody rq base limit c box r
    | shape => if (ptsBox (vertices shape)).within box then d.libBody rq base limit c box r else (some ⟨2, c⟩, d)

/-- The cells that a body places. -/
def placed (body : List Geo) : List Nat := body.filterMap fun | .aref c .. => some c | _ => none

/-- Whether content placed by a cell at depth `9 − fuel` would reach depth 9 (R107, R108). -/
def Dev.tooDeep (d : Dev) (rq : Rq) (base limit : Nat) : Nat → Nat → Bool
  | 0, c =>
    match d.cell none rq base limit c with
    | (.found _ _ n, _) => n != 0
    | _ => false
  | fuel + 1, c =>
    match d.cell none rq base limit c with
    | (.found _ addr n, d) =>
      match d.cellBody none rq addr n with
      | ((some body, _), d) => !body.isEmpty && (placed body).any fun x => d.tooDeep rq base limit fuel x
      | _ => false
    | _ => false

/-- Check one library entry (R108). -/
def Dev.libEntry (d : Dev) (rq : Rq) (base limit c : Nat) : Option LibFail × Dev :=
  match d.libRead none rq (base + 8 * c) 1 with
  | (none, d) => (some ⟨1, c⟩, d)
  | (some e, d) =>
    if c = 0 then (if rw e 0 = 0 then (none, d) else (some ⟨0, 0⟩, d))
    else if wf (rw e 0) 63 63 = 0 then (none, d)
    else
      match d.cell none rq base limit c with
      | (.undefined, d) => (some ⟨0, c⟩, d)
      | (.bad, d) => (some ⟨0, c⟩, d)
      | (.poisoned, d) => (some ⟨1, c⟩, d)
      | (.found box addr n, d) =>
        match d.cellBody none rq addr n with
        | ((_, true), d) => (some ⟨1, c⟩, d)
        | ((none, _), d) => (some ⟨0, c⟩, d)
        | ((some body, _), d) =>
          match d.libBody rq base limit c box body with
          | (some f, d) => (some f, d)
          | (none, d) => (if d.tooDeep rq base limit 8 c then some ⟨3, c⟩ else none, d)

/-- Check the entries of a library in order of cell ID: the first failure (R108). -/
def Dev.libAll (d : Dev) (rq : Rq) (base limit : Nat) : Nat → Nat → Option LibFail × Dev
  | 0, _ => (none, d)
  | n + 1, c =>
    if limit ≤ c ∧ c ≠ 0 then (none, d)
    else
      match d.libEntry rq base limit c with
      | (some f, d) => (some f, d)
      | (none, d) => d.libAll rq base limit n (c + 1)

/-- The spare is in service (R164). -/
def Dev.spareEn (d : Dev) : Bool := d.flag (Reg.THR_n_CTL 16) Fd.THR_n_CTL_EN

/-- LIB_VALIDATE_DONE (R108): the check of the library in progress finishes. -/
def libValidateDone (dt : Nat) (d : Dev) : Dev :=
  let d := d.after dt
  match d.sheaf.lib with
  | none => d
  | some v =>
    if !d.up || d.hbmWaits || d.sheaf.rebuilds.any (fun r => r.thr == some 16) then d else
    let (f, d) := d.libAll ⟨16, 16, 3⟩ v.base v.limit (v.limit + 1) 0
    let d := { d with sheaf := { d.sheaf with lib := none } }
    match f with
    | none => d.endCmd v.desc stOK []
    | some f =>
      (d.event 0x310D (toLE 1 0xFF ++ toLE 1 v.lib ++ toLE 1 f.reason ++ toLE 1 0 ++ toLE 3 f.cell)).endCmd v.desc stLIB_INVALID (toLE 3 f.cell)

end Sys2Proof.Machine
end

