-- ==== Sys2Proof/Machine/Thresher.lean ====
section
/-!
DEFINITION. The Threshers (chapter 04): expansion of block rows, the cell cache, rebuilds, disabling and retiring.
-/
namespace Sys2Proof.Machine

/-- Whether a band's own Thresher is in service (R159, R161). -/
def Dev.thrIn (d : Dev) (t : Nat) : Bool := d.flag (Reg.THR_n_CTL t) Fd.THR_n_CTL_EN && !(d.thr t).retired

/-- The band whose block rows a Thresher expands (R131, R159). -/
def Dev.serves (d : Dev) (t : Nat) : Option Nat :=
  if t = 16 then (if d.spareEn then d.sheaf.subst else none)
  else if t < 16 ∧ d.thrIn t ∧ d.sheaf.subst ≠ some t then some t else none

/-- The Thresher a queued rebuild goes to (R156): the spare, the partner, the band's own. -/
def Dev.assignee (d : Dev) (band : Nat) : Nat :=
  if d.spareEn ∧ d.sheaf.subst = none then 16
  else if d.thrIn (band ^^^ 1) then band ^^^ 1
  else band

/-- The Thresher that serves a rebuild: the spare for the block it abandoned in a take-over (R159), while it is enabled. -/
def Dev.rebuildThr (d : Dev) (r : Rebuild) : Nat :=
  match r.pin with
  | some t => if t = 16 ∧ !d.spareEn then d.assignee r.band else t
  | none => d.assignee r.band

/-- The rebuild a Thresher runs. -/
def Dev.rebuilding (d : Dev) (t : Nat) : Option Rebuild := d.sheaf.rebuilds.find? (·.thr == some t)

/-- The strike due time of a rebuild's first line (R156): stroke, and tick of its next unstruck pass. -/
def Dev.rebuildDue (d : Dev) (r : Rebuild) : Nat × Nat :=
  let bad := match d.block? r.sseq r.band r.row with | some b => b.badLines | none => []
  let line := (bad.foldl (fun m x => match m with | none => some x | some y => some (min x y)) none).getD (64 * r.row)
  let k := match d.mapLine? r.band r.sseq line with
    | some m => (firstIdx 8 fun k => nth m.lp k .none == .none).getD 7
    | none => 0
  (r.sseq, line + k * (nth d.head.tiles r.band {}).s)

/-- The queued rebuild a Thresher serves next (R156). -/
def Dev.nextRebuild (d : Dev) (t : Nat) : Option Rebuild :=
  (d.sheaf.rebuilds.filter fun r => r.thr == none && d.rebuildThr r == t).foldl (fun m r =>
    match m with
    | none => some r
    | some x => let a := d.rebuildDue r; let b := d.rebuildDue x; if before a.1 a.2 b.1 b.2 then some r else some x) none

/-- Whether all records of a block row have been parsed in a portion (R90, R115, R144). -/
def Dev.recsIn (d : Dev) (n sseq row : Nat) : Bool :=
  let p := d.portion n
  match d.stripe? n sseq with
  | none => false
  | some st =>
    st.closed || decide (sseq + 1 < p.sSeen) ||
    (match p.lastStart with | some l => decide ((64 * (row + 1) : Nat) ≤ l) | none => false) ||
    decide (row < p.expRow) || (row == p.expRow && !p.gotBand.isEmpty) ||
    d.sheaf.fails.any fun f => f.portion == n && !before f.sseq f.row sseq (row + 1)

/-- Whether the slot of line Q of a band is free (R144). -/
def Dev.slotFree (d : Dev) (band q : Nat) : Bool :=
  (nth d.ra.map band []).all (fun m => decide (q < m.q + 2048) ||
    (match nth m.lp 7 .none with | .struck => true | .lost => true | .squashed => true | _ => false)) &&
  d.sheaf.blocks.all fun b => b.band != band || b.once ||
    (match d.stroke? b.sseq with | some s => decide (q < s.q0 + 64 * b.row + 2048) | none => true)

/-- The position a band expands next: past the end of a stroke, or of one that has left with its finished layer, it is row
0 of the next (R144). -/
def Dev.bandPos (d : Dev) (band : Nat) : Nat × Nat :=
  let (s, r) := nth d.sheaf.bandNext band (0, 0)
  match d.stroke? s with
  | some st => if rowsOf st.n ≤ r then (s + 1, 0) else (s, r)
  | none => if s < d.sheaf.nextSseq then (s + 1, 0) else (s, r)

/-- BLOCK_ROW_BEGIN (R144): Thresher t begins the next block row of the band it serves. -/
def blockRowBegin (t dt : Nat) (d : Dev) : Dev :=
  let d := d.after dt
  match d.serves t with
  | none => d
  | some band =>
    let (sseq, row) := d.bandPos band
    match d.stroke? sseq with
    | none => d
    | some s =>
      if !d.up ∨ !d.expoOrHold ∨ (d.thr t).busy.isSome ∨ (d.rebuilding t).isSome ∨ (d.nextRebuild t).isSome ∨ s.aborted ∨
          rowsOf s.n ≤ row ∨ d.malformedBlock sseq band row then d
      else
        let q := s.q0 + 64 * row
        if (List.range (linesOfRow s.n row)).all fun i => d.slotFree band (q + i) then
          let d := (d.cacheBegin t s.lseq band).setThr t fun th => { th with busy := some (sseq, band, row) }
          let keep := d.sheaf.blocks.filter fun b => b.band != band ||
            (match d.stroke? b.sseq with | some o => decide (q < o.q0 + 64 * b.row + 2048) | none => false)
          let d := { d with sheaf := { d.sheaf with blocks := keep, bandNext := put 16 (0, 0) d.sheaf.bandNext band fun _ => (sseq, row + 1) } }
          d.putBlock { sseq, band, row, thr := t }
        else d

/-- What expanding a block gives (R131 to R138): its values line by line, its cell classes, its cost, and the top-level record and code of a malformed condition, or poisoned input. -/
structure Expansion where
  vals : List (List Nat) := []
  cls : List (List Nat) := []
  cost : Nat := 0
  err : Option (Nat × RecPos) := none
  poisoned : Bool := false
  deriving DecidableEq, Repr

/-- The largest of 16 sums; ties go to the smaller index (R241). -/
def argMax (l : List Nat) : Nat :=
  (l.foldl (fun (x : Nat × Nat × Nat) v => if x.2.1 < v then (x.2.2, v, x.2.2 + 1) else (x.1, x.2.1, x.2.2 + 1)) (0, 0, 0)).1

/-- The classes of the 256 cells of one heat-cell row (R241). -/
def rowClasses (shapes : List Shape) (bandX : Int) (qys : List Int) : List Nat :=
  let byClass := (List.range 16).map fun k =>
    let sk := shapes.filter (·.cls == k)
    if sk.isEmpty then List.replicate 256 0
    else qys.foldl (fun acc qy => List.zipWith (· + ·) acc (sums8 256 (classAreas sk bandX qy))) (List.replicate 256 0)
  (List.range 256).map fun c => argMax (byClass.map fun l => nth l c 0)

/-- Expand one block from the records of its stripe (R131 to R138, R241). -/
def Dev.expand (d : Dev) (t : Nat) (s : Stroke) (l : Layer) (recs : List GeoRec) (band row : Nat) : Expansion × Dev :=
  let cnt := linesOfRow s.n row
  let bandX := s.x0 + 64 * ((band * 2048 : Nat) : Int)
  let y := s.y0 + 64 * ((64 * row : Nat) : Int)
  let region : Box := ⟨bandX, y, bandX + 131072, y + 64 * (cnt : Int)⟩
  let act := recs.filter fun r => match activeRows s.n r.start r.last with
    | some (r0, r1) => decide (r0 ≤ row) && decide (row ≤ r1)
    | none => false
  let lib : LibRef := ⟨some t, rqThr t, l.libBase, l.libLimit⟩
  let (g, d, bad) := act.foldl (fun (x : Gather × Dev × Option RecPos) r =>
    if x.1.err.isSome then x
    else
      let (g, d) := gather lib region 10 0 none [] [r.geo] (x.1, x.2.1)
      (g, d, if g.err.isSome then some ⟨r.typ, r.index, r.ofs⟩ else none)) ({}, d, none)
  match g.err, bad with
  | some c, some pos => ({ err := if c = 0 then none else some (c, pos), poisoned := c == 0 }, d)
  | _, _ =>
    let geos := act.map (·.geo)
    let vals := (List.range cnt).map fun i => nominalLine g.shapes geos l.scales s.x0 s.y0 s.blendW s.blendE band (64 * row + i)
    let cls := (List.range ((cnt + 7) / 8)).map fun r =>
      rowClasses g.shapes bandX ((List.range (min 8 (cnt - 8 * r))).map fun i => y + 64 * ((8 * r + i : Nat) : Int))
    ({ vals, cls, cost := blockCost g.shapes g.visits s.x0 s.y0 band (64 * row) cnt }, d)

/-- Values with a Thresher fault in them: line, pixel and the bits that differ from the exact value. -/
def faulty (vals : List (List Nat)) (glitch : List (Nat × Nat × Nat)) : List (List Nat) :=
  glitch.foldl (fun v g => upd v g.1 fun l => upd l g.2.1 fun x => (x ^^^ g.2.2) % 4096) vals

/-- Write some lines of a block into the run-ahead buffer (R140 to R142). -/
def Dev.writeLines (d : Dev) (t : Nat) (s : Stroke) (band row : Nat) (vals : List (List Nat)) (only : List Nat) : Dev :=
  only.foldl (fun d line =>
    (d.pmc 6 none 0 2048).hbmWrite (rqThr t) (slotAddr d.sheaf.rabBase band (s.q0 + line)) (pack12 (nth vals (line - 64 * row) [])) false) d

/-- The CRC of a block's values (R116, R150). -/
def blockCrc (vals : List (List Nat)) : Nat := crc32c (vals.flatMap pack12)

/-- A block written for the first time is counted and logged where its measured cost exceeds 65,536 cc (R121). -/
def Dev.densCheck (d : Dev) (l : Layer) (band row cost : Nat) : Dev :=
  if 65536 < cost then
    let d := d.bump Reg.THR_DENS_EXCESS
    if l.densEvt then d.eventLim (band / 2) 0x3201 (toLE 4 row ++ toLE 1 band ++ toLE 3 0 ++ toLE 4 (sat 32 cost)) else d
  else d

/-- BLOCK_EXPANDED (R150): Thresher t writes the last line of its block. `glitch` lists values a fault of the Thresher
changed; `poison` says that input arrived poisoned and stayed so after its refetch (R149). It waits until every record
of the row has been parsed. The first Winnow fault of the stroke stays in THR_WFAULT (R169). -/
def blockExpanded (t : Nat) (glitch : List (Nat × Nat × Nat)) (poison : Bool) (dt : Nat) (d : Dev) : Dev :=
  let d := d.after dt
  match (d.thr t).busy with
  | none => d
  | some (sseq, band, row) =>
    match d.stroke? sseq, d.layerOf sseq, d.stripe? (band / 2) sseq with
    | some s, some l, some st =>
      if !d.up ∨ !d.expoOrHold ∨ !d.recsIn (band / 2) sseq row then d
      else
        let d := d.setThr t fun th => { th with busy := none }
        let drop := fun (d : Dev) => d.updBlock sseq band row fun b => { b with st := .malformed }
        if d.malformedBlock sseq band row then drop d
        else
          let (e, d) := d.expand t s l st.recs band row
          if poison ∨ e.poisoned then
            (d.updBlock sseq band row fun b => { b with st := .reexpanding }).queueRebuild sseq band row .poisonInput
          else
            match e.err with
            | some (c, pos) => (drop d).malformed (band / 2) c pos sseq row false true
            | none =>
              let vals := faulty e.vals glitch
              let d := d.writeLines t s band row vals ((List.range vals.length).map (· + 64 * row))
              let d := (d.densCheck l band row e.cost).updBlock sseq band row fun b => { b with st := .checking, crc := blockCrc vals, vals := vals, cls := e.cls, thr := t }
              if s.winnow then d.winnowCheck sseq band row else d.toStrikable sseq band row
    | _, _, _ => d

/-- REBUILD_START (R156): Thresher t takes the rebuild it serves next. The spare leaves a library check for it. -/
def rebuildStart (t dt : Nat) (d : Dev) : Dev :=
  let d := d.after dt
  match d.nextRebuild t with
  | none => d
  | some r =>
    if !d.up ∨ !d.expoOrHold ∨ (d.thr t).busy.isSome ∨ (d.rebuilding t).isSome ∨ (t ≠ 16 ∧ !d.thrIn t) then d
    else
      let d := match d.layerOf r.sseq with | some l => d.cacheBegin t l.lseq r.band | none => d
      { d with sheaf := { d.sheaf with rebuilds := d.sheaf.rebuilds.map fun x =>
          if x.sseq == r.sseq && x.band == r.band && x.row == r.row then { x with thr := some t } else x } }

/-- The spare takes a band over (R159, R161): the block its Thresher was expanding is rebuilt by the spare. -/
def Dev.takeOver (d : Dev) (n why : Nat) : Dev :=
  let busy := (d.thr n).busy
  let d := d.setThr n fun th => { th with busy := none }
  let d := { d with sheaf := { d.sheaf with
    subst := some n
    rebuilds := d.sheaf.rebuilds.map fun (r : Rebuild) => if r.thr == some n then { r with thr := none } else r } }
  let d := match busy with
    | some (sseq, band, row) =>
      let d := (d.updBlock sseq band row fun b => { b with st := .reexpanding }).queueRebuild sseq band row .thrChange
      { d with sheaf := { d.sheaf with rebuilds := d.sheaf.rebuilds.map fun (r : Rebuild) =>
          if r.sseq == sseq && r.band == band && r.row == row then { r with pin := some 16 } else r } }
    | none => d
  d.event 0x3405 (toLE 1 n ++ toLE 1 why ++ toLE 2 0 ++ toLE 4 (d.bandPos n).2)

/-- A band goes back to its own Thresher from the next row the spare has not begun (R159, R161). -/
def Dev.giveBack (d : Dev) (n : Nat) : Dev :=
  let d := { d with sheaf := { d.sheaf with subst := none } }
  d.event 0x3405 (toLE 1 n ++ toLE 1 2 ++ toLE 2 0 ++ toLE 4 (d.bandPos n).2)

/-- Count a mismatch that a rebuild matched, and retire the Thresher at the threshold (R161). -/
def Dev.countMatched (d : Dev) (t lseq thresh : Nat) : Dev :=
  let m := (getKey lseq (d.thr t).matched).getD 0 + 1
  let d := d.setThr t fun th => { th with matched := insKey lseq m th.matched }
  if thresh = 0 ∨ m ≠ thresh then d
  else if d.spareEn ∧ d.sheaf.subst = none ∧ t ≠ 16 then (d.setThr t fun th => { th with retired := true }).takeOver t 1
  else d.event 0x3406 (toLE 1 t ++ toLE 1 m)

/-- A rebuild fails (R157): the lines stay not strikable and the rebuild is suspended. -/
def Dev.rebuildFails (d : Dev) (t : Nat) (b : Block) (again : Bool) : Dev :=
  let first := (b.badLines.foldl (fun m x => match m with | none => some x | some y => some (min x y)) none).getD (64 * b.row)
  let d := d.updBlock b.sseq b.band b.row fun b => { b with susp := true }
  d.event 0x3403 (toLE 1 b.band ++ toLE 1 t ++ toLE 1 (b2n again) ++ toLE 1 0 ++ toLE 4 b.row ++ toLE 4 first)

/-- The records of a stripe as a rebuild reads them again from their segments (R85, R155): where `again` lists a
descriptor's count, a byte offset and words, host memory holds those words there now. The second part is the first record
of the block row that is no geometry record any more. -/
def reread (n : Nat) (st : Stripe) (row : Nat) (again : List (Nat × Nat × List (BitVec 64))) : List GeoRec × Option (Nat × RecPos) :=
  let nn := stripeN st.hdr
  let look := fun (r : GeoRec) => ((again.find? fun a => a.1 == r.index && a.2.1 == r.ofs).map fun a => againGeo n nn a.2.2).getD (.ok r.geo)
  (st.recs.map fun r => match look r with | .ok g => { r with geo := g } | .error _ => r,
   st.recs.findSome? fun r => match activeRows nn r.start r.last, look r with
     | some (r0, r1), .error c => if r0 ≤ row ∧ row ≤ r1 then some (c, ⟨r.typ, r.index, r.ofs⟩) else none
     | _, _ => none)

/-- A stroke tick of a stroke is designated for edge T + 1 (R666). -/
def Dev.dueNext (d : Dev) (sseq tick : Nat) : Bool :=
  match d.top.desig with
  | .strike k => decide (k = tick) && (match d.ra.cur with
      | some c => c == sseq
      | none => (d.sheaf.strokes.find? fun s => !s.ended).any (·.sseq == sseq))
  | _ => false

/-- A block enters FAULTED (R151, R152): event 0x3402 and THR_WFAULT; hold cause 0x08 is registered now where its first
line is due at the next edge, at its commit point even if that has passed. A line due later registers it from the
block's state when its edge comes. -/
def Dev.faultBlock (d : Dev) (b : Block) (t w : Nat) : Dev :=
  let d := d.updBlock b.sseq b.band b.row fun b => { b with st := .faulted }
  let d := d.event 0x3402 (toLE 1 b.band ++ toLE 1 b.thr ++ toLE 1 t ++ toLE 1 0 ++ toLE 4 b.row ++ toLE 4 w)
  let d := if d.dueNext b.sseq (64 * b.row) then d.triggerNext (.hold 0x08) else d
  if d.flag Reg.THR_WFAULT Fd.THR_WFAULT_VALID then d
  else d.wr Reg.THR_WFAULT (2 ^ 31 + b.band * 2 ^ 18 + b.row)

/-- REBUILD_COMPLETE (R151, R153, R157): the rebuild Thresher t runs finishes; operands as BLOCK_EXPANDED, and `again`
what host memory holds now where it was altered. A rebuild that itself mismatches does not count in THR_n_WMISS
(DESIGN CHOICE; R151 counts the mismatch of the block as first written). A rebuild goes on in Hold (R158). -/
def rebuildComplete (t : Nat) (glitch : List (Nat × Nat × Nat)) (poison : Bool) (again : List (Nat × Nat × List (BitVec 64)))
    (dt : Nat) (d : Dev) : Dev :=
  let d := d.after dt
  match d.rebuilding t with
  | none => d
  | some r =>
    match d.stroke? r.sseq, d.layerOf r.sseq, d.stripe? (r.band / 2) r.sseq, d.block? r.sseq r.band r.row with
    | some s, some l, some st, some b =>
      if !d.up ∨ !d.expoOrHold ∨ !d.hostReads ∨ !d.recsIn (r.band / 2) r.sseq r.row then d
      else
        let d := { d with sheaf := { d.sheaf with rebuilds := d.sheaf.rebuilds.filter (·.thr != some t) } }
        let d := d.bump (Reg.THR_n_REEXP t)
        if d.malformedBlock r.sseq r.band r.row then d
        else
        let (recs, changed) := reread (r.band / 2) st r.row again
        let (e, d) := d.expand t s l recs r.band r.row
        if poison ∨ e.poisoned then d.rebuildFails t b true
        else
          match changed.or e.err with
          | some (c, pos) => d.malformed (r.band / 2) c pos r.sseq r.row false true
          | none =>
            let vals := faulty e.vals glitch
            let crc := blockCrc vals
            let word := if s.winnow then d.checkWord r.sseq r.band r.row else some crc
            let all := (List.range vals.length).map (· + 64 * r.row)
            if !b.badLines.isEmpty then
              if word = some crc then
                let d := d.writeLines t s r.band r.row vals b.badLines
                let d := d.ldgStroke r.sseq cEXP (sumN (b.rem.map (·.2)))
                d.updBlock r.sseq r.band r.row fun b =>
                  { b with st := .strikable, badLines := [], rem := [], susp := false
                           vals := b.vals.mapIdx fun i v => if b.badLines.contains (64 * b.row + i) then nth vals i [] else v }
              else d.rebuildFails t b false
            else
              let d := if b.vals.isEmpty then d.densCheck l r.band r.row e.cost else d
              let d := d.writeLines t s r.band r.row vals all
              let d := d.updBlock r.sseq r.band r.row fun b => { b with crc, vals := vals, cls := e.cls, susp := false }
              match word with
              | none => d.updBlock r.sseq r.band r.row fun b => { b with st := .checking, thr := t }
              | some w =>
                if w = crc then
                  let d := d.toStrikable r.sseq r.band r.row
                  if r.why == .mismatch || r.why == .resume then
                    let d := d.event 0x3401 (toLE 1 b.band ++ toLE 1 b.thr ++ toLE 1 t ++ toLE 1 0 ++ toLE 4 b.row ++ toLE 4 b.firstCrc)
                    d.countMatched b.thr l.lseq l.thresh
                  else d
                else if r.why == .poisonInput then d.rebuildFails t b false
                else d.faultBlock b t w
    | _, _, _, _ => { d with sheaf := { d.sheaf with rebuilds := d.sheaf.rebuilds.filter (·.thr != some t) } }

/-- RESUME takes effect: FAULTED blocks and lines whose rebuild failed are rebuilt once more (R153, R157), and the hold for
a stroke that is never accepted comes again (R127). -/
def Dev.resumeBlocks (d : Dev) : Dev :=
  let d := { d with sheaf := { d.sheaf with fails := d.sheaf.fails.map fun (f : FailRow) => { f with raised := false } } }
  d.sheaf.blocks.foldl (fun (d : Dev) (b : Block) =>
    if b.st == .faulted then
      (d.updBlock b.sseq b.band b.row fun b => { b with st := .reexpanding }).queueRebuild b.sseq b.band b.row .resume
    else if b.susp then
      (d.updBlock b.sseq b.band b.row fun b => { b with susp := false }).queueRebuild b.sseq b.band b.row
        (if b.badLines.isEmpty then (if b.once then .resume else .poisonInput) else .poisonDose)
    else d) d

/-- A Tiller finds the nominal dose of a line poisoned (R155, R157, R608); `rem` is its remainder R_L. -/
def Dev.dosePoisoned (d : Dev) (sseq band line rem : Nat) : Dev :=
  match d.block? sseq band (line / 64) with
  | none => d
  | some b =>
    if b.badLines.contains line then d
    else
      let d := d.updBlock sseq band (line / 64) fun b => { b with badLines := b.badLines ++ [line], rem := b.rem ++ [(line, rem)] }
      let mark := fun (e : Entry) => if e.sseq = sseq ∧ e.line = line then { e with left := true } else e
      let d := { d with ra := { d.ra with cols := d.ra.cols.mapIdx fun (c : Nat) (x : Column) =>
        if c / 8 = band then { x with queue := x.queue.map mark } else x } }
      (d.ldgStroke sseq cPOI rem).queueRebuild sseq band (line / 64) .poisonDose

/-! ### Register writes -/

/-- A queued or running library check ends without result (R164). -/
def Dev.endLib (d : Dev) : Dev :=
  match d.sheaf.lib with
  | none => d
  | some v => ({ d with sheaf := { d.sheaf with lib := none } }).endCmd v.desc stBAD_MODE []

/-- A write of EN = 0 to THR_n_CTL (R159, R160, R164). R159 describes it in Expose and Hold: DESIGN CHOICE, in every other
mode the spare takes the band over and event 0x3405 is logged alike. A spare that is disabled while it still expands a
block of a band it has given back leaves that block to be rebuilt (R155, R164). -/
def Dev.thrDisable (d : Dev) (n : Nat) : Dev :=
  let a := Reg.THR_n_CTL n
  if !d.flag a Fd.THR_n_CTL_EN then d
  else
    let refused := d.event 0x3404 (toLE 1 n ++ toLE 1 (d.sheaf.subst.getD 0xFF))
    if n = 16 then
      if d.sheaf.subst.isSome then refused
      else
        let d := (d.set a Fd.THR_n_CTL_EN 0).endLib
        let d := { d with sheaf := { d.sheaf with rebuilds := d.sheaf.rebuilds.map fun (r : Rebuild) => if r.thr == some 16 then { r with thr := none } else r } }
        match (d.thr 16).busy with
        | some (sseq, band, row) =>
          ((d.setThr 16 fun th => { th with busy := none }).updBlock sseq band row fun b => { b with st := .reexpanding }).queueRebuild
            sseq band row .thrChange
        | none => d
    else if (d.thr n).retired then d.set a Fd.THR_n_CTL_EN 0
    else if !d.spareEn ∨ d.sheaf.subst.isSome then refused
    else (d.set a Fd.THR_n_CTL_EN 0).takeOver n 0

/-- A write of EN = 1 to THR_n_CTL (R159, R164). -/
def Dev.thrEnable (d : Dev) (n : Nat) : Dev :=
  let a := Reg.THR_n_CTL n
  if d.flag a Fd.THR_n_CTL_EN then d
  else
    let d := d.set a Fd.THR_n_CTL_EN 1
    if d.sheaf.subst = some n ∧ !(d.thr n).retired then d.giveBack n else d

/-- A write of REINSTATE to THR_n_CTL (R161). -/
def Dev.thrReinstate (d : Dev) (n : Nat) : Dev :=
  if (d.thr n).retired then
    let d := d.setThr n fun th => { th with retired := false, matched := [] }
    if d.sheaf.subst = some n ∧ d.flag (Reg.THR_n_CTL n) Fd.THR_n_CTL_EN then d.giveBack n else d
  else d

/-- THRESHER_DISABLE (R159). -/
def thresherDisable (n dt : Nat) (d : Dev) : Dev :=
  let d := d.after dt
  if d.hostOk ∧ n ≤ 16 then d.thrDisable n else d

/-- THRESHER_ENABLE (R159). -/
def thresherEnable (n dt : Nat) (d : Dev) : Dev :=
  let d := d.after dt
  if d.hostOk ∧ n ≤ 16 then d.thrEnable n else d

/-- THRESHER_REINSTATE (R161). -/
def thresherReinstate (n dt : Nat) (d : Dev) : Dev :=
  let d := d.after dt
  if d.hostOk ∧ n ≤ 16 then d.thrReinstate n else d

end Sys2Proof.Machine
end

