-- ==== Sys2Proof/Machine/Tiller.lean ====
section
/-!
DEFINITION. The Tillers (chapters 05 and 06): computing and replaying queue entries, shadowed parameters, share
configurations, health commits, enable changes, temperature latches and ramps.
-/
namespace Sys2Proof.Machine

/-! ### Inputs of an entry (R200) -/

/-- The requester of the Tiller of a column (R447, R452). -/
def rqTil (c : Nat) : Rq := ⟨c / 8, c % 8, 0⟩

/-- t_set of a tile (R319). -/
def Dev.tset (d : Dev) (t : Nat) : List Int :=
  [toS 16 (d.get (Reg.CAL_t_TSET01 t) Fd.CAL_t_TSET01_TSET0), toS 16 (d.get (Reg.CAL_t_TSET01 t) Fd.CAL_t_TSET01_TSET1),
   toS 16 (d.get (Reg.CAL_t_TSET23 t) Fd.CAL_t_TSET23_TSET2), toS 16 (d.get (Reg.CAL_t_TSET23 t) Fd.CAL_t_TSET23_TSET3),
   toS 16 (d.get (Reg.CAL_t_TSET4 t) Fd.CAL_t_TSET4_TSET4)]

/-- The bank the Tillers read: the one in force, or during a boundary replay the incoming one (R316, R334). -/
def CalTile.usedBank (c : CalTile) : Nat := if c.early then 1 - c.bank else c.bank

/-- Address of the calibration bank x of a tile (R315). -/
def Dev.calBank (d : Dev) (t x : Nat) : Nat := d.cal.base + 0xA0000 * (2 * t + x)

/-- Five words per beam from five lists of words. -/
def transpose5 : Nat → List (List (Nat × Bool)) → List (List (Nat × Bool))
  | 0, _ => []
  | n + 1, ls => (ls.map fun l => l.headD (0, true)) :: transpose5 n (ls.map (·.drop 1))

/-- The 64-bit calibration words of a run of n HBM3E words, with poison marks (R211, R315). -/
def Dev.calSet (d : Dev) (rq : Rq) (a n : Nat) : List (Nat × Bool) × Dev :=
  let (w, d) := d.hbmWords rq a n
  (w.flatMap fun v => [(v.1 % 2 ^ 64, v.2), (v.1 >>> 64, v.2)], d)

/-- The calibration words of a column's 2,048 beams from one bank: five sets each, with poison marks (R211, R315). -/
def Dev.calWords (d : Dev) (rq : Rq) (t k x : Nat) : List (List (Nat × Bool)) × Dev :=
  let (sets, d) := (List.range 5).foldl (fun (y : List (List (Nat × Bool)) × Dev) s =>
    let (w, d) := y.2.calSet rq (d.calBank t x + 8 * (16384 * s + 2048 * k)) 1024
    (y.1 ++ [w], d)) ([], d)
  (transpose5 2048 sets, d)

/-- The safety ceiling in force of a beam (R557). -/
def Dev.ceiling (d : Dev) (b : Nat) : Nat :=
  let w := d.rd (Reg.SAF_CEIL_j (b / 2))
  if b % 2 = 1 then bits w 27 16 else bits w 11 0

/-- Whether pixel p on a line lies outside the safety partition's geofence (R218, R569). -/
def Dev.fenced (d : Dev) (line p : Nat) : Bool :=
  let px := d.rd Reg.SAF_FENCE_PIX
  decide (line < d.rd Reg.SAF_FENCE_L0) || decide (d.rd Reg.SAF_FENCE_L1 < line) ||
    decide (p < bits px 14 0) || decide (bits px 30 16 < p)

/-- The predicted strike time and period of a stroke tick, in ns; the third part says that they are provisional
(R172, R667): no prediction exists, or the stroke is not the one the stage moves through. -/
def Dev.strikeTime (d : Dev) (sseq s : Nat) : Nat × Nat × Bool :=
  let here := match d.motionStroke with | some m => m.sseq == sseq | none => false
  match (if here then d.predict s else none), d.predict (s + 1) with
  | some t, some u => (t.toNat, (u - t).toNat, false)
  | _, _ => (d.ns, 5000, true)

/-- The first poisoned input of an entry: its kind (R223) and emitter. -/
structure Poison where
  kind : Nat
  emitter : Nat
  deriving DecidableEq, Repr

/-- What the chain makes of one beam: code, share, energy, whether it is geofenced, and a headroom failure. -/
structure Beam where
  code : Nat
  s : Nat
  e : Nat
  geo : Bool
  fail : Option Nat
  deriving DecidableEq, Repr

/-- Whether a ramp is active for a column, with its start for a line Q of a new entry (R214). -/
def Column.rampOn (x : Column) : Bool := x.rampAct

/-- What a Tiller fetches for a line-pass: the heat factors, one for eight pixels, and the calibration words of the bank in
use and, on a ramp, of the incoming one. -/
structure ChainIn where
  heat : List (Option Nat) := []
  cal : List (List (Nat × Bool)) := []
  inc : List (List (Nat × Bool)) := []

/-- Heat factors are fetched once more where one arrives poisoned (R220). -/
def Dev.heatTwice (d : Dev) (hs : HStroke) (line t tp : Nat) : List (Option Nat) × Dev :=
  let (hf, d) := d.heatFetch hs line t tp
  if hf.any (·.isNone) then d.heatFetch hs line t tp else (hf, d)

/-- Calibration words are fetched once more where one arrives poisoned (R220). -/
def Dev.calTwice (d : Dev) (rq : Rq) (t k x : Nat) : List (List (Nat × Bool)) × Dev :=
  let (w, d) := d.calWords rq t k x
  if w.any fun r => r.any (·.2) then d.calWords rq t k x else (w, d)

/-- The words of the bank in use and of the incoming one (R214). -/
def Dev.calBoth (d : Dev) (c : Nat) : (List (List (Nat × Bool)) × List (List (Nat × Bool))) × Dev :=
  let bank := (nth d.cal.tiles (c / 8) {}).usedBank
  let (cw, d) := d.calTwice (rqTil c) (c / 8) (c % 8) bank
  if (d.col c).rampAct then
    let (ci, d) := d.calTwice (rqTil c) (c / 8) (c % 8) (1 - bank)
    ((cw, ci), d)
  else ((cw, []), d)

/-- The fetches of a line-pass predicted to strike at tp ns (R200, R220). -/
def Dev.chainReads (d : Dev) (c : Nat) (hs : HStroke) (line tp : Nat) : ChainIn × Dev :=
  let (hf, d) := d.heatTwice hs line (c / 8) tp
  let ((cw, ci), d) := d.calBoth c
  ({ heat := hf, cal := cw, inc := ci }, d)

/-- The first poisoned input, in the order of R223; `clsBad` is a heat cell whose class-plane entry (R255), and `ceilBad` an
emitter whose ceiling is poisoned on both fetches. -/
def firstPoison (x : ChainIn) (rows : List (List (Option Nat))) (clsBad ceilBad : Option Nat) : Option Poison :=
  let calBad := (x.cal.findIdx? fun r => r.any (·.2)).orElse fun _ => x.inc.findIdx? fun r => r.any (·.2)
  let heatBad := match x.heat.findIdx? (·.isNone), clsBad with
    | some i, some j => some (min i j)
    | some i, none => some i
    | none, j => j
  match heatBad, calBad, rows.findIdx? fun r => r.any (·.isNone), ceilBad with
  | some i, _, _, _ => some ⟨0, 8 * i⟩
  | none, some i, _, _ => some ⟨1, i⟩
  | none, none, some i, _ => some ⟨2, i⟩
  | none, none, none, some i => some ⟨3, i⟩
  | none, none, none, none => none

/-- The working constants of a column's beams (R212 to R214). -/
def Dev.workingSet (d : Dev) (c q : Nat) (x : ChainIn) : List (Nat × Nat) :=
  let col := d.col c
  let temp := nth d.ra.tileT (c / 8) 0
  let set := d.tset (c / 8)
  let fr := match col.rampQ with | some qr => rampFr q qr (clampN 16 4096 col.rampN) | none => 0
  let cal := x.cal.map fun r => working (r.map (·.1)) set temp
  if col.rampAct then List.zipWith (fun o r => ramped o (working (r.map (·.1)) set temp) fr) cal x.inc else cal

/-- What the chain makes of emitter e: n its nominal dose, h its health entries, hf its heat factor, g and w0 its working
constants (R203 to R219). -/
def Dev.beam (d : Dev) (c : Nat) (l : Layer) (ms : List Nat) (w : List Nat) (line per e n : Nat) (h : List (Option Nat))
    (hf g w0 : Nat) : Beam :=
  let t := c / 8
  let k := c % 8
  let m := nth d.ra.tileM t 0x4000
  let (sh, fail) := share ms w (h.map fun (e : Option Nat) => e.getD 0) k
  let en := targetEnergy n sh hf l.duEnergy
  let geo := d.fenced line (2048 * t + e)
  if fail then { code := 0, s := sh, e := en, geo, fail := some 0 }
  else if geo then { code := 0, s := sh, e := en, geo, fail := none }
  else
    match widthCode en (gainV g m) w0 (d.ceiling (16384 * t + 2048 * k + e)) per (d.col c).delay with
    | .ok code => { code, s := sh, e := en, geo, fail := none }
    | .error f => { code := 0, s := sh, e := en, geo, fail := some f }

/-- The entry that the beams of a line-pass make: a headroom failure leaves no codes (R205, R217). -/
def entryOfBeams (base : Entry) (beams : List Beam) : Entry × Option (Nat × Nat) :=
  match beams.findIdx? fun b => b.fail.isSome with
  | some e =>
    let f := match beams[e]? with | some b => b.fail.getD 0 | none => 0
    ({ base with failed := true, shares := beams.map (·.s) }, some (f, e))
  | none =>
    ({ base with codes := beams.map (·.code), shares := beams.map (·.s), geo := beams.map (·.geo), es := beams.map (·.e) }, none)

/-- The entry of a line-pass from what was fetched for it (R200 to R219). -/
def Dev.chainEntry (d : Dev) (c : Nat) (s : Stroke) (l : Layer) (line : Nat) (dose : List Nat) (clsBad ceilBad : Option Nat)
    (x : ChainIn) : Entry × Option (Nat × Nat) × Option Poison :=
  let t := c / 8
  let tick := line + c % 8 * d.sOf t
  let (tp, per, prov) := d.strikeTime s.sseq tick
  let mask := d.tileMask t
  let cfg := d.lineCfg t s.sseq line
  let ms := d.masksOf t s.sseq line mask
  let base : Entry := { sseq := s.sseq, line, tick, q := s.q0 + line, tPred := tp, period := per, epoch := d.ra.epoch, mask,
                        stale := prov, ptick := prov, dose }
  match firstPoison x cfg.rows clsBad ceilBad with
  | some p => ({ base with poison := true }, none, some p)
  | none =>
    let hrep := x.heat.flatMap fun h => List.replicate 8 (h.getD 0)
    let beams := (List.zip (List.zip dose cfg.rows) (List.zip hrep (d.workingSet c (s.q0 + line) x))).mapIdx fun e y =>
      d.beam c l ms cfg.w line per e y.1.1 y.1.2 y.2.1 y.2.2.1 y.2.2.2
    let (e, f) := entryOfBeams base beams
    (e, f, none)

/-- Compute the codes of a line-pass (R200 to R219); its nominal dose is read by the caller. -/
def Dev.chain (d : Dev) (c : Nat) (s : Stroke) (l : Layer) (hs : HStroke) (line : Nat) (dose : List Nat)
    (clsBad ceilBad : Option Nat) : (Entry × Option (Nat × Nat) × Option Poison) × Dev :=
  let (x, d) := d.chainReads c hs line (d.strikeTime s.sseq (line + c % 8 * d.sOf (c / 8))).1
  (d.chainEntry c s l line dose clsBad ceilBad x, d)

/-- Read the nominal dose of a line (R140, R155): none where it is poisoned, and then the line is handed to
re-expansion. -/
def Dev.readDose (d : Dev) (c : Nat) (s : Stroke) (line : Nat) : Option (List Nat) × Dev :=
  let t := c / 8
  let ((bs, p), d) := d.hbmRead (rqTil c) (slotAddr d.sheaf.rabBase t (s.q0 + line)) 3072
  if p then (none, d.dosePoisoned s.sseq t line (d.lineRemainder t s.sseq line)) else (some (unpack12 bs), d)

/-- A failed entry registers its hold cause for its due boundary: at once where that is the next edge, at its commit point
even if that has passed (R205, R220). An entry due later keeps its mark, and the due point registers the cause from it. -/
def Dev.dueTrigger (d : Dev) (e : Entry) (cause : Nat) : Dev := if d.dueNext e.sseq e.tick then d.triggerNext (.hold cause) else d

/-- What follows an entry's computation: the failure and poison events, counts and hold causes (R205, R220). -/
def Dev.entryNotes (d : Dev) (c : Nat) (e : Entry) (fail : Option (Nat × Nat)) (bad : Option Poison) : Dev :=
  let d := d.pmc 4 none 0 2048
  match bad, fail with
  | some p, _ => (d.event 0x4D06 (toLE 1 c ++ toLE 1 p.kind ++ toLE 2 p.emitter ++ toLE 4 e.line)).dueTrigger e 0x0B
  | none, some (f, em) =>
    ((d.bump (Reg.TIL_n_HR_CNT c)).event 0x4D01 (toLE 1 c ++ toLE 1 f ++ toLE 2 em ++ toLE 4 e.line ++ toLE 4 e.tick)).dueTrigger e 0x0A
  | none, none => d

/-- Insert an entry in its queue, which is in order of stroke and tick. -/
def putEntryIn (e : Entry) : List Entry → List Entry
  | [] => [e]
  | x :: r =>
    if x.sseq = e.sseq ∧ x.tick = e.tick then e :: r
    else if before e.sseq e.tick x.sseq x.tick then e :: x :: r
    else x :: putEntryIn e r

/-- Whether the layer before a stroke's has closed (R237). -/
def Dev.prevClosed (d : Dev) (l : Layer) : Bool := l.num == 0 || (d.tClose (l.num - 1)).isSome

/-- The next line-pass a column computes (R173): past lines struck, squashed or of an ended stroke. -/
def Dev.nextPass (d : Dev) (c : Nat) : (fuel : Nat) → Nat × Nat → Nat × Nat
  | 0, x => x
  | fuel + 1, (s, line) =>
    match d.stroke? s with
    | none => if s < d.sheaf.nextSseq then d.nextPass c fuel (s + 1, 0) else (s, line)
    | some st =>
      if st.ended ∨ st.aborted ∨ st.n ≤ line then d.nextPass c fuel (s + 1, 0)
      else
        match d.mapLine? (c / 8) s line with
        | some m => if nth m.lp (c % 8) .none == .none then (s, line) else d.nextPass c fuel (s, line + 1)
        | none => (s, line)

/-- The strike-critical window of the present tick: its first 2,048 cc (R44). -/
def Dev.inCritical (d : Dev) : Bool := decide (d.clk.up < d.top.edgeUp + 2048)

/-- Whether a Tiller computes an entry now (R173): one in the strike-critical window of each tick, and in the rest of
the tick only while no replay is pending. The bandwidths of R43 leave room for every duty, so nothing waits for one.
-/
def Dev.mayCompute (d : Dev) (x : Column) : Bool :=
  (d.inCritical && x.winTick != some d.top.tick) || (!d.inCritical && !x.queue.any (·.stale))

/-- Whether a Tiller replays now: after the strike-critical window of a strike tick, and in all of an idle one (R173,
R180). -/
def Dev.mayReplay (d : Dev) : Bool := !(d.top.isStrike && d.inCritical)

/-- On-chip inputs of a Tiller that arrive uncorrectable are accounted (R476, R480): a class-plane entry by the decoder of
the heat memory engine, a ceiling by the Tiller's own. -/
def Dev.chainUpsets (d : Dev) (c : Nat) (clsBad ceilBad : Option Nat) : Dev :=
  let d := if clsBad.isSome then d.sramBad 181 else d
  if ceilBad.isSome then d.sramBad (32 + c) else d

/-- TILLER_ENTRY_COMPUTE (R173): the Tiller of column c computes its next entry. `clsBad` is a heat cell whose
class-plane entry, `ceilBad` an emitter whose ceiling arrives poisoned on both fetches (R220, R255). Column c is
served by Tiller c (R199). -/
def tillerEntryCompute (c : Nat) (clsBad ceilBad : Option Nat) (dt : Nat) (d : Dev) : Dev :=
  let d := d.after dt
  let col := d.col c
  let (sseq, line) := d.nextPass c 4096 col.nextLine
  match d.stroke? sseq, d.layerOf sseq, d.hstroke? sseq with
  | some s, some l, some hs =>
    if !d.up ∨ !d.expoOrHold ∨ 128 ≤ c ∨ !col.en ∨ 64 ≤ col.queue.length ∨ !d.mayCompute col ∨ !d.prevClosed l ∨ !d.strikable sseq (c / 8) line then d
    else
      match d.readDose c s line with
      | (none, d) => d
      | (some dose, d) =>
        let d := if col.rampAct ∧ col.rampQ.isNone then d.setCol c fun x => { x with rampQ := some (s.q0 + line) } else d
        let ((e, fail, bad), d) := (d.chainUpsets c clsBad ceilBad).chain c s l hs line dose clsBad ceilBad
        let d := d.setCol c fun x =>
          { x with queue := putEntryIn e x.queue, nextLine := (sseq, line + 1)
                   winTick := if d.inCritical then some d.top.tick else x.winTick
                   hrFail := x.hrFail || fail.isSome
                   rampMax := if x.rampAct then max x.rampMax (s.q0 + line + 1) else x.rampMax }
        d.entryNotes c e fail bad
  | _, _, _ => d

/-- CORRECTION_REPLAY (R179, R180): the Tiller of column c recomputes its first stale entry. -/
def correctionReplay (c : Nat) (clsBad ceilBad : Option Nat) (dt : Nat) (d : Dev) : Dev :=
  let d := d.after dt
  let col := d.col c
  match col.queue.find? (·.stale) with
  | none => d
  | some e0 =>
    match d.stroke? e0.sseq, d.layerOf e0.sseq, d.hstroke? e0.sseq with
    | some s, some l, some hs =>
      if !d.up ∨ !d.expoOrHold ∨ 128 ≤ c ∨ !d.mayReplay ∨ !d.strikable e0.sseq (c / 8) e0.line then d
      else
        match d.readDose c s e0.line with
        | (none, d) => d
        | (some dose, d) =>
          let ((e, fail, bad), d) := (d.chainUpsets c clsBad ceilBad).chain c s l hs e0.line dose clsBad ceilBad
          let d := d.setCol c fun x =>
            let q := putEntryIn e x.queue
            { x with queue := q, hrFail := q.any (·.failed) }
          let d := (d.bump Reg.TIL_REPLAY_CNT).pmc 5 none 0 2048
          d.entryNotes c e fail bad
    | _, _, _ => d

/-! ### Shadowed parameters (R221, R222) -/

/-- Whether the seal window of the next edge is open (R40). -/
def Dev.sealed (d : Dev) : Bool := d.top.sealOpen

/-- The ramp shadow of a column is written, by the host or by the device (R221, R225). N is 16 to 4,096: DESIGN CHOICE, a
value outside that range but 0 is stored as the nearest in it. -/
def Dev.rampWrite (d : Dev) (n : Nat) (act : Bool) (len : Nat) : Dev :=
  let len := if len = 0 then 0 else clampN 16 4096 len
  (d.wr (Reg.TIL_n_RAMP n) (b2n act * 2 ^ 31 + len)).setCol n fun x =>
    if d.sealed then { x with shRampIn := some (act, len) } else { x with shRamp := some (act, len) }

/-- SHADOW_WRITE's effect (R40, R221, R225): a host write to TIL_n_DELAY (`which` 0), TIL_n_SHARE (1) or TIL_n_RAMP
reaches its shadow. A write inside the seal window waits beside one that completed before it, for the following edge. -/
def Dev.shadowWrite (d : Dev) (n which v : Nat) : Dev :=
  if which = 0 then
    (d.wr (Reg.TIL_n_DELAY n) (v % 256)).setCol n fun x =>
      if d.sealed then { x with shDelayIn := some (v % 256) } else { x with shDelay := some (v % 256) }
  else if which = 1 then
    let w := min (v % 65536) 32768
    (d.wr (Reg.TIL_n_SHARE n) w).setCol n fun x =>
      if d.sealed then { x with shShareIn := some w } else { x with shShare := some w }
  else d.rampWrite n (bit v 31) (bits v 12 0)

/-- SHADOW_WRITE (R221): a host write of v to a shadowed parameter of column n completes. -/
def shadowWrite (n which v dt : Nat) (d : Dev) : Dev :=
  let d := d.after dt
  if d.hostOk ∧ n < 128 ∧ which < 3 then d.shadowWrite n which v else d

/-- A column's last hand-over is this edge (R222). -/
def Dev.setHandover (d : Dev) (c : Nat) : Dev := d.setCol c fun x => { x with handover := d.top.tick }

/-- A column's shadows that completed before the seal window are handed over, and those written inside it wait for the
following edge (R39, R40, R221). -/
def Column.handOver (x : Column) : Column :=
  let x := match x.shDelay with | some v => { x with delay := v } | none => x
  let x := match x.shShare with | some v => { x with wNext := v, sharePend := true } | none => x
  let x := match x.shRamp with | some (a, n) => { x with rampAct := a, rampN := n, rampQ := none, rampMax := 0 } | none => x
  { x with shDelay := x.shDelayIn, shDelayIn := none, shShare := x.shShareIn, shShareIn := none, shRamp := x.shRampIn, shRampIn := none }

/-- Step 1 of R39 for one column: its shadows are handed over; a weight waits for its configuration (R206). -/
def Dev.handOver (d : Dev) (c : Nat) : Dev :=
  let x := d.col c
  let d := d.setCol c Column.handOver
  let d := if x.shShare.isSome then
      let wait := fun (o : Option (Bool × Bool)) => match o with | some (h, _) => some (h, true) | none => some (false, true)
      { d with ra := { d.ra with cfgWait := put 16 none d.ra.cfgWait (c / 8) wait } }
    else d
  if x.shDelay.isSome || x.shRamp.isSome then d.setHandover c else d

/-! ### Share configurations and the health map (R206, R207) -/

/-- Words of a run, fetched once more where one arrives poisoned (R220). -/
def Dev.wordsTwice (d : Dev) (rq : Rq) (a n : Nat) : List (Nat × Bool) × Dev :=
  let (w, d) := d.hbmWords rq a n
  if w.any (·.2) then d.hbmWords rq a n else (w, d)

/-- The 32-bit health entries of a run of words; those of a poisoned word stay poisoned. -/
def Dev.healthAt (d : Dev) (rq : Rq) (a n : Nat) : List (Option Nat) × Dev :=
  let (w, d) := d.wordsTwice rq a n
  (w.flatMap fun v => (List.range 4).map fun i => if v.2 then none else some ((v.1 >>> (32 * i)) % 2 ^ 32), d)

/-- Load a tile's 64 KiB of a health-map bank (R201, R207); an entry whose word is poisoned on both fetches stays
poisoned. -/
def Dev.loadHealth (d : Dev) (t bank : Nat) : List (Option Nat) × Dev :=
  d.healthAt ⟨t, 0, 0⟩ (d.ra.healthBase + bank * 0x100000 + 65536 * t) 4096

/-- The bank of the health map in force (R227). -/
def Dev.healthBank (d : Dev) : Nat := d.get Reg.TIL_HEALTH_CTL Fd.TIL_HEALTH_CTL_BANK

/-- Put tile t's configurations in force: the next weights and the health loaded (R206, R207). -/
def Dev.putTile (t : Nat) (x : List (Option Nat) × Dev) : Dev :=
  let d := x.2
  let w := (List.range 8).map fun k => (d.col (8 * t + k)).wNext
  let c : ShareCfg := { w, health := x.1, since := (d.sheaf.nextSseq, 0) }
  { d with ra := { d.ra with
    cfgs := put 16 ({}, {}) d.ra.cfgs t fun _ => (c, c)
    cfgWait := put 16 none d.ra.cfgWait t fun _ => none
    cfgStruck := put 16 false d.ra.cfgStruck t fun _ => false } }

/-- Load one tile's configurations: the next weights and the health of the bank in force (R206, R207). -/
def Dev.loadTile (d : Dev) (t : Nat) : Dev := Dev.putTile t (d.loadHealth t d.healthBank)

/-- The flags of a tile's waiting configuration: weights, health. -/
def Dev.waitFlags (d : Dev) (t : Nat) : Nat :=
  match nth d.ra.cfgWait t none with | some (a, b) => b2n a + 2 * b2n b | none => 0

/-- The shares that waited in tile t's columns are handed over (R206, R222). -/
def Dev.handShares (d : Dev) (t : Nat) : Dev :=
  (List.range 8).foldl (fun d k =>
    if (d.col (8 * t + k)).sharePend then (d.setCol (8 * t + k) fun x => { x with sharePend := false }).setHandover (8 * t + k) else d) d

/-- At an entry to Calibrate or Expose from Configure tile t's configurations are loaded and reported (R207). -/
def Dev.loadTileEntry (d : Dev) (t : Nat) : Dev :=
  let flags := d.waitFlags t
  let d := (d.loadTile t).handShares t
  d.event 0x4D02 (toLE 1 t ++ toLE 1 (flags ||| 1) ++ toLE 2 0 ++ toLE 8 d.top.tick)

/-- The health map's base comes into force (R226). -/
def Dev.healthFrom (d : Dev) : Dev := { d with ra := { d.ra with healthBase := d.ra.healthPair } }

/-- No tile waits for a load of the health map (R207). -/
def Dev.healthDone (d : Dev) : Dev := { d with ra := { d.ra with healthPend := 0 } }

/-- At every entry to Calibrate or Expose from Configure each tile's configurations are loaded (R207). -/
def Dev.loadAllHealth (d : Dev) : Dev :=
  ((List.range 16).foldl (fun (d : Dev) t => d.loadTileEntry t) d.healthFrom).healthDone

/-- Whether lines of a tile still use its previous configuration (R206, R225). -/
def Dev.prevInUse (d : Dev) (t : Nat) : Bool :=
  let c := (nth d.ra.cfgs t ({}, {})).1
  (nth d.ra.map t []).any fun m => before m.sseq m.line c.since.1 c.since.2 && m.lp.any (· == .none)

/-- The health that tile t's waiting configuration uses: that of the committed bank, or the current one's (R207). -/
def Dev.nextHealth (d : Dev) (t : Nat) (health : Bool) (cur : ShareCfg) : List (Option Nat) × Dev :=
  if health then d.loadHealth t d.ra.healthBank else (cur.health, d)

/-- The first line that uses a configuration that takes effect now: its stroke and tick (R206). -/
def Dev.configSince (d : Dev) : Nat × Nat :=
  match d.ra.cur, d.ra.sTick with
  | some s, some k => (s, k)
  | some s, none => (s, d.ra.nextTick)
  | none, _ => ((d.motionStroke.map (·.sseq)).getD d.sheaf.nextSseq, 0)

/-- A configuration comes into force in tile t: its health with the device, what it changes, and the first line of it
(R206). -/
def Dev.putConfig (t : Nat) (health weights : Bool) (since : Nat × Nat) (x : List (Option Nat) × Dev) : Dev :=
  let d := x.2
  let (cur, prev) := nth d.ra.cfgs t ({}, {})
  let struck := nth d.ra.cfgStruck t false
  let w := if weights then (List.range 8).map fun k => (d.col (8 * t + k)).wNext else cur.w
  let c : ShareCfg := { w, health := x.1, since }
  { d with ra := { d.ra with
    cfgs := put 16 ({}, {}) d.ra.cfgs t fun _ => (c, if struck then cur else prev)
    cfgWait := put 16 none d.ra.cfgWait t fun _ => none
    cfgStruck := put 16 false d.ra.cfgStruck t fun _ => false
    healthPend := if health then d.ra.healthPend &&& (65535 - 2 ^ t) else d.ra.healthPend } }

/-- Tile t's waiting configuration takes effect (R206): the entries of lines that use it are replayed. -/
def Dev.applyConfig (d : Dev) (t : Nat) (health weights : Bool) : Dev :=
  let since := d.configSince
  let x := d.nextHealth t health (nth d.ra.cfgs t ({}, {})).1
  let d := (((Dev.putConfig t health weights since x).handShares t).orderReplay 3 fun c e =>
    c / 8 == t && !before e.sseq e.line since.1 since.2)
  d.event 0x4D02 (toLE 1 t ++ toLE 1 (b2n health + 2 * b2n weights) ++ toLE 2 0 ++ toLE 8 d.top.tick)

/-- SHARE_CONFIG_APPLY (R206): at a tick edge, tile t's waiting configuration takes effect, once no line uses the
previous one. -/
def shareConfigApply (t dt : Nat) (d : Dev) : Dev :=
  let d := d.after dt
  match nth d.ra.cfgWait t none with
  | none => d
  | some (health, weights) =>
    if !d.up ∨ 16 ≤ t ∨ (nth d.ra.cfgStruck t false ∧ d.prevInUse t) then d else d.applyConfig t health weights

/-- A write of TIL_HEALTH_CTL with COMMIT = 1 (R207). -/
def Dev.healthCommit (d : Dev) (bank : Nat) : Dev :=
  if d.ra.healthPend ≠ 0 then d.event 0x4D04 (toLE 1 bank ++ toLE 1 0 ++ toLE 2 d.ra.healthPend)
  else
    let d := d.set Reg.TIL_HEALTH_CTL Fd.TIL_HEALTH_CTL_BANK bank
    { d with ra := { d.ra with
      healthPend := 0xFFFF, healthBank := bank
      cfgWait := d.ra.cfgWait.map fun | some (_, w) => some (true, w) | none => some (true, false) } }

/-- HEALTH_COMMIT (R207). -/
def healthCommit (bank dt : Nat) (d : Dev) : Dev :=
  let d := d.after dt
  if d.hostOk ∧ bank < 2 then d.healthCommit bank else d

/-! ### Enable changes (R190, R191, R208) -/

/-- A write of TIL_n_CTL.EN: it takes effect at the next tick edge (R208). -/
def Dev.colEnable (d : Dev) (n : Nat) (en : Bool) : Dev :=
  (d.set (Reg.TIL_n_CTL n) Fd.TIL_n_CTL_EN (b2n en)).setCol n fun x => { x with enPend := some en }

/-- COLUMN_DISABLE (R190): TIL_n_CTL.EN is written 0. -/
def columnDisable (n dt : Nat) (d : Dev) : Dev :=
  let d := d.after dt
  if d.hostOk ∧ n < 128 then d.colEnable n false else d

/-- COLUMN_ENABLE (R208): TIL_n_CTL.EN is written 1. -/
def columnEnable (n dt : Nat) (d : Dev) : Dev :=
  let d := d.after dt
  if d.hostOk ∧ n < 128 then d.colEnable n true else d

/-- Event 0x4C03 and TIL_SQUASH_CNT (R178, R195). -/
def Dev.squashNote (d : Dev) (why col n : Nat) : Dev :=
  (d.bumpBy Reg.TIL_SQUASH_CNT n).event 0x4C03 (toLE 1 why ++ toLE 1 col ++ toLE 2 0 ++ toLE 4 n)

/-- Whether some pass of a line has struck it, so that it counts for the ledger (R608). -/
def MapLine.anyStruck (m : MapLine) : Bool := m.lp.any fun | .none => false | .squashed => false | _ => true

/-- The enable masks of a tile change at an edge (R190, R191, R208): `off` lists the columns disabled. The shares of
unsent line-passes on lines that some pass has struck change the ledger; entries of the other columns are replayed;
the answer says whether share() fails somewhere. -/
def Dev.maskChange (d : Dev) (t : Nat) (off on : List Nat) : Bool × Dev :=
  let m0 := d.tileMask t
  let win := nth d.ra.map t []
  let duBefore := win.map fun m => (List.range 8).map fun k =>
    if m.anyStruck && nth m.lp k .none == .none then d.lpDU t k m.sseq m.line else 0
  let d1 := off.foldl (fun (d : Dev) c => d.setCol c fun x => { x with en := false }) d
  let d1 := on.foldl (fun (d : Dev) c => d.setCol c fun x => { x with en := true }) d1
  let m1 := d1.tileMask t
  if m0 = m1 then (false, d1)
  else
    let d2 := (List.zip win duBefore).foldl (fun (d : Dev) x =>
      let (m, dus) := x
      if !m.anyStruck then d
      else
        (List.range 8).foldl (fun (d : Dev) k =>
          if nth m.lp k .none != .none || d.poisonedLine t m.sseq m.line then d
          else
            let old := nth dus k 0
            if off.contains (8 * t + k) then d.ldgStroke m.sseq cCHF old
            else
              let new := d1.lpWeight t k m.sseq m.line m1
              if old ≤ new then d.ldgStroke m.sseq cEXP (new - old : Nat) else d.ldgStroke m.sseq cCHF (old - new : Nat)) d) d1
    let d3 := off.foldl (fun (d : Dev) c =>
      let q := (d.col c).queue
      let first := match q.head? with | some e => (e.sseq, e.line) | none => (d.col c).nextLine
      let d := d.setCol c fun x => { x with queue := [], nextLine := first, hrFail := false }
      if q.isEmpty then d else d.squashNote 1 c q.length) d2
    let d4 := d3.orderReplay 3 fun c _ => c / 8 == t && !off.contains c && !on.contains c
    let fails := win.any fun m => (List.range 8).any fun k =>
      nth m.lp k .none == .none && (d4.lineShares t k m.sseq m.line m1).any (·.2)
    (fails, d4)

/-! ### Temperature latch and ramps (R212, R214) -/

/-- TEMP_LATCH (R212, R226, R329): at an edge whose tick index is a multiple of 256 each tile's T and V are latched. -/
def tempLatch (dt : Nat) (d : Dev) : Dev :=
  let d := d.after dt
  if !d.up ∨ d.top.tick % 256 ≠ 0 ∨ d.ra.latchedAt = some d.top.tick then d
  else
    let d := { d with ra := { d.ra with latchedAt := some d.top.tick, tvAt := d.top.tick + 64 } }
    (List.range 16).foldl (fun (d : Dev) t =>
      let x := d.tile t
      if x.report then
        let temp := asr (x.temps.foldl (· + ·) 0 + 2) 2
        let v := nth x.rails 0 0
        let i := vIndex (d.rd (Reg.TIL_VCFG_t t)) v
        let w := d.rd (Reg.TIL_VTAB_t_j t (i / 2))
        let m := if i % 2 = 1 then bits w 31 16 else bits w 15 0
        let d := { d with ra := { d.ra with tvNext := put 16 (0, 0, 0x4000) d.ra.tvNext t fun _ => (temp, v, m) } }
        let d := d.setTile t fun x => { x with report := false }
        let d := d.wr (Reg.TIL_TILE_STAT_t t) (ofS 16 temp * 65536 + v % 65536)
        let c := nth d.cal.tiles t {}
        let setCal := fun (d : Dev) (f : CalTile → CalTile) => { d with cal := { d.cal with tiles := put 16 {} d.cal.tiles t f } }
        if c.newTile then
          (setCal d fun c => { c with newTile := false }).wr (Reg.CAL_t_LAST_T t) (ofS 16 temp)
        else
          let last := toS 16 (d.rd (Reg.CAL_t_LAST_T t))
          let dT : Int := bits d.cal.ctl 23 16
          let far := decide (dT < (temp - last).natAbs)
          let measuring := match d.cal.run with | some r => bit r.mask t && !r.req.selfTest | none => false
          if bit d.cal.ctl 0 ∧ dT ≠ 0 ∧ far ∧ !c.due ∧ !measuring then
            (setCal d fun c => { c with due := true }).event 0x8A03 (toLE 1 t ++ toLES 2 temp ++ toLES 2 last)
          else d
      else
        let w := (nth d.ra.tvNext t (0, 0, 0x4000))
        let i := vIndex (d.rd (Reg.TIL_VCFG_t t)) w.2.1
        let r := d.rd (Reg.TIL_VTAB_t_j t (i / 2))
        let m := if i % 2 = 1 then bits r 31 16 else bits r 15 0
        let d := { d with ra := { d.ra with tvNext := put 16 (0, 0, 0x4000) d.ra.tvNext t fun x => (x.1, x.2.1, m) } }
        if x.st == .up then d.event 0x4D03 (toLE 1 t) else d) d

/-- The latched values come to apply 64 edges after the latch (R212). -/
def Dev.applyLatch (d : Dev) : Dev :=
  if d.ra.tvAt = d.top.tick ∧ d.top.tick ≠ 0 then
    { d with ra := { d.ra with
      tileT := d.ra.tvNext.map (·.1), tileV := d.ra.tvNext.map (·.2.1), tileM := d.ra.tvNext.map (·.2.2) } }
  else d

/-- End column k's blend and clear its ramp register (R214). -/
def Dev.endRamp (d : Dev) (k : Nat) : Dev :=
  (d.setCol k fun x => { x with rampAct := false, rampQ := none, rampMax := 0 }).wr (Reg.TIL_n_RAMP k) 0

/-- The length of column c's blend (R214). -/
def Dev.rampLen (d : Dev) (c : Nat) : Nat := clampN 16 4096 (d.col c).rampN

/-- Whether column c has computed an entry with Q ≥ Q_r + N (R214). -/
def Dev.rampDone (d : Dev) (c : Nat) : Bool :=
  (d.col c).rampAct && (match (d.col c).rampQ with | some q => decide (q + d.rampLen c < (d.col c).rampMax) | none => false)

/-- Tile t's incoming bank is in force (R214). -/
def Dev.swapBank (d : Dev) (t : Nat) : Dev :=
  { d with cal := { d.cal with tiles := put 16 {} d.cal.tiles t fun c => { c with bank := 1 - c.bank, ramp := false } } }

/-- Tile t's blend ends, and a record says so (R214). -/
def Dev.endBlend (d : Dev) (t n q : Nat) : Dev :=
  (((List.range 8).foldl (fun (d : Dev) k => d.endRamp (8 * t + k)) d).swapBank t).event 0x4D05
    (toLE 1 t ++ toLE 1 0 ++ toLE 2 n ++ toLE 8 q)

/-- RAMP_COMPLETE (R214): all eight columns of tile t have computed an entry with Q ≥ Q_r + N, so the incoming bank
comes into force. -/
def rampComplete (t dt : Nat) (d : Dev) : Dev :=
  let d := d.after dt
  if !d.up ∨ 16 ≤ t ∨ !((List.range 8).all fun k => d.rampDone (8 * t + k)) then d
  else d.endBlend t (d.rampLen (8 * t)) (((d.col (8 * t)).rampQ).getD 0)

end Sys2Proof.Machine
end

