-- ==== Sys2Proof/Machine/Layers.lean ====
section
/-!
DEFINITION. Layers and strokes from their acceptance to their end (chapters 03, 05, 20): acceptance, fences, segment
completions, layer close and completion, the stroke abort, the flag list, and the ledger's slots.
-/
namespace Sys2Proof.Machine

/-! ### Ledger slots (R605, R606, R609, R612) -/

/-- Change a ledger slot. -/
def Dev.setSlot (d : Dev) (k : Nat) (f : Slot → Slot) : Dev := { d with ldg := { d.ldg with slots := put 4 {} d.ldg.slots k f } }

/-- A ledger slot. -/
def Dev.slot (d : Dev) (k : Nat) : Slot := nth d.ldg.slots k {}

/-- The lowest slot that is not open (R606). -/
def Dev.freeSlot (d : Dev) : Option Nat := firstIdx 4 fun k => (d.slot k).st != .opened

/-- A layer becomes invalid (R612): event 0xF301, once; `why` is 0 poison, 1 saturation, 2 length. -/
def Dev.invalidate (d : Dev) (k why : Nat) : Dev :=
  let s := d.slot k
  if s.invalid then d
  else (d.setSlot k fun s => { s with invalid := true }).event 0xF301 (toLE 4 s.layer ++ toLE 1 k ++ toLE 1 why)

/-- Apply one registered change; a counter that would leave 64 bits saturates and makes the layer invalid (R612). -/
def Dev.ldgOne (d : Dev) (x : Nat × Nat × Int) : Dev :=
  let (k, c, a) := x
  let v := ((nth (d.slot k).cnt c 0 : Nat) : Int) + a
  let d := d.setSlot k fun s => { s with cnt := put 6 0 s.cnt c fun _ => min v.toNat (2 ^ 64 - 1) }
  if (2 ^ 64 : Int) ≤ v then d.invalidate k 1 else d

/-- At an edge the changes registered since the last one are applied together, and the metrology partition gets a
snapshot of every layer whose counters changed (R579, R609). -/
def Dev.ldgApply (d : Dev) : Dev :=
  let pend := d.ldg.pend
  if pend.isEmpty then d
  else
    let d := { (pend.foldl Dev.ldgOne d) with ldg := { (pend.foldl Dev.ldgOne d).ldg with pend := [] } }
    ((List.range 4).filter fun k => pend.any (·.1 == k)).foldl (fun (d : Dev) k =>
      d.metSnapshot (d.slot k).layer (d.slot k).cnt d.top.tick (d.slot k).invalid) d

/-! ### The flag list (R390) -/

/-- Entries of the flag list (R407). -/
def Dev.flagSize (d : Dev) : Nat := 2 ^ clampN 6 22 (d.get Reg.RING_FLAG_CTL Fd.RING_FLAG_CTL_LOG2N)

/-- Flag one pixel (R189, R299, R390): counted for the layer, and written while the list is enabled and has space. -/
def Dev.flagPixel (d : Dev) (sseq line pass reason pix : Nat) : Dev :=
  match d.stroke? sseq, d.layerOf sseq with
  | some s, some l =>
    let d := d.updLayer l.lseq fun l => { l with flagged := sat 32 (l.flagged + 1) }
    if !d.flag Reg.RING_FLAG_CTL Fd.RING_FLAG_CTL_EN then d
    else
      let k := d.rd Reg.RING_FLAG_PROD
      let used := (k + 2 ^ 32 - d.rd Reg.RING_FLAG_CONS) % 2 ^ 32
      if d.flagSize ≤ used then (d.bump Reg.RING_FLAG_LOST).updLayer l.lseq fun l => { l with flagOvf := true }
      else
        let e := toLE 4 l.num ++ toLE 1 s.stroke ++ toLE 1 pass ++ toLE 1 reason ++ toLE 1 0 ++ toLE 4 line ++ toLE 2 pix ++ toLE 2 0
        let addr := d.rd64 Reg.RING_FLAG_LO Reg.RING_FLAG_HI + 16 * (k % d.flagSize)
        let d := (d.dma (.flag k addr e)).wr Reg.RING_FLAG_PROD (k + 1)
        d.updLayer l.lseq fun l => { l with flagEntries := l.flagEntries + 1, flagProd0 := some (l.flagProd0.getD k) }
  | _, _ => d

/-- Flag the pixels of a tile whose beam is picked. -/
def Dev.flagBeams (d : Dev) (t sseq line pass reason : Nat) (picked : List Bool) : Dev :=
  ((List.range 2048).filter fun e => nth picked e false).foldl (fun (d : Dev) e => d.flagPixel sseq line pass reason (2048 * t + e)) d

/-! ### Acceptance of layers (R91, R92, R129, R374, R606) -/

/-- The layer a portion has parsed under a sequence number. -/
def Dev.hdrOf (d : Dev) (n lseq : Nat) : Option LayerHdr := (d.portion n).layers.find? (·.lseq == lseq)

/-- The first portion whose record differs from portion 0's. R91 and R126 do not say which portion event 0x3106 names,
which one is recorded and which one stops parsing when the eight disagree: DESIGN CHOICE, this one. -/
def firstDiffer {α : Type} [BEq α] (l : List α) : Option Nat :=
  match l with
  | [] => none
  | a :: r => (r.findIdx? (· != a)).map (· + 1)

/-- WAIT and event 0xF302, once per wait (R606). -/
def Dev.ldgWait (d : Dev) (num : Nat) : Dev :=
  let d := { d with ldg := { d.ldg with wait := true } }
  if d.sheaf.waitLogged then d
  else ({ d with sheaf := { d.sheaf with waitLogged := true } }).event 0xF302 (toLE 4 num)

/-- The sequence number of a layer's first stroke. -/
def firstStroke (hs : List LayerHdr) : Nat := match hs with | h :: _ => h.first | [] => 0

/-- LAYER_ACCEPT (R91, R92): the LAYER_BEGIN and CLASS_TABLE records of all eight portions have arrived. -/
def layerAccept (dt : Nat) (d : Dev) : Dev :=
  let d := d.after dt
  let lseq := d.sheaf.nextLseq
  let hs := (List.range 8).filterMap fun n => d.hdrOf n lseq
  if !d.up ∨ !d.expoOrHold ∨ hs.length ≠ 8 ∨ hs.any (·.cls.isEmpty) ∨ d.ringFree 1 < d.host.resv1 + 2 then d
  else
    match firstDiffer (hs.map (·.begin_)), firstDiffer (hs.map (·.cls)) with
    | some n, _ =>
      let a := match hs[n]? with | some h => h.beginAt | none => (0, 0)
      d.malformed n 0x3106 ⟨0x10, a.1, a.2⟩ (firstStroke hs) 0 true true
    | none, some n =>
      let a := match hs[n]? with | some h => h.clsAt | none => (0, 0)
      d.malformed n 0x3106 ⟨0x13, a.1, a.2⟩ (firstStroke hs) 0 true true
    | none, none =>
      match d.freeSlot, hs with
      | none, _ => d.ldgWait d.sheaf.nextLayer
      | some k, h :: _ =>
        let num := d.sheaf.nextLayer
        let w0 := rw h.begin_ 0
        let tag := wf w0 55 32
        let lib := nth d.sheaf.libInForce (wf w0 24 24) (0, 0)
        let l : Layer :=
          { lseq, num, tag, duEnergy := wf (rw h.begin_ 1) 47 0
            libBase := lib.1 + 2 ^ 32 * lib.2, libLimit := d.get Reg.THR_LIB_LIMIT Fd.THR_LIB_LIMIT_LIMIT
            scales := classScales h.cls, slot := k
            thresh := d.get Reg.THR_RETIRE_CTL Fd.THR_RETIRE_CTL_THRESH
            reqWinnow := d.flag Reg.THR_SHF_CTL Fd.THR_SHF_CTL_REQUIRE_WINNOW
            densEvt := d.flag Reg.THR_SHF_CTL Fd.THR_SHF_CTL_DENS_EVT_EN }
        let d := { d with
          sheaf := { d.sheaf with layers := d.sheaf.layers ++ [l], nextLayer := num + 1, nextLseq := lseq + 1, waitLogged := false }
          ldg := { d.ldg with wait := false }
          host := { d.host with resv1 := d.host.resv1 + 2, layerResv := d.host.layerResv + 1 } }
        (d.setSlot k fun _ => { st := .opened, layer := num, tag }).metBegin num tag
      | some _, [] => d

/-! ### Acceptance of strokes (R91, R94, R142, R232) -/

/-- A STRIPE_BEGIN record with its PORTION field cleared (R91). -/
def stripeKey (r : List (BitVec 64)) : Nat × List (BitVec 64) := (setBits (rw r 0).toNat 42 40 0, r.drop 1)

/-- A stroke is refused under R232: event 0x5E01, and in every portion what R124 does for a STRIPE_BEGIN condition, with
CODE 0xE01. -/
def Dev.refuseStroke (d : Dev) (sseq : Nat) (detail : List Byte) : Dev :=
  (List.range 8).foldl (fun (d : Dev) p =>
    let first := !d.sheaf.fails.any fun f => f.portion == p && !before sseq 0 f.sseq f.row
    let d := if first then d.shfErr p 0 0xE01 else d
    ({ d with sheaf := { d.sheaf with fails := d.sheaf.fails ++ [({ portion := p, sseq, row := 0, header := true } : FailRow)] } }).updPortion p
      fun x => { x with stopped := true }) (d.event 0x5E01 detail)

/-- The number of the oldest layer not yet complete: the places of its strokes and of those of the layer before it are
still used (R237, R239). -/
def Dev.oldestLayer (d : Dev) (num : Nat) : Nat := d.sheaf.layers.foldl (fun m l => min m l.num) num

/-- STROKE_ACCEPT (R91, R142, R232): the STRIPE_BEGIN records of all eight portions have arrived. -/
def strokeAccept (dt : Nat) (d : Dev) : Dev :=
  let d := d.after dt
  let sseq := d.sheaf.nextSseq
  let ss := (List.range 8).filterMap fun n => d.stripe? n sseq
  match ss with
  | [] => d
  | s0 :: _ =>
    if !d.up ∨ !d.expoOrHold ∨ ss.length ≠ 8 ∨ d.sheaf.fails.any (fun f => f.header && decide (f.sseq ≤ sseq)) then d
    else
      match firstDiffer (ss.map fun s => stripeKey s.hdr), d.layer? s0.lseq with
      | some n, _ =>
        let a := match ss[n]? with | some s => s.at_ | none => (0, 0)
        d.malformed n 0x3106 ⟨0x12, a.1, a.2⟩ sseq 0 true true
      | none, none => d
      | none, some l =>
        let r := s0.hdr
        let n := stripeN r
        let stroke := wf (rw r 0) 39 32
        let ofs := sumN ((d.heat.strokes.filter (·.layer == l.num)).map fun o => (o.n + 7) / 8)
        if d.heat.rows < ofs + (n + 7) / 8 then
          d.refuseStroke sseq (toLE 3 l.num ++ toLE 1 stroke ++ toLE 4 (ofs + (n + 7) / 8) ++ toLE 4 d.heat.rows)
        else
          let x0 := ws (rw r 1) 0
          let y0 := ws (rw r 1) 1
          let s : Stroke :=
            { sseq, lseq := l.lseq, layer := l.num, stroke, n, x0, y0
              blendE := wf (rw r 0) 26 26 == 1, blendW := wf (rw r 0) 25 25 == 1, winnow := stripeWinnow r, q0 := d.sheaf.nextQ }
          let hs : HStroke := { layer := l.num, stroke, sseq, x0, y0, n, ofs }
          let d := { d with
            sheaf := { d.sheaf with strokes := d.sheaf.strokes ++ [s], nextSseq := sseq + 1, nextQ := d.sheaf.nextQ + n }
            heat := { d.heat with strokes := (d.heat.strokes.filter fun (o : HStroke) => decide (d.oldestLayer l.num ≤ o.layer + 1)) ++ [hs] } }
          let d := d.updLayer l.lseq fun l => { l with lastStroke := some stroke, lines := l.lines + n }
          let d := d.wr Reg.THR_WFAULT 0
          if 2097152 < l.lines + n then d.invalidate l.slot 2 else d

/-! ### Outcomes of lines, fences and segments (R85, R118) -/

/-- A line-pass that has its outcome: struck and acknowledged, resolved, or squashed (R85, R181). -/
def LP.isOver : LP → Bool
  | .struck => true | .lost => true | .squashed => true | _ => false

/-- Whether a line of a band has its outcome in all eight passes (R85). -/
def Dev.lineDone (d : Dev) (t sseq line : Nat) : Bool :=
  match d.mapLine? t sseq line with
  | some m => m.lp.all LP.isOver
  | none => match d.stroke? sseq with
    | some s => s.aborted
    | none => decide (sseq < d.sheaf.nextSseq)

/-- Whether lines a to b − 1 of both bands of a portion have their outcomes. -/
def Dev.linesDone (d : Dev) (n sseq a b : Nat) : Bool :=
  (List.range (b - a)).all fun i => d.lineDone (2 * n) sseq (a + i) && d.lineDone (2 * n + 1) sseq (a + i)

/-- Whether every line of a stroke has its outcome in a portion's bands; a stroke not yet accepted has none. -/
def Dev.strokeDone (d : Dev) (n sseq : Nat) : Bool :=
  match d.stroke? sseq with
  | some s => (s.aborted || s.ended) && d.linesDone n sseq 0 s.n
  | none => decide (sseq < d.sheaf.nextSseq)

/-- Whether a record of a portion can contribute to no further expansion (R85). -/
def Dev.refDone (d : Dev) (n : Nat) : SegRef → Bool
  | .layer lseq =>
    match d.layer? lseq with
    | some l => (l.aborted || l.ended.isSome) && (d.sheaf.strokes.filter (·.lseq == lseq)).all fun s => d.strokeDone n s.sseq
    | none => decide (lseq < d.sheaf.nextLseq)
  | .stripe sseq => d.strokeDone n sseq
  | .lines sseq a b =>
    match d.stroke? sseq with
    | some s => d.linesDone n sseq a.toNat ((min (b + 1) (s.n : Int)).toNat)
    | none => decide (sseq < d.sheaf.nextSseq)
  | .block sseq row band =>
    match d.stroke? sseq with
    | some s => (List.range (linesOfRow s.n row)).all fun i => d.lineDone band sseq (64 * row + i)
    | none => decide (sseq < d.sheaf.nextSseq)
  | .fence sseq id =>
    match d.stripe? n sseq with
    | some st => (st.fences.filter (·.id == id)).all (·.past)
    | none => true

/-- Whether a seam message of a layer waits to be sent or acknowledged (R387, R512). -/
def Dev.seamWaits (d : Dev) (num : Nat) : Bool :=
  let mine := fun (f : KFrame) => f.ptype == 0x10 && f.src == d.id && bits f.arg 63 40 == num % 2 ^ 24
  d.kq.any (fun x => mine x.frame) || d.kry.ports.any fun p => p.replay.any fun x => mine x.2

/-- What a segment waits for: its records that contribute to lines, or, where it holds only FENCE records, its fences
(R85). -/
def Segment.owed (s : Segment) : List SegRef :=
  let rs := s.refs.filter fun | .fence .. => false | _ => true
  if rs.isEmpty then s.refs else rs

/-- SEGMENT_COMPLETE (R85, R387): the oldest segment of portion n whose records can contribute to nothing further
completes; its detail is the bytes parsed (R386). -/
def segmentComplete (n dt : Nat) (d : Dev) : Dev :=
  let d := d.after dt
  let p := d.portion n
  if !d.up ∨ 8 ≤ n ∨ !d.ldg.pend.isEmpty then d
  else
    match p.segs.findIdx? fun s => (s.squashed || s.words.length == s.pos && !s.words.isEmpty) && (s.owed.all fun r => d.refDone n r) &&
        !(d.sheaf.layers.any fun l => d.seamWaits l.num) with
    | none => d
    | some i =>
      match p.segs[i]? with
      | none => d
      | some s =>
        (d.updPortion n fun p => { p with segs := p.segs.eraseIdx i }).complete s.desc
          (if s.squashed then stSQUASHED else stOK) (toLE 4 (8 * s.pos))

/-- Whether the Threshers have written every line below `line` of a band (R118); a block that a condition stopped before
its first line was written stays among the blocks, and one that is gone was written and struck. -/
def Dev.writtenBelow (d : Dev) (band sseq line : Nat) : Bool :=
  let (s, r) := nth d.sheaf.bandNext band (0, 0)
  (List.range ((line + 63) / 64)).all fun row =>
    before sseq row s r && (match d.block? sseq band row with | some b => !b.vals.isEmpty | none => true)

/-- FENCE_REACHED (R118): the first fence of portion n with this identifier that has not been reached. -/
def fenceReached (n id dt : Nat) (d : Dev) : Dev :=
  let d := d.after dt
  let isIt := fun (st : Stripe) (f : Fence) => !f.past && f.id == id &&
    (if f.struck then d.linesDone n st.sseq 0 f.line
     else d.writtenBelow (2 * n) st.sseq f.line && d.writtenBelow (2 * n + 1) st.sseq f.line)
  match (d.portion n).stripes.find? fun st => (d.stroke? st.sseq).any (fun s => !s.aborted) && st.fences.any (isIt st) with
  | none => d
  | some st =>
    if !d.up ∨ 8 ≤ n then d
    else
      match st.fences.findIdx? (isIt st) with
      | none => d
      | some i =>
        match st.fences[i]? with
        | none => d
        | some f =>
          let mark := fun (x : Stripe) => if x.sseq = st.sseq then { x with fences := upd x.fences i fun f => { f with past := true } } else x
          let d := d.updPortion n fun p => { p with stripes := p.stripes.map mark }
          let d := d.fenceNote n f.id f.struck
          d.event (if f.struck then 0x3302 else 0x3301) (toLE 4 f.id ++ toLE 4 f.line ++ toLE 1 n)

/-! ### Close and completion of a layer (R236, R387, R389) -/

/-- A layer closes at the latest tick edge: t_close is that edge's heat time (R236). -/
def Dev.closeLayer (d : Dev) (l : Layer) (aborted : Bool) : Dev :=
  let t := heatTime (d.top.edgeAt >>> 32)
  let d := d.updLayer l.lseq fun l => { l with closedAt := some t, closeTick := d.top.tick, aborted := aborted || l.aborted }
  let ready := fun (c : CalTile) => if c.pend = some true then { c with pendReady := true } else c
  { d with
    heat := { d.heat with closes := (d.heat.closes ++ [(l.num, t)]).drop (d.heat.closes.length - 7) }
    stg := { d.stg with closed := !d.stg.syncEarly, syncEarly := false }
    cal := { d.cal with closed := true, tiles := d.cal.tiles.map ready, reqs := d.cal.reqs.map fun r => { r with afterClose := false } } }

/-- The layer that closes now: every tile's pass 7 has struck the last line of the stroke its LAYER_END names (R236). -/
def Dev.closeDue (d : Dev) : Option Layer :=
  match d.sheaf.layers.find? fun l => l.closedAt.isNone with
  | none => none
  | some l =>
    match l.ended with
    | none => none
    | some last =>
      let mine := d.sheaf.strokes.filter (·.lseq == l.lseq)
      if !d.up || !mine.any (fun s => s.stroke == last && s.ended) || mine.any (fun s => !s.ended) then none else some l

/-- LAYER_CLOSE (R236): a layer closes at the latest tick edge. -/
def layerClose (dt : Nat) (d : Dev) : Dev :=
  let d := d.after dt
  match d.closeDue with
  | none => d
  | some l => d.closeLayer l false

/-- The detail of a layer completion: 72 bytes (R389). -/
def Dev.layerDetail (d : Dev) (l : Layer) : List Byte :=
  let c := fun i => nth (d.slot l.slot).cnt i 0
  let flags := b2n l.aborted + 2 * b2n (l.winnowOff != 0) + 4 * b2n l.thermDeg + 8 * b2n (l.flagged != 0) +
    16 * b2n l.flagOvf + 32 * b2n (c cPOI != 0)
  toLE 4 l.num ++ toLE 3 l.tag ++ toLE 1 flags ++
    toLE 1 (match l.ended with | some s => s | none => l.lastStroke.getD 0xFF) ++ toLE 1 0 ++
    toLE 2 l.winnowOff ++ toLE 1 l.firstOff ++ toLE 3 0 ++ toLE 4 l.degLines ++ toLE 4 l.flagEntries ++
    toLE 4 (l.flagProd0.getD (d.rd Reg.RING_FLAG_PROD)) ++ toLE 4 l.flagged ++
    toLE 8 (c cEXP) ++ toLE 8 (c cSTR) ++ toLE 8 (c cWIT) ++ toLE 8 (c cCHF) ++ toLE 8 (c cPOI)

/-- Write the two ring-1 entries of a layer completion in its reserved entries (R374, R384). -/
def Dev.layerEntries (d : Dev) (l : Layer) : Dev :=
  let st := d.edgeStamp 0x1
  let det := d.layerDetail l
  let d := d.countSlot 0x1
  let d := { d with host := { d.host with resv1 := d.host.resv1 - 2, layerResv := d.host.layerResv - 1 } }
  let d := d.putEntry 1 0 stOK (cplEntry st 0 stOK 0x10 (l.num % 65536) d.id l.tag 0 det)
  d.putEntry 1 0 stOK (cplEntry2 st 0 stOK 0x10 (l.num % 65536) d.id det)

/-- Add a completed layer's counters to the build set (R615). -/
def Dev.buildAdd (d : Dev) (k : Nat) : Dev :=
  if !d.ldg.buildOpen then d
  else
    let c := (d.slot k).cnt
    let five := [nth c 0 0, nth c 1 0, nth c 3 0, nth c 4 0, nth c 5 0]
    { d with ldg := { d.ldg with buildLayers := d.ldg.buildLayers + 1, build := List.zipWith (fun a b => (a + b) % 2 ^ 64) d.ldg.build five } }

/-- An interrupted or abandoned layer adds nothing to the build set and counts as such (R615). -/
def Dev.buildLost (d : Dev) (n : Nat) : Dev :=
  if d.ldg.buildOpen then { d with ldg := { d.ldg with buildInt := sat 16 (d.ldg.buildInt + n) } } else d

/-- What a finished layer leaves behind is dropped: its strokes, their blocks, lines and records. -/
def Dev.dropLayer (d : Dev) (l : Layer) : Dev :=
  let gone := fun (s : Nat) => d.sheaf.strokes.any fun x => x.sseq == s && x.lseq == l.lseq
  let d' := { d with
    sheaf := { d.sheaf with
      layers := d.sheaf.layers.filter (·.lseq != l.lseq), strokes := d.sheaf.strokes.filter (·.lseq != l.lseq)
      blocks := d.sheaf.blocks.filter fun b => !gone b.sseq
      rebuilds := d.sheaf.rebuilds.filter fun r => !gone r.sseq }
    ra := { d.ra with map := d.ra.map.map fun ms => ms.filter fun m => !gone m.sseq } }
  (List.range 8).foldl (fun (d : Dev) n => d.updPortion n fun p =>
    { p with layers := p.layers.filter (·.lseq != l.lseq), stripes := p.stripes.filter fun s => !gone s.sseq }) d'

/-- LAYER_COMPLETION (R387, R389): the oldest closed layer, once none of its dose is unconfirmed and its counters are
final. -/
def layerCompletion (dt : Nat) (d : Dev) : Dev :=
  let d := d.after dt
  match d.sheaf.layers.find? fun l => l.closedAt.isSome && !l.complete with
  | none => d
  | some l =>
    if !d.up ∨ !d.ldg.pend.isEmpty ∨ nth (d.slot l.slot).cnt cUNC 0 ≠ 0 ∨
        d.ra.strikes.any (fun x => x.passes.any fun p => (d.stroke? p.entry.sseq).any (·.lseq == l.lseq)) ∨
        d.heat.deps.any (fun x => (d.stroke? x.sseq).any (·.lseq == l.lseq)) ∨ d.seamWaits l.num then d
    else
      let d := (if l.noEntry then d else d.layerEntries l).metFinal l.num (d.slot l.slot).cnt
      let d := (if l.abandoned then d.buildLost 1 else d.buildAdd l.slot).setSlot l.slot fun s =>
        { s with st := if l.abandoned then .abandoned else .completed }
      d.dropLayer l

/-! ### Squash and abort (R63, R127, R178, R189) -/

/-- An abort squashes the unstruck line-passes: their dose is chaff, but that of poisoned lines (R193); not-started beams are withheld and flagged. -/
def Dev.squashAll (d : Dev) : Dev :=
  let d := (List.range 16).foldl (fun (d : Dev) t =>
    (nth d.ra.map t []).foldl (fun (d : Dev) m =>
      let d := (List.range 8).foldl (fun (d : Dev) k =>
        if nth m.lp k .none == .none && !d.poisonedLine t m.sseq m.line then d.ldgStroke m.sseq cCHF (d.lpDU t k m.sseq m.line) else d) d
      d.updMap t m.sseq m.line fun m => { m with lp := m.lp.map fun x => if x == .none then .squashed else x }) d) d
  let d := d.ra.parts.foldl (fun (d : Dev) x =>
    let d := (d.ldgStroke x.sseq cUNC (-(x.unconf : Int))).ldgStroke x.sseq cWIT x.unconf
    let d := d.flagBeams x.tile x.sseq x.line x.pass 3 x.notStarted
    d.updMap x.tile x.sseq x.line fun m => { m with lp := upd m.lp x.pass fun l => if l == .part then .lost else l }) d
  let n := sumN (d.ra.cols.map fun c => c.queue.length)
  let d := { d with ra := { d.ra with
    parts := []
    cols := d.ra.cols.map fun (c : Column) => { c with queue := [], hrFail := false, nextLine := (d.sheaf.nextSseq, 0) } } }
  d.squashNote 0 0xFF n

/-- Fences not yet reached are never reached: event 0x3303 (R118). -/
def Dev.dropFences (d : Dev) : Dev :=
  (List.range 8).foldl (fun (d : Dev) n =>
    (d.portion n).stripes.foldl (fun (d : Dev) st =>
      (st.fences.filter fun f => !f.past).foldl (fun (d : Dev) f =>
        (d.event 0x3303 (toLE 4 f.id ++ toLE 4 f.line ++ toLE 1 n)).fenceSquashed n f.id f.struck) d) d) d

/-- Descriptors posted and not fetched on a ring: the doorbell's count less those fetched. -/
def Dev.unfetched (d : Dev) (n : Nat) : Nat := (d.rd (Reg.RING_n_PROD n) + 2 ^ 32 - d.rd (Reg.RING_n_CONS n)) % 2 ^ 32

/-- Whether a reference is to an accepted stroke or layer: what was never accepted is gone with the abort. -/
def Dev.refStays (d : Dev) : SegRef → Bool
  | .layer lseq => decide (lseq < d.sheaf.nextLseq)
  | .stripe sseq => decide (sseq < d.sheaf.nextSseq)
  | .lines sseq _ _ => decide (sseq < d.sheaf.nextSseq)
  | .block sseq _ _ => decide (sseq < d.sheaf.nextSseq)
  | .fence _ _ => false

/-- The layout descriptors at an abort (R127, R387): those begun complete with the squash reported once the lines they
contributed to have their outcomes, the others as RETIRED_UNEXECUTED; `write` is false where a reset has retired them
already. -/
def Dev.dropSegments (d : Dev) (write : Bool) : Dev :=
  (List.range 8).foldl (fun (d : Dev) n =>
    let p := d.portion n
    let d := if write then
        let d := (p.segs.filter (!·.begun)).foldl (fun (d : Dev) s => d.reject s.desc stRETIRED) d
        let d := p.waiting.foldl (fun (d : Dev) x => d.reject x stRETIRED) d
        { d with host := { d.host with retireN := put 16 0 d.host.retireN (4 + n) fun _ => d.unfetched (4 + n) } }
      else d
    let held : List Segment := if write then (p.segs.filter (·.begun)).map fun (s : Segment) =>
        { s with squashed := true, refs := s.refs.filter d.refStays } else []
    (d.updPortion n fun _ => { lSeen := d.sheaf.nextLseq, sSeen := d.sheaf.nextSseq, segs := held }).wr (Reg.THR_SHF_ERR_n n) 0) d

/-- The number of the aborted stroke (R95, R127): the one in progress or next to be struck, else the one never accepted
that comes after the open layer's last accepted stroke, else the number a resubmitted layer could begin with. -/
def Dev.abortedNum (d : Dev) : Nat :=
  match d.motionStroke, d.sheaf.layers.find? fun l => l.closedAt.isNone && l.ended.isNone with
  | some s, _ => s.stroke
  | none, some l =>
    (match l.lastStroke, d.sheaf.abortedStroke with
     | some k, _ => k + 1
     | none, some (lseq, k) => if lseq = l.lseq then k else 0
     | none, none => 0)
  | none, none =>
    (match d.sheaf.abortedStroke with
     | some (lseq, k) => if lseq = d.sheaf.nextLseq then k else 0
     | none => 0)

/-- The stroke abort (R63, R127, R177): all run-ahead is squashed, the accepted layers close as aborted, and the next
record of every layout ring must be LAYER_BEGIN; the layer may be resubmitted from the aborted stroke (R95). -/
def Dev.abortStroke (d : Dev) (write : Bool) : Dev :=
  let stroke := d.abortedNum
  let d := (d.squashAll.dropFences).dropSegments write
  let d := (d.sheaf.layers.filter fun l => l.closedAt.isNone).foldl (fun (d : Dev) l => d.closeLayer l true) d
  { (d.wr Reg.THR_WFAULT 0) with
    sheaf := { d.sheaf with
      strokes := d.sheaf.strokes.map fun s => { s with aborted := s.aborted || !s.ended, ended := true }
      fails := [], blocks := [], rebuilds := [], waitLogged := false
      threshers := d.sheaf.threshers.map fun t => { t with busy := none }
      bandNext := List.replicate 16 (d.sheaf.nextSseq, 0)
      abortedStroke := some (d.sheaf.nextLseq, stroke) }
    ldg := { d.ldg with wait := false }
    heat := { d.heat with seams := [], seamGot := [] }
    ra := { d.endRun.ra with sTick := none, resume := none, resumeSseq := none, step := 0, armed := false, prep := none } }

end Sys2Proof.Machine
end

