-- ==== Sys2Proof/Machine/Head.lean ====
section
/-!
DEFINITION. Head tile ports (chapter 09): cuts, identification and bring-up, link faults, plugging and eye scans.
-/
namespace Sys2Proof.Machine

/-! ### Sent line-passes and cuts (R187, R188, R219, R293) -/

/-- The weighted DU of the beams that `pick` takes (R219). -/
def weightOf (e : Entry) (pick : Nat → Bool) : Nat :=
  sumN ((List.zip e.dose e.shares).mapIdx fun i x => if pick i then x.1 * x.2 else 0)

/-- Whether a beam of an entry is geofenced. -/
def Entry.isGeo (e : Entry) (i : Nat) : Bool := nth e.geo i false

/-- Whether a beam of a sent pass fires: its code is not 0 and, on a re-strike, its mask bit is 1 (R188). -/
def SentPass.fires (p : SentPass) (i : Nat) : Bool := nth p.fired i false

/-- Beams whose dose this strike of the pass carries: all but the geofenced, or those of the mask on a re-strike. -/
def SentPass.mine (p : SentPass) (i : Nat) : Bool := if p.restrike then p.fires i else !p.entry.isGeo i

/-- A beam not started at a cut: it fires, and its pulse start lies after the cut instant (R187). -/
def Strike.notStarted (x : Strike) (p : SentPass) (i : Nat) : Bool :=
  match x.cut with
  | some c => p.fires i && decide (c < nth x.delays p.pass 0)
  | none => false

/-- A code of a sent pass. -/
def SentPass.code (p : SentPass) (i : Nat) : Nat := nth p.entry.codes i 0

/-- The dose of a pass that still hangs on this strike's record: without the not-started beams, which wait for their
re-strike, unless that has been cancelled (R187, R300). -/
def Strike.pending (x : Strike) (p : SentPass) : Nat :=
  weightOf p.entry fun i => p.mine i && (x.cancel || !x.notStarted p i)

/-- Record the PARTIAL line-pass of a cut pass: its mask and the dose of the beams not started (R187, R188). -/
def Dev.putPartial (d : Dev) (x : Strike) (p : SentPass) : Dev :=
  let e := p.entry
  let ns := (List.range 2048).map fun i => x.notStarted p i
  let part : Partial :=
    { tile := x.tile, pass := p.pass, sseq := e.sseq, line := e.line, notStarted := ns, unconf := weightOf e fun i => x.notStarted p i }
  let others := d.ra.parts.filter fun q => !(q.tile == x.tile && q.pass == p.pass && q.sseq == e.sseq && q.line == e.line)
  let d := { d with ra := { d.ra with parts := others ++ [part] } }
  let d := d.updMap x.tile e.sseq e.line fun m => { m with lp := upd m.lp p.pass fun _ => .part }
  d.setCol (8 * x.tile + p.pass) fun c => { c with queue := putEntryIn { e with stale := true } c.queue }

/-- A cut inside the pulse window of the current strike edge, `ofs` ns after its strike instant (R187, R571): the cut
offset of each tile, the PARTIAL line-passes and their masks, the deposits (R239), and event 0x4C05. -/
def Dev.cutStrikes (d : Dev) (ofs : Nat) : Dev :=
  let cur := d.ra.strikes.filter fun x => x.tick == d.top.tick && x.cut.isNone
  if cur.isEmpty then d
  else
    let cutOf := fun (t : Nat) => ofs + (d.tile t).benLat
    let done := cur.map fun x => { x with cut := some (cutOf x.tile) }
    let d := { d with ra := { d.ra with strikes := d.ra.strikes.map fun (x : Strike) =>
      if x.tick = d.top.tick ∧ x.cut.isNone then { x with cut := some (cutOf x.tile) } else x } }
    let real := done.filter fun x => !x.cal
    if real.isEmpty then d
    else
      let d := real.foldl (fun (d : Dev) x => x.passes.foldl (fun (d : Dev) p => d.putPartial x p) d) d
      let started := fun (y : Deposit) => real.any fun x => x.tile == y.tile && x.tick == y.tick &&
        decide (nth x.delays y.pass 0 ≤ (x.cut.getD 0))
      let fix := fun (y : Deposit) => if y.tick = d.top.tick then (if started y then y else { y with fired := y.fired.map fun _ => false }) else y
      let d := { d with heat := { d.heat with deps := d.heat.deps.map fix } }
      let count := fun (f : Strike → SentPass → Nat → Bool) =>
        sumN (real.map fun x => sumN (x.passes.map fun p => ((List.range 2048).filter (f x p)).length))
      let ns := count fun x p i => x.notStarted p i
      let tr := count fun x p i => p.fires i && !x.notStarted p i && decide (x.cut.getD 0 < nth x.delays p.pass 0 + p.code i)
      d.event 0x4C05 (toLE 4 (d.ra.sTick.getD 0) ++ toLE 2 ofs ++ toLE 3 tr ++ toLE 3 ns)

/-! ### Identification (R302, R303) -/

/-- The first ID-header field that fails R302, by its offset. -/
def hdrFail (h : List Byte) : Option Nat :=
  let f := fun hi lo => fieldLE h hi lo
  let temps := (List.range 5).map fun i => toS 16 (f (25 + 2 * i) (24 + 2 * i))
  let rising := (List.range 4).all fun i => decide (nth temps i 0 < nth temps (i + 1) 0)
  let zero := fun (lo n : Nat) => ((h.drop lo).take n).all (· == 0)
  if h.length < 256 ∨ f 3 0 ≠ 0x7E112600 then some 0
  else if f 5 4 ≠ 1 then some 4
  else if f 7 6 ≠ 2048 then some 6
  else if byteAt h 8 ≠ 8 then some 8
  else if !bit (byteAt h 9) 2 then some 9
  else if f 11 10 < 16 ∨ 256 < f 11 10 then some 10
  else if 20 < byteAt h 12 then some 12
  else if !zero 13 3 then some 13
  else if !rising then some 24
  else if !zero 34 6 then some 34
  else if f 43 40 ≠ 0x1000 then some 40
  else if !zero 48 204 then some 48
  else if f 255 252 ≠ crc32 (h.take 252) then some 252
  else none

/-- Refuse a tile (R303). -/
def Dev.refuse (d : Dev) (t ofs : Nat) : Dev :=
  (d.setTile t fun x => { x with st := .refused, refuse := ofs, step := 0, copy := false, speed := 0 }).event 0x7103 (toLE 1 t ++ toLE 1 ofs)

/-- TILE_BRINGUP (R304, R308): a present tile that is to be identified starts step 1 in Configure. -/
def tileBringup (t dt : Nat) (d : Dev) : Dev :=
  let d := d.after dt
  let x := d.tile t
  if !d.up ∨ 16 ≤ t ∨ d.top.mode ≠ .configure ∨ !x.present ∨ !x.identDue then d
  else d.setTile t fun x => { x with st := .ident, step := 1, fails := 0, identDue := false, refuse := 0, speed := 0, rate := 0, stepAt := d.clk.up }

/-- ID_HEADER_READ (R302, R303, R563, R579): step 1's read of the ID header of tile t, none where it cannot be read.
The safety and metrology partitions capture SPACING and SERIAL from the same read. -/
def idHeaderRead (t : Nat) (hdr : Option (List Byte)) (dt : Nat) (d : Dev) : Dev :=
  let d := d.after dt
  if !d.up ∨ 16 ≤ t ∨ (d.tile t).st ≠ .ident ∨ (d.tile t).step ≠ 1 then d
  else
    match hdr with
    | none => d.refuse t 0
    | some h =>
      let d := if d.saf.on then { d with saf := { d.saf with spacing := put 16 none d.saf.spacing t fun _ => some (fieldLE h 11 10) } } else d
      let d := if d.met.on then { d with met := { d.met with tser := put 16 0 d.met.tser t fun _ => fieldLE h 23 16 } } else d
      match hdrFail h with
      | some o => d.refuse t o
      | none =>
        let nocal := d.flag (Reg.HEAD_t_CTL t) Fd.HEAD_t_CTL_NOCAL
        let d := d.setTile t fun x =>
          { x with
            st := .training, step := 3, fails := 0, stepAt := d.clk.up, copyFails := 0, copyAt := d.clk.up, s := fieldLE h 11 10, benLat := byteAt h 12, format := fieldLE h 5 4 % 256
            serial := fieldLE h 23 16, calCrc := fieldLE h 47 44, speeds := byteAt h 9, copy := !nocal, hasCal := nocal || x.hasCal
            tset := (List.range 5).map fun i => toS 16 (fieldLE h (25 + 2 * i) (24 + 2 * i)) }
        let d := d.wr (Reg.CAL_t_COUNT t) 0
        { d with cal := { d.cal with tiles := put 16 {} d.cal.tiles t fun c => { c with newTile := true, due := false } } }

/-- Write the factory set into the bank in force (R211, R303, R315): 81,920 entries of six bytes, two words at a time. -/
def Dev.copyCal (d : Dev) (t : Nat) (img : List Byte) : (n : Nat) → (i : Nat) → Dev
  | 0, _ => d
  | n + 1, i =>
    let w := fun (o : Nat) => fieldLE img (o + 5) (o + 2) + fieldLE img (o + 1) o * 2 ^ 32
    let a := d.calBank t (nth d.cal.tiles t {}).bank + 16 * i
    (if a < usable then d.writeWord (a / 16) (w 0 + w 6 * 2 ^ 64) false else d).copyCal t (img.drop 12) n (i + 1)

/-- FACTORY_CAL_COPY_DONE (R303, R319): the factory set has been read, or cannot be; a set that fails CAL_CRC refuses the
tile at offset 44. -/
def factoryCalCopyDone (t : Nat) (img : Option (List Byte)) (dt : Nat) (d : Dev) : Dev :=
  let d := d.after dt
  if !d.up ∨ 16 ≤ t ∨ !(d.tile t).copy ∨ d.hbmWaits then d
  else
    match img with
    | none => d.refuse t 44
    | some b =>
      if b.length ≠ 491520 ∨ crc32 b ≠ (d.tile t).calCrc then d.refuse t 44
      else
        let d := (d.copyCal t b 40960 0).oorPast ⟨17, 5, 2⟩ true (d.calBank t (nth d.cal.tiles t {}).bank) 0xA0000
        let s := (d.tile t).tset
        let p := fun (i : Nat) => ofS 16 (nth s i 0)
        let d := (d.wr (Reg.CAL_t_TSET01 t) (p 0 + 65536 * p 1)).wr (Reg.CAL_t_TSET23 t) (p 2 + 65536 * p 3)
        let d := d.wr (Reg.CAL_t_TSET4 t) (p 4)
        (d.setTile t fun x => { x with copy := false, calDone := true, hasCal := true }).event 0x710C (toLE 1 t)

/-! ### Link bring-up (R304, R305) -/

/-- The limit of a bring-up step in core cycles (R304). -/
def bringupLimit : Nat → Nat
  | 1 => 187500000
  | 2 => 17500000000
  | 3 => 125000
  | 4 => 1250000
  | 5 => 2500000
  | _ => 12500000

/-- What a tile's step starts with: in steps 4 to 6 the data lanes carry TRAIN blocks (R304). -/
def Dev.stepStart (d : Dev) (t : Nat) : Dev :=
  let x := d.tile t
  let d := d.setTile t fun x => { x with stepAt := d.clk.up }
  if 4 ≤ x.step ∧ x.step ≤ 6 then d.send (.headTrain t (0xC3 + (x.step - 4) * 256)) else d

/-- A step of bring-up succeeds: the next step, or UP after step 6 (R304). -/
def Dev.stepOk (d : Dev) (t : Nat) : Dev :=
  let x := d.tile t
  let rate := if x.step ≤ 3 then x.rate else x.step - 3
  if x.step = 6 then
    (d.setTile t fun x => { x with st := .up, step := 0, fails := 0, speed := 3, rate := 3 }).event 0x7104 (toLE 1 t ++ toLE 1 3)
  else (d.setTile t fun x => { x with step := x.step + 1, fails := 0, rate, speed := rate }).stepStart t

/-- A step of bring-up fails: repeated, and DEGRADED after the third failure (R305). -/
def Dev.stepFail (d : Dev) (t : Nat) : Dev :=
  let x := d.tile t
  if x.fails + 1 < 3 then (d.setTile t fun x => { x with fails := x.fails + 1 }).stepStart t
  else
    let d := d.setTile t fun x => { x with st := .degraded, step := 0, fails := 0, speed := x.rate }
    d.event 0x7105 (toLE 1 t ++ toLE 1 x.step ++ toLE 1 x.rate)

/-- Step 2 passes its limit: repeated, and DEGRADED after the third failure (R304, R305). -/
def Dev.copyFail (d : Dev) (t : Nat) : Dev :=
  let x := d.tile t
  if x.copyFails + 1 < 3 then d.setTile t fun x => { x with copyFails := x.copyFails + 1, copyAt := d.clk.up }
  else
    let d := d.setTile t fun x => { x with st := .degraded, step := 0, fails := 0, copy := false, speed := x.rate }
    d.event 0x7105 (toLE 1 t ++ toLE 1 2 ++ toLE 1 x.rate)

/-- RETURN_LANE_WORD_LOCK (R304): step 3 gains word lock. -/
def returnLaneWordLock (t dt : Nat) (d : Dev) : Dev :=
  let d := d.after dt
  if !d.up ∨ 16 ≤ t ∨ (d.tile t).st ≠ .training ∨ (d.tile t).step ≠ 3 then d else d.stepOk t

/-- BRINGUP_STEP_TIMEOUT (R304, R305): a step passes its limit, which counts from its start: the copy of step 2, or the
step in progress. -/
def bringupStepTimeout (t : Nat) (copy : Bool) (d : Dev) : Dev :=
  let x := d.tile t
  if !d.up ∨ 16 ≤ t then d
  else if copy then (if x.copy then (d.reachUp (x.copyAt + bringupLimit 2)).copyFail t else d)
  else if x.st = .ident ∨ x.st = .training then (d.reachUp (x.stepAt + bringupLimit x.step)).stepFail t
  else d

/-- Restart bring-up at step 3 (R305). -/
def Dev.retrain (d : Dev) (t : Nat) : Dev :=
  let x := d.tile t
  let ok := match x.st with | .absent => false | .ident => false | .refused => false | _ => true
  if !(d.top.mode == .configure || d.top.mode == .hold) || !ok then d
  else
    (d.setTile t fun x =>
      { x with st := .training, step := 3, fails := 0, speed := 0, rate := 0, eyeTmo := x.eyeTmo || x.eyeBusy, eyeBusy := false }).stepStart t

/-- RETRAIN (R305). -/
def retrain (t dt : Nat) (d : Dev) : Dev :=
  let d := d.after dt
  if d.hostOk ∧ t < 16 then d.retrain t else d

/-- A write of REIDENT (R303): a refused tile is to be identified again. -/
def Dev.reident (d : Dev) (t : Nat) : Dev :=
  if (d.tile t).st = .refused then d.setTile t fun x => { x with identDue := true } else d

/-- REIDENT (R303). -/
def reident (t dt : Nat) (d : Dev) : Dev :=
  let d := d.after dt
  if d.hostOk ∧ t < 16 then d.reident t else d

/-- A return-lane record that is discarded (R295, R299). -/
def Dev.linkErr (d : Dev) (t : Nat) : Dev := d.bump (Reg.HEAD_t_LINK_ERR t)

/-- Whether a return-lane record has its length, its type and a valid CRC (R295). -/
def recordOk (bs : List Byte) (rtype len : Nat) : Bool :=
  bs.length == len && byteAt bs 0 == rtype && fieldLE bs (len - 1) (len - 4) == crc32 (bs.take (len - 4))

/-- LINK_RECORD (R295, R304, R305). -/
def linkRecord (t : Nat) (bs : List Byte) (dt : Nat) (d : Dev) : Dev :=
  let d := d.after dt
  if !d.up ∨ 16 ≤ t then d
  else if !recordOk bs 3 16 then d.linkErr t
  else
    let x := d.tile t
    if x.st ≠ .training ∨ x.step < 4 ∨ byteAt bs 1 ≠ t then d
    else if byteAt bs 3 = 2 then d.stepFail t
    else if byteAt bs 3 = 1 ∧ (x.step ≠ 6 ∨ fieldLE bs 7 4 = 0) then d.stepOk t
    else d

/-- TILE_LINK_FAULT (R306): the return lane of an UP tile loses lock (`codeErrs` false) or shows code errors. Where its
plug detect reads absent already (`gone`), not yet debounced, this is the tile's departure and no fault. -/
def tileLinkFault (t : Nat) (codeErrs gone : Bool) (dt : Nat) (d : Dev) : Dev :=
  let d := d.after dt
  if !d.up ∨ 16 ≤ t ∨ (d.tile t).st ≠ .up then d
  else
    let d := d.setTile t fun x =>
      { x with st := if gone then .leaving else .fault, speed := 0, eyeTmo := x.eyeTmo || x.eyeBusy, eyeBusy := false }
    if gone then d else d.event 0x7106 (toLE 1 t ++ toLE 1 (b2n codeErrs))

/-! ### Plugging (R308) -/

/-- Whether the next tick edge falls in the present core cycle: a plug change is judged after it (R310). -/
def Dev.edgeNow (d : Dev) : Bool :=
  match d.nextEdge with
  | some t => decide (t ≤ d.clk.now)
  | none => false

/-- A tile is there (R308). -/
def Dev.tileCome (d : Dev) (t : Nat) : Dev :=
  (d.setTile t fun x => { x with present := true, identDue := true }).event 0x7101 (toLE 1 t)

/-- TILE_PLUG (R308, R310): the debounced plug detect shows a tile. -/
def tilePlug (t dt : Nat) (d : Dev) : Dev :=
  let d := d.after dt
  if !d.up ∨ 16 ≤ t ∨ (d.tile t).present then d
  else if d.edgeNow then d.setTile t fun x => { x with plugLate := some true } else d.tileCome t

/-- The debounced plug detect of a tile shows none (R308): its link goes down. -/
def Dev.tileGone (d : Dev) (t : Nat) : Dev :=
  let d := d.setTile t fun x =>
    { x with present := false, identDue := false, st := .absent, speed := 0, step := 0, copy := false
             eyeTmo := x.eyeTmo || x.eyeBusy, eyeBusy := false }
  d.event 0x7102 (toLE 1 t ++ toLE 1 d.top.mode.code)

/-! ### Eye scans (R307) -/

/-- TILE_EYE_SCAN_START (R307): a write of START to HEAD_t_EYE_CTL. -/
def Dev.eyeStart (d : Dev) (t lane dwell : Nat) : Dev :=
  let x := d.tile t
  if x.st ≠ .up ∨ x.eyeBusy then d
  else d.setTile t fun x => { x with eyeBusy := true, eyeTmo := false, eyeLane := lane, eyeDwell := dwell, eyeAt := d.clk.up }

/-- TILE_EYE_SCAN_START (R307). -/
def tileEyeScanStart (t lane dwell dt : Nat) (d : Dev) : Dev :=
  let d := d.after dt
  if !d.hostOk ∨ 16 ≤ t ∨ 4 ≤ lane ∨ 8 ≤ dwell then d
  else ((d.set (Reg.HEAD_t_EYE_CTL t) Fd.HEAD_t_EYE_CTL_LANE lane).set (Reg.HEAD_t_EYE_CTL t) Fd.HEAD_t_EYE_CTL_DWELL dwell).eyeStart t lane dwell

/-- A scan ends with its margins: LEFT, RIGHT, TOP, BOTTOM (R307). -/
def Dev.eyeDone (d : Dev) (t lane : Nat) (m : List Nat) : Dev :=
  let g := fun i => nth m i 0 % 256
  let d := d.setTile t fun x => { x with eyeBusy := false }
  let d := d.wr (Reg.HEAD_t_EYE_l t lane) (g 0 * 2 ^ 24 + g 1 * 2 ^ 16 + g 2 * 256 + g 3)
  d.event 0x710B (toLE 1 t ++ toLE 1 lane ++ (List.range 4).flatMap fun i => toLE 1 (g i))

/-- EYE_RECORD (R295, R307). -/
def eyeRecord (t : Nat) (bs : List Byte) (dt : Nat) (d : Dev) : Dev :=
  let d := d.after dt
  if !d.up ∨ 16 ≤ t then d
  else if !recordOk bs 4 16 then d.linkErr t
  else
    let x := d.tile t
    let lane := bits (byteAt bs 1) 5 4
    if x.eyeBusy ∧ x.eyeLane = lane ∧ lane < 3 ∧ byteAt bs 1 % 16 = t then
      d.eyeDone t lane ((List.range 4).map fun i => byteAt bs (2 + i))
    else d

/-- RETURN_LANE_SCAN_DONE (R307): the device's own scan of lane 3 ends with these margins. -/
def returnLaneScanDone (t : Nat) (margins : List Nat) (dt : Nat) (d : Dev) : Dev :=
  let d := d.after dt
  let x := d.tile t
  if d.up ∧ t < 16 ∧ x.eyeBusy ∧ x.eyeLane = 3 then d.eyeDone t 3 margins else d

/-- TILE_EYE_SCAN_TIMEOUT (R307): no EYE record within 100 ms of the start. -/
def tileEyeScanTimeout (t : Nat) (d : Dev) : Dev :=
  let x := d.tile t
  if !d.up ∨ 16 ≤ t ∨ !x.eyeBusy ∨ x.eyeLane = 3 then d
  else (d.reachUp (x.eyeAt + 125000000)).setTile t fun x => { x with eyeBusy := false, eyeTmo := true }

end Sys2Proof.Machine
end

