-- ==== Sys2Proof/Machine/Safety.lean ====
section
/-!
DEFINITION. The safety partition (chapter 18): its permissions, the assertion of SAFE_STATE, its SAF_SPI port, its
inputs and its limits.
-/
namespace Sys2Proof.Machine

/-- Change the safety partition. -/
def Dev.setSaf (d : Dev) (f : Saf → Saf) : Dev := { d with saf := f d.saf }

/-- Cause numbers of SAF_CAUSE (R577). -/
def cPOR : Nat := 0
def cESTOP : Nat := 1
def cDISC : Nat := 2
def cHARD : Nat := 6
def cSTALE : Nat := 7
def cPLUG : Nat := 8
def cWDOG : Nat := 9
def cRATE : Nat := 10
def cFENCE : Nat := 11
def cCEIL : Nat := 12
def cHB : Nat := 13
def cTRIP : Nat := 14
def cCLOCK : Nat := 15
def cSELF : Nat := 16

/-- Whether a tile's captured spacing equals its commissioned one (R563). -/
def Dev.safMatch (d : Dev) (t : Nat) : Bool :=
  nth d.saf.spacing t none == some (d.get (Reg.SAF_TILE_t t) Fd.SAF_TILE_t_S)

/-- The conditions of R562 for a tile but the beam request. -/
def Dev.permit (d : Dev) (t : Nat) : Bool :=
  d.saf.on && !d.saf.safe && bit (d.rd Reg.SAF_TILE_EN) t && bit d.saf.plug t && d.safMatch t

/-- Whether the main partition requests beams (R62). -/
def Dev.wantsBeam (d : Dev) : Bool :=
  d.up && (d.top.mode == .calibrate || d.top.mode == .expose || d.top.mode == .hold)

/-- HD_t_BEN (R562). -/
def Dev.ben (d : Dev) (t : Nat) : Bool := d.permit t && d.wantsBeam

/-- Log a safety event that the main partition sees in the mirror (R575). -/
def Dev.safEvent (d : Dev) (code : Nat) (det : List Byte) : Dev := if d.up then d.event code det else d

/-- Assert SAFE_STATE with a cause (R571): a cut inside the pulse window of the current strike edge is recorded and
classified; vector 57 and event 0xF101; a calibration run or self-test is abandoned at once (R336). While asserted, a
further cause is only latched. Reaction times (R570) are below the model's steps. Two causes are both latched and the
earlier assertion is the cut (R574). -/
def Dev.safeAssert (d : Dev) (cause tile : Nat) : Dev :=
  if !d.saf.on then d
  else
    let was := d.saf.safe
    let d := d.setSaf fun s => { s with
      safe := true, edge := s.edge || !s.safe, cause := s.cause ||| 2 ^ cause, benAt := List.replicate 16 none
      hbSince := s.hbSince && cause != cHB, commitSince := s.commitSince && cause != cSELF }
    if was then d
    else
      let off := (d.clk.now - d.top.edgeAt) >>> 32
      let cut := d.up && d.top.isStrike && decide (d.top.edgeAt ≤ d.clk.now) && decide (off < 4352)
      let d := if cut then
          let d := d.setSaf fun s => { s with cutTick := d.top.tick, cutOfs := off, expTick := if d.ra.sTick.isSome then s.expTick - 1 else s.expTick }
          d.cutStrikes off
        else d
      if d.up then ((d.msix 57).event 0xF101 (toLE 3 d.saf.cause ++ toLE 1 tile ++ toLE 4 (if cut then off else 0xFFFFFFFF))).calAbandon else d

/-- A STROBE rise at the current edge passes only if SAF_MINPER.MIN ns have passed since the last (R566); STROBE falls
4,352 ns later (R41). STROBE rises at t_s of every strike tick and at no idle tick (R292). -/
def Dev.strobeRise (d : Dev) : Bool × Dev :=
  let early := match d.saf.lastRise with
    | some r => decide (d.top.edgeAt < r + nsT (d.get Reg.SAF_MINPER Fd.SAF_MINPER_MIN))
    | none => false
  if early then (false, d.safeAssert cRATE 0xFF)
  else
    (true, (d.setSaf fun s => { s with lastRise := some d.top.edgeAt }).send (.strobe d.top.edgeAt (d.top.edgeAt + nsT 4352)))

/-- The level of STROBE at the present instant: high from the last rise for 4,352 ns, the pulse window (R41, R44). -/
def Dev.strobeHigh (d : Dev) : Bool :=
  match d.saf.lastRise with
  | some r => decide (r ≤ d.clk.now) && decide (d.clk.now < r + nsT 4352)
  | none => false

/-- SOFT as the latest temperatures make it (R565): hold cause 0x03 is registered as it rises. -/
def Dev.softCheck (d : Dev) : Dev :=
  let lim := toS 16 (d.get Reg.SAF_TEMP Fd.SAF_TEMP_SOFT)
  let hot := (List.range 16).any fun t => d.permit t && decide (lim ≤ nth d.saf.tmax t 0)
  let any := d.saf.tmax.any fun x => decide (lim ≤ x)
  let soft := if d.saf.soft then any else hot
  if soft = d.saf.soft then d
  else
    let d := d.setSaf fun s => { s with soft }
    let m := (List.range 16).foldl (fun m t => if nth d.saf.tmax m 0 < nth d.saf.tmax t 0 then t else m) 0
    let d := d.safEvent 0xF103 (toLE 1 (b2n soft) ++ toLE 1 m ++ toLES 2 (nth d.saf.tmax m 0))
    if soft ∧ d.up then d.trigger (.hold 0x03) else d

/-- The instants at which HD_t_BEN rose, for the outputs that are high (R565). -/
def Dev.benNote (d : Dev) : Dev :=
  let at_ := (List.range 16).map fun t => if d.ben t then some ((nth d.saf.benAt t none).getD d.clk.up) else none
  d.setSaf fun s => { s with benAt := at_ }

/-- A permission may have changed: SOFT is judged anew, and the outputs that rise are noted. -/
def Dev.permitsChanged (d : Dev) : Dev := d.softCheck.benNote

/-! ### Settings (R557, R558) -/

/-- The SAF-coded bits of a setting word by its word index in the SAF block; none where the index names no setting. -/
def safMask (i : Nat) : Option Nat :=
  if 16 ≤ i ∧ i < 32 then some 0x01FF0000
  else match i with
    | 3 => some 0xFFFFFF07
    | 4 => some 0x000FFFFF
    | 5 => some 0x0000FFFF
    | 6 => some 0xFFFFFFFF
    | 7 => some 0x0000FFFF
    | 8 => some 0x7FFF7FFF
    | 9 => some 0x01FFFFFF
    | 10 => some 0x01FFFFFF
    | _ => none

/-- BAR0 offset of a word of the SAF block. -/
def safOfs (i : Nat) : Nat := 0xF00000 + 4 * i

/-- A staged setting or ceiling word. -/
def Dev.stagedAt (d : Dev) (a : Nat) : Nat :=
  match getKey a d.saf.staged with
  | some w => w.toNat
  | none => resetOf a

/-- Stage a word, in canonical form. -/
def Dev.stage (d : Dev) (a v : Nat) : Dev :=
  d.setSaf fun s => { s with staged := if v % 2 ^ 32 = resetOf a then delKey a s.staged else insKey a (BitVec.ofNat 32 v) s.staged }

/-- The word indexes of the 24 settings, in the image's order (R558). -/
def safSettings : List Nat := [3, 4, 5, 6, 7, 8, 9, 10] ++ (List.range 16).map (· + 16)

/-- The image CRC over a set of words (R558). -/
def imageCrc (w : Nat → Nat) : Nat :=
  let words := safSettings.flatMap fun i => toLE 4 (w (safOfs i) &&& (safMask i).getD 0)
  let ceil := (List.range 131072).flatMap fun j => let v := w (Reg.SAF_CEIL_j j); toLE 2 (bits v 11 0) ++ toLE 2 (bits v 27 16)
  crc32 (words ++ ceil)

/-- Whether a value may be written to a staged setting (R577). -/
def safRange (i v : Nat) : Bool :=
  match i with
  | 3 => bits v 15 8 != 0
  | 4 => decide (5000 ≤ v % 2 ^ 20) && decide (v % 2 ^ 20 ≤ 1000000)
  | _ => true

/-! ### SAF_SPI (R550 to R555) -/

/-- SAF_SPI_STAT (R577). -/
def Dev.spiStat (d : Dev) : Nat :=
  let s := d.saf
  let left := match s.lockAt with | some a => (60 * 1250000000 - (d.clk.up - a) + 1249999999) / 1250000000 | none => 0
  min 255 s.crcErr * 2 ^ 24 + min 255 s.macFail * 2 ^ 16 + min 255 left * 256 + s.slots.length

/-- SAF_STAT (R577). -/
def Dev.safStat (d : Dev) : Nat :=
  let s := d.saf
  b2n s.safe * 2 ^ 31 + b2n s.soft * 2 ^ 30 + b2n (!s.slots.isEmpty) * 2 ^ 29 + b2n s.key.isSome * 2 ^ 28 +
    b2n s.lockAt.isSome * 2 ^ 27 + b2n s.commEn * 2 ^ 26 + sumN ((List.range 16).map fun t => b2n (d.ben t) * 2 ^ t)

/-- SAF_INPUTS (R577). -/
def Dev.safInputs (d : Dev) : Nat := d.saf.plug % 65536 * 65536 + d.saf.inputs % 32

/-- SAF_TILE_t with its status fields (R577). -/
def Dev.safTile (d : Dev) (t : Nat) : Nat :=
  b2n (d.safMatch t) * 2 ^ 31 + b2n (d.permit t) * 2 ^ 30 + d.get (Reg.SAF_TILE_t t) Fd.SAF_TILE_t_S * 65536 + ofS 16 (nth d.saf.tmax t 0)

/-- A word of the SAF block as the mirror shows it. -/
def Dev.safWord (d : Dev) (i : Nat) : Nat :=
  if 16 ≤ i ∧ i < 32 then d.safTile (i - 16)
  else match i with
    | 0 => d.safStat
    | 1 => d.saf.cause
    | 2 => d.safInputs
    | 0x20 => d.saf.cutTick % 2 ^ 32
    | 0x21 => d.saf.cutTick >>> 32
    | 0x22 => d.saf.cutOfs
    | 0x23 => d.saf.cfgCrc
    | 0x24 => d.spiStat
    | 0x25 => d.saf.lastCnt
    | 0x26 => d.saf.bootId
    | _ => if 3 ≤ i ∧ i ≤ 10 then d.rd (safOfs i) else 0

/-- The key in use: all zeros while none is set (R552). -/
def Saf.macKey (s : Saf) : List Byte := s.key.getD (List.replicate 16 0)

/-- Keep the response that the next transaction shifts out (R550, R551). -/
def Dev.spiAnswer (d : Dev) (req : List Byte) (status : Nat) (dat : List Byte) : Dev :=
  let head := if status = 1 then toLE 1 0 ++ toLE 1 1 ++ List.replicate 38 0
    else toLE 1 (byteAt req 0) ++ toLE 1 status ++ (req.drop 2).take 6 ++ padTo 32 dat
  let body := head ++ (if status = 1 then List.replicate 8 0
    else (cmac128 d.saf.macKey (head ++ toLE 4 d.saf.bootId)).take 8)
  d.setSaf fun s => { s with resp := body ++ toLE 4 (crc32 body) }

/-- A transaction shifts out the response to the previous request; the first after power-on has STATUS 0xFF (R550). -/
def Dev.spiShift (d : Dev) : Dev :=
  let d := if d.saf.resp.isEmpty then d.spiAnswer [] 0xFF [] else d
  d.send (.spi d.saf.resp)

/-- The interlock inputs are OK (R560, R561): the E-stop inputs, those of the others that are enabled, and no discrepancy. -/
def Dev.inputsOk (d : Dev) : Bool :=
  let okIn := fun (i en : Nat) => bit d.saf.inputs i || !bit (d.rd Reg.SAF_CFG) en
  bit d.saf.inputs 0 && bit d.saf.inputs 1 && d.saf.discOk && okIn 2 0 && okIn 3 1 && okIn 4 2

/-- The release conditions (R572). A low enabled input, a TMAX at HARD and a clock out of range refuse the release as they
stand, for each of them asserts its cause (R560, R565, R549); those of HB and SELF where the cause is latched. -/
def Dev.releasable (d : Dev) : Bool :=
  let s := d.saf
  d.inputsOk && (s.tmax.all fun t => decide (t < toS 16 (d.get Reg.SAF_TEMP Fd.SAF_TEMP_HARD))) && !s.clkBad &&
    (!bit s.cause cHB || s.hbSince) && (!bit s.cause cSELF || s.commitSince)

/-- The staged image comes into force (R558). -/
def Dev.safCommit (d : Dev) (crc : Nat) : Dev :=
  let offs := (safSettings.map safOfs) ++ d.saf.staged.map (·.1) ++ (d.rf.filter fun e => decide (0xF80000 ≤ e.1) && decide (e.1 < 0x1000000)).map (·.1)
  let d := offs.foldl (fun (d : Dev) a => d.wr a (d.stagedAt a)) d
  (d.setSaf fun s => { s with cfgCrc := crc, commitSince := true }).safEvent 0xF104 (toLE 4 crc)

/-- What an authenticated request comes to: its STATUS, its DATA, and the device. -/
abbrev SpiResult := Nat × List Byte × Dev

/-- Word i of a request's payload. -/
def reqWord (req : List Byte) (i : Nat) : Nat := fieldLE req (8 + 4 * i + 3) (8 + 4 * i)

/-- HEARTBEAT (R553). -/
def Dev.spiHeartbeat (d : Dev) (flags : Nat) : SpiResult :=
  if flags ≠ 0 then (5, [], d)
  else (0, [d.safStat, d.saf.cause, d.safInputs, d.top.tick % 2 ^ 32, d.top.tick >>> 32, d.saf.cfgCrc, d.saf.bootId, d.spiStat].flatMap (toLE 4), d)

/-- SAF_READ (R553). -/
def Dev.spiRead (d : Dev) (flags addr : Nat) : SpiResult :=
  let idx := (List.range 8).map (· + addr)
  if flags % 16 ≠ 0 ∨ 32 ≤ flags then (5, [], d)
  else if bit flags 4 then
    if idx.all fun i => (safMask i).isSome then (0, idx.flatMap fun i => toLE 4 (d.stagedAt (safOfs i)), d) else (5, [], d)
  else (0, idx.flatMap fun i => toLE 4 (d.safWord i), d)

/-- SAF_WRITE (R553, R558). -/
def Dev.spiWrite (d : Dev) (n addr : Nat) (w : Nat → Nat) : SpiResult :=
  if n < 1 ∨ 8 < n ∨ !(List.range n).all (fun i => (safMask (addr + i)).isSome && safRange (addr + i) (w i)) then (5, [], d)
  else (0, [], (List.range n).foldl (fun (d : Dev) i => d.stage (safOfs (addr + i)) (w i &&& (safMask (addr + i)).getD 0)) d)

/-- CEIL_WRITE (R553, R558): e i is ceiling entry i of the request. -/
def Dev.spiCeil (d : Dev) (flags addr : Nat) (e : Nat → Nat) : SpiResult :=
  if flags ≠ 0 ∨ 16384 ≤ addr ∨ (List.range 16).any (fun i => decide (4096 ≤ e i)) then (5, [], d)
  else (0, [], (List.range 8).foldl (fun (d : Dev) i => d.stage (Reg.SAF_CEIL_j (8 * addr + i)) (e (2 * i) + 65536 * e (2 * i + 1))) d)

/-- SAF_COMMIT (R558, R559): w is the request's CRC and crc that of the staged image. After TRIP it goes on, since
SAFE_STATE is 1 (R574). -/
def Dev.spiCommit (d : Dev) (flags w crc : Nat) : SpiResult :=
  if flags ≠ 0 then (5, [], d)
  else if !d.saf.safe then (6, [], d)
  else if w ≠ crc then (7, [], d)
  else if !d.saf.slots.isEmpty ∧ !d.saf.slots.contains crc ∧ !d.saf.commEn then (4, [], d)
  else if bits (d.stagedAt Reg.SAF_MINPER) 19 0 < bits (d.stagedAt Reg.SAF_WDOG) 15 0 + 400 then (5, [], d)
  else (0, [], d.safCommit crc)

/-- SAFE_STATE is released: every latched cause is cleared (R572). -/
def Dev.clearSafe (d : Dev) : Dev := d.setSaf fun s => { s with safe := false, cause := 0 }

/-- RELEASE (R572). -/
def Dev.spiRelease (d : Dev) (flags : Nat) : SpiResult :=
  if flags ≠ 0 then (5, [], d)
  else if !d.releasable then (6, [], d)
  else if !d.saf.safe then (0, [], d)
  else
    let d := d.clearSafe
    let after := if d.top.mode = .safe then 4 else d.top.mode.code
    (0, [], (if d.up then d.msix 57 else d).safEvent 0xF102 (toLE 1 after))

/-- LOCK (R559). -/
def Dev.spiLock (d : Dev) (flags : Nat) : SpiResult :=
  if flags ≠ 0 then (5, [], d)
  else if !d.saf.commEn ∨ 64 ≤ d.saf.slots.length then (4, [], d)
  else
    let d := d.setSaf fun s => { s with slots := s.slots ++ [s.cfgCrc] }
    (0, [], d.safEvent 0xF105 (toLE 1 0 ++ toLE 1 d.saf.slots.length))

/-- KEY_SET (R559). -/
def Dev.spiKey (d : Dev) (flags : Nat) (key : List Byte) : SpiResult :=
  if flags ≠ 0 then (5, [], d)
  else if !d.saf.commEn ∨ d.saf.key.isSome then (4, [], d)
  else
    let d := d.setSaf fun s => { s with key := some key }
    (0, [], d.safEvent 0xF105 (toLE 1 1 ++ toLE 1 d.saf.slots.length))

/-- The effect of an authenticated request (R553, R558, R559, R572). -/
def Dev.spiDo (d : Dev) (req : List Byte) : SpiResult :=
  let flags := byteAt req 1
  let addr := fieldLE req 3 2
  match byteAt req 0 with
  | 0x01 => d.spiHeartbeat flags
  | 0x02 => d.spiRead flags addr
  | 0x03 => d.spiWrite flags addr (reqWord req)
  | 0x04 => d.spiCeil flags addr fun i => fieldLE req (8 + 2 * i + 1) (8 + 2 * i)
  | 0x05 => d.spiCommit flags (reqWord req 0) (imageCrc d.stagedAt)
  | 0x06 => d.spiRelease flags
  | 0x07 => if flags ≠ 0 then (5, [], d) else (0, [], d.safeAssert cTRIP 0xFF)
  | 0x08 => d.spiLock flags
  | 0x09 => d.spiKey flags ((req.drop 8).take 16)
  | _ => (5, [], d)

/-- Commands that run in a lockout and may carry BOOT_ID 0 (R552, R555). -/
def openCmd (c : Nat) : Bool := c == 1 || c == 2 || c == 7

/-- A byte pattern that does not arrive whole or intact is counted (R550, R577). -/
def Dev.spiBadCrc (d : Dev) : Dev := d.setSaf fun s => { s with crcErr := s.crcErr + 1 }

/-- An authentication failure is counted; the eighth in a row starts a lockout (R555). -/
def Dev.spiMacFail (d : Dev) : Dev :=
  let d := d.setSaf fun s => { s with macFail := s.macFail + 1 }
  if 8 ≤ d.saf.macFail ∧ d.saf.lockAt.isNone then (d.setSaf fun s => { s with lockAt := some d.clk.up }).safEvent 0xF106 []
  else d

/-- Whether a request's tag is the CMAC of its first 40 bytes and a boot identifier (R551, R552). -/
def Dev.tagOk (d : Dev) (req : List Byte) (boot : Nat) : Bool :=
  (req.drop 40).take 8 == (cmac128 d.saf.macKey (req.take 40 ++ toLE 4 boot)).take 8

/-- Whether a request authenticates (R551, R552). -/
def Dev.authentic (d : Dev) (req : List Byte) : Bool :=
  d.tagOk req d.saf.bootId || (openCmd (byteAt req 0) && d.tagOk req 0)

/-- After a request that ran: an accepted one is the last seen and the last heartbeat (R554, R556). -/
def Dev.spiEnd (req : List Byte) (now : Nat) (x : SpiResult) : Dev :=
  if x.1 = 0 then
    (x.2.2.setSaf fun s => { s with lastCnt := fieldLE req 7 4, hbAt := now, hbSince := true }).spiAnswer req 0 x.2.1
  else x.2.2.spiAnswer req x.1 []

/-- A request whose tag is right (R554). -/
def Dev.spiGood (d : Dev) (req : List Byte) : Dev :=
  let d := d.setSaf fun s => { s with macFail := 0 }
  if fieldLE req 7 4 ≤ d.saf.lastCnt then d.spiAnswer req 3 [] else Dev.spiEnd req d.clk.up (d.spiDo req)

/-- A transaction of 52 bytes (R550 to R555). -/
def Dev.spiWhole (d : Dev) (req : List Byte) : Dev :=
  let d := d.spiShift
  if fieldLE req 51 48 ≠ crc32 (req.take 48) then d.spiBadCrc.spiAnswer req 1 []
  else if d.saf.lockAt.isSome ∧ !openCmd (byteAt req 0) then d.spiAnswer req 4 []
  else if !d.authentic req then d.spiMacFail.spiAnswer req 2 []
  else d.spiGood req

/-- One SAF_SPI transaction (R550 to R555). -/
def Dev.spiRun (d : Dev) (req : List Byte) : Dev :=
  if !d.saf.on then d else if req.length ≠ 52 then d.spiBadCrc else (d.spiWhole req).permitsChanged

/-- A SAF_SPI command's transaction; one that carries another CMD is that other command's. -/
def Dev.spiCmd (d : Dev) (cmd : Nat) (req : List Byte) : Dev := if byteAt req 0 = cmd ∧ req.length = 52 then d.spiRun req else d

/-- COMMISSION_EN as the transaction finds it. -/
def Dev.pinEn (d : Dev) (commEn : Bool) : Dev := d.setSaf fun s => { s with commEn := s.on && commEn }

/-- HEARTBEAT (R553). -/
def heartbeat (req : List Byte) (dt : Nat) (d : Dev) : Dev := (d.after dt).spiCmd 1 req
/-- SAF_READ (R553). -/
def safRead (req : List Byte) (dt : Nat) (d : Dev) : Dev := (d.after dt).spiCmd 2 req
/-- SAF_WRITE (R553). -/
def safWrite (req : List Byte) (dt : Nat) (d : Dev) : Dev := (d.after dt).spiCmd 3 req
/-- CEIL_WRITE (R553). -/
def ceilWrite (req : List Byte) (dt : Nat) (d : Dev) : Dev := (d.after dt).spiCmd 4 req
/-- SAF_COMMIT (R558). -/
def safCommit (req : List Byte) (commEn : Bool) (dt : Nat) (d : Dev) : Dev := ((d.after dt).pinEn commEn).spiCmd 5 req
/-- RELEASE (R572). -/
def release (req : List Byte) (dt : Nat) (d : Dev) : Dev := (d.after dt).spiCmd 6 req
/-- TRIP (R553). -/
def trip (req : List Byte) (dt : Nat) (d : Dev) : Dev := (d.after dt).spiCmd 7 req
/-- LOCK (R559). -/
def lock (req : List Byte) (commEn : Bool) (dt : Nat) (d : Dev) : Dev := ((d.after dt).pinEn commEn).spiCmd 8 req
/-- KEY_SET (R559). -/
def keySet (req : List Byte) (commEn : Bool) (dt : Nat) (d : Dev) : Dev := ((d.after dt).pinEn commEn).spiCmd 9 req

/-- SAF_SPI_BAD_TRANSACTION (R550, R554): a transaction of another length, with a bad CRC, or with an unknown CMD. -/
def safSpiBadTransaction (req : List Byte) (dt : Nat) (d : Dev) : Dev :=
  let d := d.after dt
  if req.length ≠ 52 ∨ fieldLE req 51 48 ≠ crc32 (req.take 48) ∨ byteAt req 0 = 0 ∨ 9 < byteAt req 0 then d.spiRun req else d

/-- SAF_LOCKOUT_END (R555): the 60 s of a lockout are over. -/
def safLockoutEnd (d : Dev) : Dev :=
  match d.saf.lockAt with
  | some a => (d.reachUp (a + 60 * 1250000000)).setSaf fun s => { s with lockAt := none }
  | none => d

/-- SAF_HEARTBEAT_TIMEOUT (R556): HB_MS pass without an accepted request. -/
def safHeartbeatTimeout (d : Dev) : Dev :=
  let ms := d.get Reg.SAF_CFG Fd.SAF_CFG_HB_MS
  if !d.saf.on ∨ ms = 0 then d else (d.reachUp (d.saf.hbAt + ms * 1250000)).safeAssert cHB 0xFF

/-! ### Inputs (R560, R561, R564) -/

/-- Whether an interlock input acts: the door, atmosphere and cooling inputs may be disabled (R560). -/
def Dev.inputOn (d : Dev) (i : Nat) : Bool := decide (i < 2) || bit (d.rd Reg.SAF_CFG) (i - 2)

/-- The inputs are now `ins` (R561): whether the E-stop inputs begin to differ, and whether both are low or high. -/
def Saf.setInputs (s : Saf) (ins now : Nat) : Saf :=
  let a := bit ins 0
  let b := bit ins 1
  { s with
    inputs := ins
    diffAt := if a != b && bit s.inputs 0 == bit s.inputs 1 then now else s.diffAt
    bothLow := s.bothLow || (!a && !b)
    discOk := s.discOk || (a && b && s.bothLow) }

/-- INTERLOCK_FALL (R560): a filtered input falls: 0 ESTOP_A, 1 ESTOP_B, 2 DOOR_OK, 3 ATMOS_OK, 4 HEAD_COOL_OK. -/
def interlockFall (i dt : Nat) (d : Dev) : Dev :=
  let d := d.after dt
  if !d.saf.on ∨ 5 ≤ i then d
  else
    let d := d.setSaf fun s => s.setInputs (s.inputs - b2n (bit s.inputs i) * 2 ^ i) d.clk.up
    if d.inputOn i then d.safeAssert (if i < 2 then cESTOP else i + 1) 0xFF else d

/-- INTERLOCK_OK (R560, R561): an input has been high for 10 ms. -/
def interlockOk (i dt : Nat) (d : Dev) : Dev :=
  let d := d.after dt
  if !d.saf.on ∨ 5 ≤ i then d
  else d.setSaf fun s => s.setInputs (s.inputs ||| 2 ^ i) d.clk.up

/-- ESTOP_DISCREPANCY (R561): the two E-stop inputs have differed for DISC_MS. -/
def estopDiscrepancy (d : Dev) : Dev :=
  if !d.saf.on ∨ bit d.saf.inputs 0 = bit d.saf.inputs 1 then d
  else
    let d := d.reachUp (d.saf.diffAt + d.get Reg.SAF_CFG Fd.SAF_CFG_DISC_MS * 1250000)
    (d.setSaf fun s => { s with discOk := false, bothLow := false }).safeAssert cDISC 0xFF

/-- SAF_PLUG_CHANGE (R563, R564): the filtered plug input of tile t changes. -/
def safPlugChange (t : Nat) (present : Bool) (dt : Nat) (d : Dev) : Dev :=
  let d := d.after dt
  if !d.saf.on ∨ 16 ≤ t then d
  else if present then (d.setSaf fun s => { s with plug := s.plug ||| 2 ^ t }).permitsChanged
  else
    let d := d.setSaf fun s => { s with plug := s.plug - b2n (bit s.plug t) * 2 ^ t, spacing := put 16 none s.spacing t fun _ => none }
    (if d.wantsBeam then d.safeAssert cPLUG t else d).permitsChanged

/-! ### Limits (R565 to R569) -/

/-- SAF_TEMP_RECORD (R565): the partition takes the four temperatures of a valid return-lane record of tile t. -/
def safTempRecord (t : Nat) (temps : List Int) (dt : Nat) (d : Dev) : Dev :=
  let d := d.after dt
  if !d.saf.on ∨ 16 ≤ t then d
  else
    let m := temps.foldl max (nth temps 0 0)
    let d := d.setSaf fun s => { s with tmax := put 16 0 s.tmax t fun _ => m, tempAt := put 16 0 s.tempAt t fun _ => d.clk.up }
    let d := d.softCheck
    if toS 16 (d.get Reg.SAF_TEMP Fd.SAF_TEMP_HARD) ≤ m then d.safeAssert cHARD t else d

/-- SAF_STALE_TIMEOUT (R565): a tile whose BEAM_EN is high delivers no valid record for 1 ms, counted from its rise at the
earliest. -/
def safStaleTimeout (t : Nat) (d : Dev) : Dev :=
  if 16 ≤ t ∨ !d.ben t then d
  else (d.reachUp (max (nth d.saf.tempAt t 0) ((nth d.saf.benAt t none).getD 0) + 1250000)).safeAssert cSTALE t

/-- STROBE_WATCHDOG (R567): STROBE stays high past the ceiling after the current strike edge. It forces STROBE low and
takes the beams away (R294). -/
def strobeWatchdog (d : Dev) : Dev :=
  if !d.saf.on ∨ !d.up ∨ !d.top.isStrike then d
  else (d.reach (d.top.edgeAt + nsT (d.get Reg.SAF_WDOG Fd.SAF_WDOG_CEIL))).safeAssert cWDOG 0xFF

/-- SAF_CLOCK_FAULT (R549): the core clock leaves its range for 10 µs, or is back in it. -/
def safClockFault (bad : Bool) (dt : Nat) (d : Dev) : Dev :=
  let d := d.after dt
  if !d.saf.on then d
  else
    let d := d.setSaf fun s => { s with clkBad := bad }
    if bad then d.safeAssert cCLOCK 0xFF else d

/-- A fault flips bits of a setting word in force: its word index in the SAF block, and the bits. -/
def Dev.upset (d : Dev) (u : Option (Nat × Nat)) : Dev :=
  match u with
  | some (i, m) => if (safMask i).isSome then d.wr (safOfs i) (d.rd (safOfs i) ^^^ (m &&& (safMask i).getD 0)) else d
  | none => d

/-- SAF_CRC_CHECK (R549): the 100 ms comparison of the settings in force. `upset` is a setting word of the SAF block and
the bits that a fault has flipped in it. -/
def safCrcCheck (upset : Option (Nat × Nat)) (dt : Nat) (d : Dev) : Dev :=
  let d := d.after dt
  if !d.saf.on ∨ d.saf.cfgCrc = 0 then d
  else
    let d := d.reachUp (d.saf.crcAt + 125000000)
    let d := (d.setSaf fun s => { s with crcAt := d.clk.up }).upset upset
    if imageCrc d.rd = d.saf.cfgCrc then d else d.safeAssert cSELF 0xFF

/-- BEN_READBACK_FAULT (R549): the ball of tile t differs from the level driven for more than 100 ns. -/
def benReadbackFault (t dt : Nat) (d : Dev) : Dev :=
  let d := d.after dt
  if 16 ≤ t then d else d.safeAssert cSELF t

/-- SAF_FRAME_CHECK (R568, R569): the partition checks a frame of tile t: IDLE, TEST, its declared stroke tick, and the
non-zero codes it carries: pass, emitter, code. -/
def safFrameCheck (t : Nat) (idle test : Bool) (s : Nat) (codes : List (Nat × Nat × Nat)) (dt : Nat) (d : Dev) : Dev :=
  let d := d.after dt
  if !d.saf.on ∨ 16 ≤ t ∨ idle then d
  else
    let d := if !test ∧ s ≠ d.saf.expTick then d.safeAssert cFENCE t else d
    let px := d.rd Reg.SAF_FENCE_PIX
    let sp := d.get (Reg.SAF_TILE_t t) Fd.SAF_TILE_t_S
    codes.foldl (fun (d : Dev) x =>
      let (k, e, code) := x
      let d := if d.ceiling (16384 * t + 2048 * k + e) < code then d.safeAssert cCEIL t else d
      let line : Int := (s : Int) - ((k * sp : Nat) : Int)
      let pix := 2048 * t + e
      let out := decide (line < (d.rd Reg.SAF_FENCE_L0 : Int)) || decide ((d.rd Reg.SAF_FENCE_L1 : Int) < line) ||
        decide (pix < bits px 14 0) || decide (bits px 30 16 < pix)
      if !test && code != 0 && out then d.safeAssert cFENCE t else d) d

/-! ### Power (R548, R71) -/

/-- The registers of the safety partition return to their reset values. -/
def Dev.clearSafRegs (d : Dev) : Dev := { d with rf := d.rf.filter fun e => decide (e.1 < 0xF00000) || decide (0x1000000 ≤ e.1) }

/-- SAF_POWER_ON (R548). -/
def safPowerOn (dt : Nat) (d : Dev) : Dev :=
  let d := d.after dt
  if d.saf.on then d
  else
    let s := d.saf
    { (d.clearSafRegs.unlatch 0xF00000 0x1000000) with saf :=
      { on := true, key := s.key, slots := s.slots, boots := s.boots + 1
        bootId := (Config.bootId s.boots).toNat, hbAt := d.clk.up, tempAt := List.replicate 16 d.clk.up, crcAt := d.clk.up } }

/-- VDD_SAF_LOSS (R71): the loss asserts SAFE_STATE and every beam goes off. -/
def vddSafLoss (dt : Nat) (d : Dev) : Dev :=
  let d := (d.after dt).safeAssert cPOR 0xFF
  d.setSaf fun s => { s with on := false, safe := true }

end Sys2Proof.Machine
end

