-- ==== Sys2Proof/Machine/Stage.lean ====
section
/-!
DEFINITION. The stage port (chapter 11): encoder samples, sample records, the loss of samples, HOLD_REQ, LAYER_SYNC and
the handshake outputs.
-/
namespace Sys2Proof.Machine

/-- Change the stage port. -/
def Dev.setStg (d : Dev) (f : Stage → Stage) : Dev := { d with stg := f d.stg }

/-- Whether this device is the stage master (R345). -/
def Dev.isMaster (d : Dev) : Bool := bit d.top.straps 1

/-- The sample period in ns (R343, R363). -/
def Dev.stgPeriod (d : Dev) : Nat := 10 * clampN 200 10000 (d.get Reg.STG_TIMING Fd.STG_TIMING_PERIOD)

/-- VWIN, with 0 acting as 1 (R363). -/
def Dev.vwin (d : Dev) : Nat := max 1 (d.get Reg.STG_CTL Fd.STG_CTL_VWIN)

/-- A source select field: 4 to 7 act as 0 for the scan source (R363). -/
def Dev.scanSrc (d : Dev) : Nat := let s := d.get Reg.STG_CTL Fd.STG_CTL_SRC; if s < 4 then s else 0
/-- The auxiliary source: other values act as 7, none (R363). -/
def Dev.auxSrc (d : Dev) : Nat := let s := d.get Reg.STG_CTL Fd.STG_CTL_AUX; if s < 4 then s else 7

/-- The CRC of R341 over n bits, most significant first: x^6 + x + 1. -/
def crc6 : (n v c : Nat) → Nat
  | 0, _, c => c
  | n + 1, v, c =>
    let top := (c >>> 5) % 2
    let b := (v >>> n) % 2
    crc6 n v ((c * 2) % 64 ^^^ (if top ^^^ b = 1 then 3 else 0))

/-- What one source gives at a sample instant: its raw count, FLAGS bits 1 to 4, and its time (R341 to R344). -/
structure Reading where
  count : Int
  flags : Nat
  t : Nat
  on : Bool
  deriving DecidableEq, Repr

/-- A BiSS-C channel's reading (R341, R343); none for a frame that did not complete. -/
def Dev.bissReading (d : Dev) (n t : Nat) (f : Option Biss) : Reading :=
  let cfg := d.rd (Reg.STG_BISS_n_CFG n)
  let len := clampN 8 40 (bits cfg 7 2)
  let t := t + 10 * bits cfg 15 8
  match f with
  | none => ⟨0, 8, t, bit cfg 0⟩
  | some f =>
    let pos := f.pos % 2 ^ len
    let crc := crc6 (len + 2) (pos * 4 + b2n f.ne * 2 + b2n f.nw) 0 ^^^ 63
    ⟨toS 40 pos, 2 * b2n (!f.ne) + 4 * b2n (!f.nw) + 8 * b2n (crc != f.crc % 64), t, bit cfg 0⟩

/-- A quadrature axis counts edges accepted since it was last looked at, net of direction, in 40 bits (R342). -/
def Dev.quadCount (d : Dev) (q : Nat) (edges : Int) : Dev :=
  d.setStg fun s => { s with quad := put 2 0 s.quad q fun c => toS 40 (ofS 40 (c + edges)) }

/-- A quadrature axis's reading (R342, R343). -/
def Dev.quadReading (d : Dev) (q t : Nat) : Reading :=
  ⟨nth d.stg.quad q 0, 16 * b2n (nth d.stg.qerr q false), t, bit (d.rd Reg.STG_QUAD_CFG) (16 + q)⟩

/-- Y_REF of a count (R347). -/
def Dev.yRef (d : Dev) (c : Int) : Int :=
  let o := toS 40 d.stg.origin
  let c := toS 40 (ofS 40 c)
  let diff := if d.flag Reg.STG_CTL Fd.STG_CTL_DIR then o - c else c - o
  let cpl : Nat := max 0x1000 (d.rd Reg.STG_CPL)
  Int.fdiv (diff * 2 ^ 24 + (cpl / 2 : Nat)) cpl

/-- The 32 bytes of a sample record (R346). -/
def Sample.bytes (r : Sample) : List Byte :=
  toLE 8 r.t ++ toLES 8 r.y ++ toLE 2 r.seq ++ toLE 1 r.flags ++ toLE 1 r.vwin ++ toLE 2 r.period ++ toLE 1 r.useDelay ++
    toLE 1 r.srcs ++ toLES 8 r.aux

/-- The record that 32 bytes hold (R346). -/
def sampleOf (b : List Byte) : Sample :=
  { t := fieldLE b 7 0, y := toS 64 (fieldLE b 15 8), seq := fieldLE b 17 16, flags := byteAt b 18, vwin := byteAt b 19
    period := fieldLE b 21 20, useDelay := byteAt b 22, srcs := byteAt b 23, aux := toS 64 (fieldLE b 31 24) }

/-- The newest received record before a time. -/
def Dev.recBefore (d : Dev) (t : Nat) : Option Sample :=
  d.stg.recs.foldl (fun (m : Option Sample) r =>
    if t ≤ r.t then m else match m with
      | none => some r
      | some x => if x.t < r.t then some r else some x) none

/-- How many records lie between a record and the received one before it, by their SEQ (R353). -/
def Dev.gapBefore (d : Dev) (r : Sample) : Nat :=
  match d.recBefore r.t with
  | none => 0
  | some x => (r.seq % 65536 + 65536 - x.seq % 65536) % 65536 - 1

/-- Take a record: late ones are discarded and registered at the next check; an invalid one is counted (R353). One that
falls between two received ones parts the missing ones between them; those registered are the earlier ones. -/
def Dev.takeSample (d : Dev) (r : Sample) : Dev :=
  if r.t + 1000 * r.useDelay < d.ns then d.setStg fun s => { s with lateSeq := some r.seq }
  else
    let was := match (d.stg.recs.filter fun x => decide (r.t < x.t)).foldl (fun (m : Option Sample) x => match m with
        | none => some x
        | some y => if x.t < y.t then some x else some y) none with
      | some x => x.missed
      | none => 0
    let d := d.setStg fun s => { s with recs := { r with missed := min was (d.gapBefore r) } :: s.recs }
    if bit r.flags 0 then d
    else (d.bumpF Reg.STG_ERR Fd.STG_ERR_INVALID).eventLim 0 0x9B03 (toLE 1 r.flags ++ toLE 2 r.seq)

/-- The number of the next sample: the first n at which n × PERIOD lies neither in the past nor at the sample taken last
(R343). -/
def Dev.nextSample (d : Dev) (per : Nat) : Nat :=
  let n := (d.ns + per - 1) / per
  match d.stg.lastT with
  | some t => if t ≤ d.ns then max n (t / per + 1) else n
  | none => n

/-- STAGE_SAMPLE (R341 to R347): the stage master takes its next sample: the BiSS-C frames and the quadrature counters,
which have counted these edges since. It forms the record, broadcasts it and uses it. -/
def stageSample (b0 b1 : Option Biss) (q0 q1 : Int) (d : Dev) : Dev :=
  if !d.up ∨ !d.isMaster ∨ d.top.mode = .dormant then d
  else
    let per := d.stgPeriod
    let n := d.nextSample per
    let t := n * per
    let d := ((d.reach (nsT t)).quadCount 0 q0).quadCount 1 q1
    let read := fun (s : Nat) => match s with
      | 0 => d.bissReading 0 t b0
      | 1 => d.bissReading 1 t b1
      | 2 => d.quadReading 0 t
      | _ => d.quadReading 1 t
    let x := read d.scanSrc
    let flags := if x.on then x.flags else 8
    let valid := d.timeLocked && x.on && !bit x.flags 1 && !bit x.flags 3 && !bit x.flags 4
    let y := if x.on then d.yRef x.count else d.stg.lastY
    let a := read d.auxSrc
    let aux := if d.auxSrc = 7 ∨ !a.on then 0 else a.count
    let r : Sample :=
      { t := x.t, y, seq := n % 65536, flags := flags + b2n valid, vwin := d.vwin, period := per / 10
        useDelay := d.get Reg.STG_TIMING Fd.STG_TIMING_USE_DELAY, srcs := d.scanSrc + 16 * d.auxSrc, aux }
    let d := d.setStg fun s => { s with lastT := some t, lastY := if valid then y else s.lastY }
    let d := d.kSend { vl := 0, bcast := true, plen := 2, dst := 0, src := d.id, ptype := 0x01, payload := r.bytes }
    d.takeSample r

/-- Take the oldest delivered frame of a PTYPE. The signals are those of R340. -/
def Dev.takeIn (d : Dev) (ptype : Nat) : Option (KIn × Dev) :=
  match d.kin.findIdx? (·.frame.ptype == ptype) with
  | none => none
  | some i => (d.kin[i]?).map fun k => (k, { d with kin := d.kin.eraseIdx i })

/-- STAGE_SAMPLE_RECORD (R348, R517): the oldest stage record delivered by the fabric is taken; a poisoned one counts as
invalid, and so does every one while time is not locked (R532). -/
def stageSampleRecord (dt : Nat) (d : Dev) : Dev :=
  match (d.after dt).takeIn 0x01 with
  | none => d.after dt
  | some (k, d) =>
    if !d.up ∨ d.top.mode = .dormant then d
    else
      let r := sampleOf k.frame.payload
      let m := d.rd Reg.STG_MASTER
      if d.isMaster ∨ !bit m 31 ∨ bits m 11 0 ≠ k.frame.src then
        (d.bumpF Reg.STG_ERR Fd.STG_ERR_FOREIGN).event 0x9B04 (toLE 2 k.frame.src ++ toLE 2 r.seq)
      else d.takeSample (if k.frame.poison || !d.timeLocked then { r with flags := r.flags - r.flags % 2 } else r)

/-! ### Loss of samples (R353, R354) -/

/-- USE_DELAY and PERIOD in ns as the newest record gives them. -/
def Dev.recTiming (d : Dev) : Nat × Nat :=
  match d.stg.recs.head? with
  | some r => (1000 * r.useDelay, 10 * r.period)
  | none => (1000 * d.get Reg.STG_TIMING Fd.STG_TIMING_USE_DELAY, d.stgPeriod)

/-- Whether a record's time lies in the window of R353 at c. -/
def Dev.inWindow (d : Dev) (c t : Nat) : Bool :=
  let (ud, per) := d.recTiming
  decide (t + ud ≤ c) && decide (c ≤ t + ud + 4 * per)

/-- How many of the records missing before a record have become usable by c without arriving: they lie PERIOD apart before
it (R353). -/
def Dev.missedBy (d : Dev) (c : Nat) (r : Sample) : Nat :=
  let (ud, per) := d.recTiming
  let gap := d.gapBefore r
  gap + 1 - max 1 ((r.t + ud - c + per - 1) / per)

/-- A record between two received ones that has become usable without arriving, not registered before (R353). -/
def Dev.missingAt (d : Dev) (c : Nat) : Bool := d.stg.recs.any fun r => decide (r.missed < d.missedBy c r)

/-- Records missing and late up to c are registered. -/
def Dev.noteMissing (d : Dev) (c : Nat) : Dev :=
  d.setStg fun s => { s with lateSeq := none, recs := s.recs.map fun (r : Sample) => { r with missed := max r.missed (d.missedBy c r) } }

/-- Whether a valid record lies in the window of R353 at c. -/
def Dev.fresh (d : Dev) (c : Nat) : Bool := d.stg.recs.any fun r => bit r.flags 0 && d.inWindow c r.t

/-- Whether samples are lost at c, and the reason of event 0x9B01 (R353). -/
def Dev.lossAt (d : Dev) (c : Nat) : Option Nat :=
  if !d.fresh c then some 0
  else if d.missingAt c then some 1
  else if d.stg.lateSeq.isSome then some 2
  else none

/-- SEQ of the newest usable record. -/
def Dev.usableSeq (d : Dev) (c : Nat) : Nat :=
  match (d.stg.recs.filter fun r => decide (r.t + 1000 * r.useDelay ≤ c)).foldl (fun (m : Option Sample) r =>
    match m with | none => some r | some x => if x.t < r.t then some r else some x) none with
  | some r => r.seq
  | none => 0

/-- The check at a commit point c, or at an edge c in Hold (R353): hold cause 0x0C is registered, in force at the next
edge (R360); 0x9B01 as LOST is set. -/
def Dev.lossCheck (d : Dev) (c : Nat) : Dev :=
  match d.lossAt c with
  | none => d
  | some why =>
    let was := d.stg.lost
    let d := (d.noteMissing c).setStg fun s => { s with lost := true }
    let d := d.triggerNext (.hold 0x0C)
    if was then d else d.event 0x9B01 (toLE 1 why ++ toLE 2 (d.usableSeq c))

/-- LOST clears at the first edge at which a pair exists inside the window (R354). -/
def Dev.lossClear (d : Dev) : Dev :=
  let c := d.ns
  if !d.stg.lost then d
  else
    match d.motionPair c with
    | some ((t0, _), (t1, _)) =>
      if d.inWindow c t0.toNat ∧ d.inWindow c t1.toNat then
        (d.setStg fun s => { s with lost := false }).event 0x9B02 (toLE 2 (d.usableSeq c))
      else d
    | none => d

/-- Whether stage samples are arriving (R52, R354). -/
def Dev.samplesOk (d : Dev) : Bool := !d.stg.lost && (d.motionPair d.ns).isSome && d.fresh d.ns

/-! ### Inputs -/

/-- QUAD_INDEX (R342): a rising edge of Z latches the counter, which has counted these edges since. -/
def quadIndex (q : Nat) (edges : Int) (dt : Nat) (d : Dev) : Dev :=
  let d := d.after dt
  if !d.up ∨ 2 ≤ q then d
  else
    let d := d.quadCount q edges
    d.wr (Reg.STG_QIDX_q q) (ofS 32 (nth d.stg.quad q 0))

/-- QUAD_COUNT_ERROR (R342): A and B change within one filter interval. -/
def quadCountError (q dt : Nat) (d : Dev) : Dev :=
  let d := d.after dt
  if !d.up ∨ 2 ≤ q then d else d.setStg fun s => { s with qerr := put 2 false s.qerr q fun _ => true }

/-- HOLD_REQ_ASSERT (R357, R359): the filtered input is asserted. -/
def holdReqAssert (dt : Nat) (d : Dev) : Dev :=
  let d := d.after dt
  if !d.up ∨ d.stg.holdReq then d
  else
    let d := d.setStg fun s => { s with holdReq := true }
    if d.top.mode = .dormant ∨ !bit d.stg.ctl 2 then d
    else
      let d := d.event 0x9B06 (toLE 1 1)
      match d.top.mode with
      | .expose => d.trigger (.hold 0x05)
      | .hold => d.trigger (.hold 0x05)
      | .safe => d.trigger (.hold 0x05)
      | _ => d

/-- HOLD_REQ_DEASSERT (R357): cause 0x05 clears at the next tick edge. -/
def holdReqDeassert (dt : Nat) (d : Dev) : Dev :=
  let d := d.after dt
  if !d.up ∨ !d.stg.holdReq then d
  else
    let d := d.setStg fun s => { s with holdReq := false }
    if d.top.mode = .dormant ∨ !bit d.stg.ctl 2 then d else d.event 0x9B06 (toLE 1 0)

/-- A rising edge of LAYER_SYNC (R358): accepted once after each close; a layer that closes at this very edge counts as
closed (R360). -/
def Dev.takeSync (d : Dev) : Dev :=
  if d.stg.closed then (d.bump Reg.STG_SYNC_CNT).setStg fun s => { s with closed := false, syncSeen := true }
  else if d.closeDue.isSome && !d.stg.syncEarly then
    (d.bump Reg.STG_SYNC_CNT).setStg fun s => { s with syncEarly := true, syncSeen := true }
  else d.event 0x9B05 []

/-- LAYER_SYNC (R358, R360): a rising edge of the input; one in the core cycle of the coming tick edge is judged after
it. -/
def layerSync (dt : Nat) (d : Dev) : Dev :=
  let d := d.after dt
  if !d.up ∨ d.top.mode = .dormant then d
  else if d.edgeNow then d.setStg fun s => { s with syncLate := true }
  else d.takeSync

/-- The LAYER_SYNC edge of the core cycle of a tick edge (R360). -/
def Dev.syncEdge (d : Dev) : Dev :=
  if d.stg.syncLate then
    let d := d.setStg fun s => { s with syncLate := false }
    if d.top.mode = .dormant then d else d.takeSync
  else d

/-! ### The handshake (R184, R355, R356) -/

/-- Whether every cause that arose has cleared or been released (R57). -/
def Dev.causesDone (d : Dev) : Bool := d.top.causes.all (·.done)

/-- Stroke tick at which the stroke (re)starts: s_r in Hold, else tick 0 of the next stroke. -/
def Dev.startTick (d : Dev) : Nat := d.ra.resume.getD 0

/-- RETREAT_REQ_FALL (R355, R356): at a tick edge the stage is at or before the re-entry point. Between edges the output
does not change. -/
def retreatReqFall (dt : Nat) (d : Dev) : Dev :=
  let d := d.after dt
  let lim : Int := 65536 * ((d.startTick : Int) - (d.ra.holdD : Int))
  match d.posAt d.ns (d.top.edgeAt >>> 32) with
  | some y =>
    if d.up ∧ d.onEdge ∧ d.stg.retreat ∧ y ≤ lim then
      let d := d.setStg fun s => { s with retreat := false }
      { d with ra := { d.ra with step := max d.ra.step 3 } }
    else d
  | none => d

/-- Whether a column's queue holds its first entries of a stroke: 64, or all it will have (R355). -/
def Dev.queueReady (d : Dev) (s : Stroke) (c : Nat) : Bool :=
  !(d.col c).en || decide (min 64 s.n ≤ ((d.col c).queue.filter (·.sseq == s.sseq)).length)

/-- Whether the conditions of R355 other than the causes hold at the latest edge. `calIdle` says that no calibration,
self-test or boundary replay is pending. -/
def Dev.mayStart (d : Dev) (calIdle : Bool) : Bool :=
  if d.ra.cur.isSome then true
  else
    match d.nextStroke with
    | none => false
    | some s =>
      calIdle && (List.range 128).all (fun c => d.queueReady s c) &&
        (s.stroke != 0 || d.stg.firstLayer || !bit d.stg.ctl 3 || d.stg.syncSeen)

end Sys2Proof.Machine
end

