-- ==== Sys2Proof/Machine/Frames.lean ====
section
/-!
DEFINITION. Frames and DLY blocks of the head lanes (R284 to R290), and the strikes that await STRIKE records (R298).
-/
namespace Sys2Proof.Machine

/-- The 8-byte descriptor over which FCRC begins (R287). -/
def frameDesc (tick t : Nat) (idle test : Bool) : List Byte :=
  toLE 5 tick ++ toLE 1 (t + 16 * b2n idle + 32 * b2n test) ++ [0, 0]

/-- FCRC of a frame's 16,384 codes (R286, R287); no codes stand for the zeros of an IDLE frame. -/
def frameCrc (tick t : Nat) (test : Bool) (codes : List Nat) : Nat :=
  crc32 (frameDesc tick t codes.isEmpty test ++ padTo 24576 (pack12 codes))

/-- The eight columns' codes of a tile as one frame: zeros where a pass has none. -/
def frameCodes (passes : List SentPass) : List Nat :=
  (List.range 8).flatMap fun k =>
    match passes.find? (·.pass == k) with
    | some p => (List.range 2048).map fun i => if p.fires i then p.code i else 0
    | none => List.replicate 2048 0

/-- Bits [63:0] of the HEAD block of a lane (R284); `eye` holds lane and dwell of an eye-scan request. -/
def headBlock (tick t lane : Nat) (eye : Option (Nat × Nat)) : Nat :=
  0xA5 + tick % 2 ^ 40 * 2 ^ 8 + t % 16 * 2 ^ 48 + lane % 4 * 2 ^ 54 +
    match eye with
    | some (l, dwell) => 2 ^ 56 + l % 4 * 2 ^ 57 + dwell % 8 * 2 ^ 59
    | none => 0

/-- Bits [63:0] of a TAIL block (R285). -/
def tailBlock (tick : Nat) (idle test : Bool) (fcrc : Nat) : Nat :=
  0x5A + fcrc % 2 ^ 32 * 2 ^ 8 + tick % 256 * 2 ^ 40 + b2n idle * 2 ^ 48 + b2n test * 2 ^ 49

/-- The blocks of a frame on each lane (R284 to R286): data block j of lane l carries word 3 j + l of the payload.
`torn` says that a queue word arrived poisoned while the frame was sent: its FCRC is sent inverted (R475). The control
block types are those of R283; what the tile makes of them (R291) is the tile's. -/
def frameLanes (tick t : Nat) (test : Bool) (codes : List Nat) (eye : Option (Nat × Nat)) (torn : Bool) : List (List Nat) :=
  let b := padTo 24576 (pack12 codes)
  let crc := frameCrc tick t test codes
  let tail := tailBlock tick codes.isEmpty test (if torn then crc ^^^ 0xFFFFFFFF else crc)
  (List.range 3).map fun l =>
    [headBlock tick t l eye] ++ ((List.range 1024).map fun j => fieldLE b (8 * (3 * j + l) + 7) (8 * (3 * j + l))) ++ [tail]

/-- Bits [63:0] of a DLY block: TICK_LO and a lane's three delays, with their check (R288). -/
def dlyBlock (tickLo d0 d1 d2 : Nat) : Nat :=
  let x := fun (v : Nat) => v % 256
  0x96 + x tickLo * 2 ^ 8 + x d0 * 2 ^ 16 + x d1 * 2 ^ 24 + x d2 * 2 ^ 32 +
    (0xFF ^^^ x tickLo ^^^ x d0 ^^^ x d1 ^^^ x d2) * 2 ^ 40

/-- The DLY block of each lane: passes 0 to 2, 3 to 5, and 6 and 7 with a third delay of 0 (R288). -/
def dlyLanes (tick : Nat) (dl : List Nat) : List Nat :=
  (List.range 3).map fun l => dlyBlock tick (nth dl (3 * l) 0) (nth dl (3 * l + 1) 0) (nth dl (3 * l + 2) 0)

/-- Send a frame for a tick to a tile whose lanes run at 16.0 Gbit/s (R289); no codes make it an IDLE frame. The
lanes, strobe and clock are the port of R281 and R282. -/
def Dev.sendFrame (d : Dev) (t tick : Nat) (test : Bool) (codes : List Nat) (torn : Bool) : Dev :=
  let x := d.tile t
  let eye := if x.eyeBusy ∧ x.eyeLane < 3 then some (x.eyeLane, x.eyeDwell) else none
  if x.st = .up then d.send (.headFrame t tick (frameLanes tick t test codes eye torn)) else d

/-- Send the DLY blocks of the next edge to every tile whose lanes run at 16.0 Gbit/s (R288, R289): the delays that
the columns will have after the hand-over of that edge. The strobes of one edge are one instant here (R533). -/
def Dev.sendDly (d : Dev) : Dev :=
  (List.range 16).foldl (fun (d : Dev) t =>
    if (d.tile t).st = .up then
      let dl := (List.range 8).map fun k =>
        let c := d.col (8 * t + k)
        c.shDelay.getD c.delay
      d.send (.headDly t (dlyLanes (d.top.tick + 1) dl))
    else d) d

/-- Record a strike of a tile at the present edge, to be matched by its STRIKE record (R298). -/
def Dev.recordStrike (d : Dev) (t : Nat) (cal : Bool) (passes : List SentPass) : Dev :=
  let codes := frameCodes passes
  let x : Strike :=
    { tile := t, tick := d.top.tick, at_ := d.top.edgeAt
      fcrc := frameCrc (d.top.tick % 2 ^ 40) t cal codes
      delays := (List.range 8).map fun k => (d.col (8 * t + k)).delay
      passes, cal, expect := d.head.expect, late := max d.head.expect (1000 * d.head.late) }
  { d with ra := { d.ra with strikes := d.ra.strikes ++ [x] } }

/-- The pulse of emitter i in a pass of a strike: from t_s + d_c for its code's nanoseconds, ended by STROBE's fall at the
latest (R41, R293). -/
def Strike.pulse (x : Strike) (p : SentPass) (i : Nat) : Nat × Nat :=
  let start := x.at_ + nsT (nth x.delays p.pass 0)
  (start, min (start + nsT (p.code i)) (x.at_ + nsT 4352))

end Sys2Proof.Machine
end

