-- ==== Sys2Proof/Machine/Calibrate.lean ====
section
/-!
DEFINITION. The calibration engine (chapter 10): requests, runs and self-tests, calibration strikes, the fit, and the
ways an incoming bank comes into force.
-/
namespace Sys2Proof.Machine

/-- The calibration engine's requester (R447, R452). -/
def rqCal : Rq := ⟨17, 5, 2⟩

/-- Whether the device is at a turnaround (R23): in Expose or Hold with no stroke being struck. -/
def Dev.atTurn (d : Dev) : Bool := d.expoOrHold && d.ra.cur.isNone

/-! ### Requests (R330) -/

/-- Take a CAL_RUN or SELF_TEST descriptor: queued or deferred by the mode, or BAD_MODE (R330). -/
def Dev.calRequest (d : Dev) (x : Desc) (selfTest : Bool) : Dev :=
  let add := fun (calib after : Bool) =>
    let r : CalReq := { desc := some x, selfTest, mask := x.arg 13 12, calib, asked := x.arg 13 12, fit := if selfTest then 0 else x.arg 14 14,
                        apply := if selfTest then 0 else x.arg 19 16, afterClose := after }
    { d with cal := { d.cal with reqs := d.cal.reqs ++ [r] } }
  match d.top.mode with
  | .dormant => d.reject x stBAD_MODE
  | .safe => d.reject x stBAD_MODE
  | .configure => add true false
  | .calibrate => add true false
  | .expose => add false selfTest
  | .hold => add false selfTest

/-- CAL_RUN (R330): the ring-0 command begins; being deferred, it does not hold up the commands after it. -/
def calRun (dt : Nat) (d : Dev) : Dev := (d.after dt).cmd0 0x0030 true fun d x => d.calRequest x false

/-- SELF_TEST (R330, R332). -/
def selfTest (dt : Nat) (d : Dev) : Dev := (d.after dt).cmd0 0x0031 true fun d x => d.calRequest x true

/-! ### Start (R316, R320, R323, R331, R335) -/

/-- Copy the bank in force into the incoming bank, word by word, poison with it (R316). -/
def Dev.copyBank (d : Dev) (t : Nat) : (n i : Nat) → Dev
  | 0, _ => d
  | n + 1, i =>
    let b := (d.calTile t).bank
    let src := d.calBank t b / 16 + i
    let dst := d.calBank t (1 - b) / 16 + i
    let ((v, p), d) := if 16 * src < usable then d.readWord src else ((0, true), d)
    (if 16 * dst < usable then d.writeWord dst v p else d).copyBank t n (i + 1)

/-- The copy of R316, whole; what lies out of the usable range is accounted so (R444). -/
def Dev.copyWhole (d : Dev) (t : Nat) : Dev :=
  let b := (d.calTile t).bank
  let d := d.copyBank t 40960 0
  (d.oorPast rqCal false (d.calBank t b) 0xA0000).oorPast rqCal true (d.calBank t (1 - b)) 0xA0000

/-- Beams of a tile that a run measures, and those that fail CEIL (R323). -/
def Dev.calBeams (d : Dev) (t wHi : Nat) : List Nat × List Nat :=
  let health := (nth d.ra.cfgs t ({}, {})).1.health
  let able := (List.range 16384).filter fun j =>
    (d.col (8 * t + j / 2048)).en && decide (bits ((nth health j (some 0)).getD 0) 31 30 < 2)
  (able.filter fun j => decide (wHi ≤ d.ceiling (16384 * t + j)), able.filter fun j => decide (d.ceiling (16384 * t + j) < wHi))

/-- The shots of the measurable beams, in order of in-tile index (R323, R332). -/
def shotsOf (beams : List Nat) (selfTest : Bool) (rep : Nat) : List Shot :=
  beams.flatMap fun b =>
    if selfTest then [⟨b, true, false⟩] else (List.range rep).flatMap fun _ => [⟨b, false, false⟩, ⟨b, true, false⟩]

/-- The request a start would take now: in Calibrate the oldest; at a turnaround a run first, then a self-test after a
layer close, then the due tiles alone (R330, R331). -/
def Dev.calNext (d : Dev) : Option CalReq :=
  if d.top.mode = .calibrate then d.cal.reqs.find? (·.calib)
  else if d.atTurn then
    let dueMask := if bit d.cal.ctl 1 && bit d.cal.ctl 0 && !d.cal.turnDone then
        sumN (d.cal.tiles.mapIdx fun t (c : CalTile) => b2n (c.due && c.pend.isNone && !c.ramp) * 2 ^ t) else 0
    match d.cal.reqs.find? fun r => !r.selfTest && !r.calib with
    | some r => some { r with mask := r.mask ||| dueMask }
    | none =>
      if dueMask ≠ 0 then some { desc := none, selfTest := false, mask := dueMask, fit := 0, apply := 0xFFFFFFFF }
      else d.cal.reqs.find? fun r => r.selfTest && !r.calib && !r.afterClose
  else none

/-- Why a tile is not measured at all: 0 RESP = 0, 2 bank pending or ramping (R320, R335). -/
def Dev.calSkip (d : Dev) (t : Nat) : Option Nat :=
  let c := d.calTile t
  if c.pend.isSome ∨ c.ramp then some 2 else if d.rd (Reg.CAL_t_RESP t) = 0 then some 0 else none

/-- The calibration strike period: CAL_PERIOD within its limits, and at least the safety partition's minimum (R322). -/
def Dev.calPeriod (d : Dev) : Nat :=
  max (clampN 5000 1000000 (d.get Reg.CAL_PERIOD Fd.CAL_PERIOD_NS)) (d.get Reg.SAF_MINPER Fd.SAF_MINPER_MIN)

/-- CAL_RUN_START (R316, R323, R330, R331): the next request begins. -/
def calRunStart (dt : Nat) (d : Dev) : Dev :=
  let d := d.after dt
  match d.calNext with
  | none => d
  | some r =>
    if !d.up ∨ d.cal.run.isSome then d
    else
      let rest := match r.desc with
        | none => d.cal.reqs
        | some _ => d.cal.reqs.eraseIdx ((d.cal.reqs.findIdx? fun q => q.desc == r.desc).getD 0)
      let turn := decide (d.top.mode ≠ .calibrate)
      let ctl := d.rd Reg.CAL_CTL
      let d := { d with cal := { d.cal with reqs := rest, turnDone := d.cal.turnDone || (turn && !r.selfTest), ctl } }
      let wLo := d.get Reg.CAL_WIDTH Fd.CAL_WIDTH_W_LO
      let wHi := d.get Reg.CAL_WIDTH Fd.CAL_WIDTH_W_HI
      if !r.selfTest ∧ wHi < wLo + 256 then d.calReject r stBAD_MODE
      else
        let asked := onesOf 16 r.mask
        let d := asked.foldl (fun (d : Dev) t => match d.calSkip t with
          | some why => d.event 0x8A04 (toLE 1 t ++ toLE 1 why)
          | none => d) d
        let ts := asked.filter fun t => (d.calSkip t).isNone
        let rep := max 1 (d.get Reg.CAL_CTL Fd.CAL_CTL_REPEAT)
        let d := if r.selfTest then d else ts.foldl (fun (d : Dev) t => d.copyWhole t) d
        let tiles := ts.map fun t =>
          let (ok, ceil) := d.calBeams t wHi
          let m := ok.map fun b => ({ beam := b } : Meas)
          ({ tile := t, todo := shotsOf ok r.selfTest rep, meas := m, ceil } : CalTileRun)
        let run : CalRun :=
          { req := r, turn, mask := sumN (ts.map fun t => 2 ^ t), tiles, repeat_ := if r.selfTest then 1 else rep, wLo, wHi
            period := d.calPeriod, park := toS 32 (d.rd Reg.CAL_PARK)
            parkTol := d.get Reg.CAL_PARK_TOL Fd.CAL_PARK_TOL_LINES, tol := d.get Reg.CAL_TOL Fd.CAL_TOL_TOL }
        let d := { d with cal := { d.cal with run := some run } }
        d.event 0x8A01 (toLE 1 (b2n r.selfTest) ++ toLE 1 (b2n turn) ++ toLE 2 run.mask)

/-! ### Calibration strikes (R322 to R324) -/

/-- Whether the head is parked at an instant in ns (R322). -/
def Dev.parked (d : Dev) (r : CalRun) (t : Nat) : Bool :=
  match d.posAt d.ns t with
  | some y => decide (65536 * (r.park - r.parkTol) ≤ y) && decide (y ≤ 65536 * (r.park + r.parkTol))
  | none => false

/-- Whether every strike of a run has been made and judged. -/
def CalRun.done (r : CalRun) : Bool :=
  r.tiles.all fun x => x.todo.isEmpty && x.redo.isEmpty && x.out.isEmpty && x.sentNow.isNone && x.sentNext.isNone

/-- A tick edge as a tile of the run sees it: the frame sent for this edge is the one that may fire; a frame that was
not fired is taken back (R322). -/
def CalTileRun.shift (x : CalTileRun) : CalTileRun :=
  let todo := match x.sentNow with | some s => s :: x.todo | none => x.todo
  { x with todo, sentNow := x.sentNext, sentNext := none }

/-- The next shot is taken for the frame of edge T + 1: the tile's beams in order, then the repeated strikes (R324). -/
def CalTileRun.send (x : CalTileRun) : CalTileRun :=
  match x.todo with
  | s :: r => { x with todo := r, sentNext := some s }
  | [] => match x.redo with
    | s :: r => { x with redo := r, sentNext := some s }
    | [] => x

/-- The eight passes of a test frame with one beam (R323). -/
def testPasses (shot : Option Shot) (wLo wHi : Nat) : List SentPass :=
  match shot with
  | none => []
  | some s =>
    let e := s.beam % 2048
    let one : List Bool := (List.range 2048).map (· == e)
    let codes := one.map fun b => if b then (if s.hi then wHi else wLo) else 0
    [{ pass := s.beam / 2048, fired := one,
       entry := { sseq := 0, line := 0, tick := 0, q := 0, tPred := 0, period := 0, epoch := 0, mask := 0, codes } }]

/-- Whether a tile takes part in a calibration strike: it is measured, or its lanes are up (R289). -/
def Dev.calTakes (d : Dev) (r : CalRun) (t : Nat) : Bool := r.tiles.any (·.tile == t) || (d.tile t).st == .up

/-- At edge T the test frames for a calibration strike at edge T + 1 are sent, where the head is parked and a shot
remains, and samples are not lost (R354); the answer says whether edge T + 1 is so designated (R290, R322, R666). -/
def Dev.calDesignate (d : Dev) : Bool × Dev :=
  let d := d.setRun fun r => { r with tiles := r.tiles.map CalTileRun.shift }
  match d.cal.run with
  | none => (false, d)
  | some r =>
    let ok := d.top.mode == .calibrate || d.atTurn
    if !ok ∨ r.tiles.all (fun x => x.todo.isEmpty && x.redo.isEmpty) ∨ d.stg.lost ∨ !d.parked r (d.top.edgeAt >>> 32) then (false, d)
    else
      let d := d.setRun fun r => { r with tiles := r.tiles.map CalTileRun.send }
      let tiles := match d.cal.run with | some r => r.tiles | none => []
      let d := (List.range 16).foldl (fun (d : Dev) t =>
        let shot := (tiles.find? (·.tile == t)).bind (·.sentNext)
        d.sendFrame t (d.top.tick + 1) true (frameCodes (testPasses shot r.wLo r.wHi)) false) d
      (true, d)

/-- CALIBRATION_STRIKE (R41, R322, R566): at an edge designated for it, with the head parked, the test frames fire. -/
def calibrationStrike (d : Dev) : Dev :=
  match d.cal.run with
  | none => d
  | some r =>
    if !d.up ∨ !d.cal.edge then d
    else
      let d := { d with cal := { d.cal with edge := false } }
      if d.saf.safe ∨ d.stg.lost ∨ !d.parked r (d.top.edgeAt >>> 32) then d
      else
        let (pass, d) := d.strobeRise
        if !pass then d
        else
          let d := { d with top := { d.top with isStrike := true } }
          let d := (List.range 16).foldl (fun (d : Dev) t =>
            if !d.calTakes r t then d
            else
              let shot := (r.tiles.find? (·.tile == t)).bind (·.sentNow)
              let d := d.recordStrike t true (testPasses shot r.wLo r.wHi)
              match shot with
              | none => d
              | some s =>
                let temp := nth d.ra.tileT t 0
                let ns := d.top.edgeAt >>> 32
                let d := (d.wr (Reg.CAL_t_LAST_LO t) (ns % 2 ^ 32)).wr (Reg.CAL_t_LAST_HI t) (ns >>> 32)
                d.setRunTile t fun x =>
                  { x with sentNow := none, out := x.out ++ [(d.top.tick, s)], tS := some (x.tS.getD temp), tE := temp }) d
          d.setRun fun r => { r with first := some (r.first.getD d.top.tick), last := d.top.tick }

/-- The STRIKE record of a calibration strike matched: the charge of the shot's pass counts (R321, R325). -/
def Dev.calCharge (d : Dev) (t tick : Nat) (charges : List Nat) : Dev :=
  d.setRunTile t fun x =>
    match x.out.find? (·.1 == tick) with
    | none => x
    | some (_, s) =>
      let q := nth charges (s.beam / 2048) 0
      let add := fun (m : Meas) => if m.beam = s.beam then (if s.hi then { m with hi := m.hi + q } else { m with lo := m.lo + q }) else m
      { x with out := x.out.filter (·.1 != tick), meas := x.meas.map add }

/-- The STRIKE record of a calibration strike is missing or mismatched: the measurement is discarded, and repeated once
after the tile's last beam (R301, R324). -/
def Dev.calDiscard (d : Dev) (t tick : Nat) : Dev :=
  d.setRunTile t fun x =>
    match x.out.find? (·.1 == tick) with
    | none => x
    | some (_, s) =>
      let x := { x with out := x.out.filter (·.1 != tick) }
      if s.again then { x with meas := x.meas.map fun m => if m.beam = s.beam then { m with miss := true } else m }
      else { x with redo := x.redo ++ [{ s with again := true }] }

/-! ### Results (R325 to R328, R332) -/

/-- energy() (R325). -/
def calEnergy (sum resp r : Nat) : Nat := (sum * resp + r * 2 ^ 15) / (r * 2 ^ 16)

/-- measure() (R325): gain and threshold, or failure 2 SLOPE, 3 THRESH. -/
def measure (sLo sHi wLo wHi resp r : Nat) : Except Nat (Nat × Nat) :=
  let eLo := calEnergy sLo resp r
  let eHi := calEnergy sHi resp r
  if eHi ≤ eLo then .error 2
  else
    let dw := wHi - wLo
    let g := (16 * (eHi - eLo) + dw / 2) / dw
    if g = 0 ∨ 0xFFFFFFFF < g then .error 2
    else
      let off := (256 * eLo + g / 2) / g
      if 16 * wLo < off then .error 3
      else if 16 * wLo ≤ 16 * wLo - off then .error 3
      else .ok (g, 16 * wLo - off)

/-- offset_fit() (R327): the shifted words, their bits [63:48] written 0 (R211), or none where one leaves its range. -/
def offsetFit (c : List Nat) (gM wM : Nat) (tset : List Int) (tm : Int) : Option (List Nat) :=
  let (gP, wP) := working c tset tm
  let dg : Int := (gM : Int) - gP
  let dw : Int := asr (16 * (wM : Int) - wP + 8) 4
  let sets := match bracket tset tm with | .inl s => [s] | .inr i => [i, i + 1]
  let shifted := sets.map fun s => (s, (calGain (nth c s 0) : Int) + dg, (calW0 (nth c s 0) : Int) + dw)
  if shifted.any fun x => decide (x.2.1 < 1) || decide (0xFFFFFFFF < x.2.1) || decide (x.2.2 < 0) || decide (65535 < x.2.2) then none
  else some (shifted.foldl (fun c x => upd c x.1 fun _ => x.2.2.toNat * 2 ^ 32 + x.2.1.toNat) c)

/-- The run temperature t_m (R326). -/
def CalTileRun.tm (x : CalTileRun) : Int := asr ((x.tS.getD 0) + x.tE + 1) 1

/-- Whether a self-test finds a beam within tolerance (R332). -/
def selfTestOk (e gv w0 wHi tol : Nat) : Bool :=
  let ep := asr ((gv : Int) * (256 * (wHi : Int) - w0)) 12
  decide ((((e : Int) - ep).natAbs : Int) * 1024 ≤ ep * tol)

/-- Read one calibration word of a bank: its value and whether it is poisoned. -/
def Dev.calWord (d : Dev) (t bank set j : Nat) : (Nat × Bool) × Dev :=
  let ((bs, p), d) := d.hbmRead rqCal (d.calBank t bank + 8 * (16384 * set + j)) 8
  ((ofLE bs, p), d)

/-- The five words of a beam. -/
def Dev.calFive (d : Dev) (t bank j : Nat) : List Nat × Dev :=
  (List.range 5).foldl (fun (x : List Nat × Dev) s =>
    let ((v, _), d) := x.2.calWord t bank s j
    (x.1 ++ [v], d)) ([], d)

/-- Fit one measured beam of a run into the incoming bank: the device and the failure (R323 to R328). -/
def Dev.fitBeam (d : Dev) (r : CalRun) (t : Nat) (tm : Int) (m : Meas) : Option Nat × Dev :=
  if m.miss then (some 1, d)
  else
    match measure m.lo m.hi r.wLo r.wHi (d.rd (Reg.CAL_t_RESP t)) r.repeat_ with
    | .error f => (some f, d)
    | .ok (g, w) =>
      let inc := 1 - (d.calTile t).bank
      let put := fun (d : Dev) (s word : Nat) => d.hbmWrite rqCal (d.calBank t inc + 8 * (16384 * s + m.beam)) (toLE 8 word) false
      let (c, d) := d.calFive t inc m.beam
      if r.req.fit = 0 then
        match offsetFit c g w (d.tset t) tm with
        | none => (some 4, d)
        | some c' =>
          let sets := match bracket (d.tset t) tm with | .inl s => [s] | .inr i => [i, i + 1]
          (none, sets.foldl (fun (d : Dev) s => put d s (nth c' s 0)) d)
      else
        let s := r.req.fit - 1
        (none, put d s (w * 2 ^ 32 + g))

/-- Judge one beam of a self-test (R332). -/
def Dev.testBeam (d : Dev) (r : CalRun) (t : Nat) (tm : Int) (m : Meas) : Option Nat × Dev :=
  if m.miss then (some 1, d)
  else
    let (c, d) := d.calFive t (d.calTile t).bank m.beam
    let (g, w0) := working c (d.tset t) tm
    let ok := selfTestOk (calEnergy m.hi (d.rd (Reg.CAL_t_RESP t)) 1) (gainV g (nth d.ra.tileM t 0x4000)) w0 r.wHi r.tol
    (if ok then none else some 5, d)

/-- The result map of a tile as bytes: a 1 for each failed beam (R317). -/
def mapBytes (fails : List Nat) : List Byte :=
  (List.range 2048).map fun i => BitVec.ofNat 8 (sumN ((List.range 8).map fun b => b2n (fails.contains (8 * i + b)) * 2 ^ b))

/-- The results of one tile: its failed-beam count, or none where it was skipped by set fit (R317, R327, R328, R333). -/
def Dev.calTileEnd (d : Dev) (r : CalRun) (x : CalTileRun) : Option Nat × Dev :=
  let t := x.tile
  let tm := x.tm
  if r.req.fit ≠ 0 ∧ 32 < (tm - nth (d.tset t) (r.req.fit - 1) 0).natAbs then (none, d.event 0x8A04 (toLE 1 t ++ toLE 1 1))
  else
    let (bad, d) := x.meas.foldl (fun (y : List (Nat × Nat) × Dev) m =>
      let (f, d) := if r.req.selfTest then y.2.testBeam r t tm m else y.2.fitBeam r t tm m
      (match f with | some f => y.1 ++ [(m.beam, f)] | none => y.1, d)) ([], d)
    let bad := bad ++ x.ceil.map fun b => (b, 0)
    let first := bad.foldl (fun (m : Option (Nat × Nat)) b => match m with
      | none => some b | some a => if b.1 < a.1 then some b else some a) none
    let d := match first with
      | some (b, f) => if r.req.selfTest then d else d.event 0x8A06 (toLE 1 t ++ toLE 1 f ++ toLE 2 b)
      | none => d
    let d := d.hbmWrite rqCal (d.cal.base + 0x1400000 + 2048 * t) (mapBytes (bad.map (·.1))) false
    let d := d.set (Reg.CAL_t_STAT t) Fd.CAL_t_STAT_FAILS bad.length
    let d := if r.req.selfTest then d
      else
        let d := (d.wr (Reg.CAL_t_COUNT t) (d.rd (Reg.CAL_t_COUNT t) + 1)).wr (Reg.CAL_t_LAST_T t) (ofS 16 tm)
        d.setCalTile t fun c => { c with due := false }
    (some bad.length, d)

/-! ### Coming into force (R334, R335) -/

/-- The incoming bank of a tile comes into force; `why` is the reason of event 0x8A05. -/
def Dev.bankInForce (d : Dev) (t why : Nat) : Dev :=
  let d := d.setCalTile t fun c => { c with bank := 1 - c.bank, pend := none, pendReady := false, ramp := false, early := false }
  d.event 0x8A05 (toLE 1 t ++ toLE 1 (d.calTile t).bank ++ toLE 1 why)

/-- Apply a tile's results after a run (R334). -/
def Dev.calApply (d : Dev) (r : CalRun) (t : Nat) : Dev :=
  if !r.turn then d.bankInForce t 2
  else
    let own := d.get (Reg.CAL_t_CTL t) Fd.CAL_t_CTL_APPLY
    let asked := (r.req.apply >>> (2 * t)) % 4
    match (if bit r.req.asked t ∧ asked < 3 then asked else own) with
    | 0 =>
      let n := d.get (Reg.CAL_t_CTL t) Fd.CAL_t_CTL_RAMP_N
      let d := (List.range 8).foldl (fun (d : Dev) k =>
        d.rampWrite (8 * t + k) true (max n 16)) d
      d.setCalTile t fun c => { c with ramp := true }
    | 2 => d.setCalTile t fun c => { c with pend := some true, pendReady := false }
    | _ => d.setCalTile t fun c => { c with pend := some false }

/-- CAL_RUN_END (R327, R328, R333, R334): the last strike of the run has been judged. -/
def calRunEnd (dt : Nat) (d : Dev) : Dev :=
  let d := d.after dt
  match d.cal.run with
  | none => d
  | some r =>
    if !d.up ∨ !r.done then d
    else
      let (res, d) := r.tiles.foldl (fun (y : List (Nat × Option Nat) × Dev) x =>
        let (n, d) := y.2.calTileEnd r x
        (y.1 ++ [(x.tile, n)], d)) ([], d)
      let got := res.filter fun x => x.2.isSome
      let count := fun (t : Nat) => match res.find? (·.1 == t) with | some (_, some n) => n | _ => 0xFFFF
      let d := d.calFinish r 0 (sumN (got.map fun x => 2 ^ x.1)) (sumN (got.map fun x => x.2.getD 0)) count
      if r.req.selfTest then d else got.foldl (fun (d : Dev) x => d.calApply r x.1) d

/-- TILE_UNPLUG (R308, R310, R336): the debounced plug detect shows no tile; a run in progress is abandoned. -/
def tileUnplug (t dt : Nat) (d : Dev) : Dev :=
  let d := d.after dt
  if !d.up ∨ 16 ≤ t ∨ !(d.tile t).present then d
  else if d.edgeNow then d.setTile t fun x => { x with plugLate := some false } else (d.tileGone t).calAbandon

/-- The plug changes of the core cycle of a tick edge, judged under the mode after it (R310). -/
def Dev.plugEdge (d : Dev) : Dev :=
  (List.range 16).foldl (fun (d : Dev) t =>
    match (d.tile t).plugLate with
    | none => d
    | some come =>
      let d := d.setTile t fun x => { x with plugLate := none }
      if come then d.tileCome t else (d.tileGone t).calAbandon) d

/-- Whether a tile's pending bank is due at the next stroke (R334). -/
def CalTile.boundary (c : CalTile) : Bool :=
  match c.pend with
  | some false => true
  | some true => c.pendReady
  | none => false

/-- At a turnaround with no run to make, the boundary replay of the banks due at the next stroke is ordered (R177,
R334): the correction epoch increments and the Tillers compute with the incoming banks. -/
def Dev.calBoundary (d : Dev) : Dev :=
  if !d.atTurn ∨ d.cal.run.isSome ∨ d.calNext.isSome ∨ !d.cal.tiles.any (fun c => c.boundary && !c.early) then d
  else
    let d := { d with cal := { d.cal with tiles := d.cal.tiles.map fun (c : CalTile) => if c.boundary then { c with early := true } else c } }
    d.bumpEpoch

/-- CAL_BANK_INTO_FORCE (R334): at the tick edge of stroke tick 0, the banks prepared at the turnaround come into force. -/
def calBankIntoForce (dt : Nat) (d : Dev) : Dev :=
  let d := d.after dt
  if !d.up ∨ d.ra.sTick ≠ some 0 then d
  else
    ((List.range 16).filter fun t => (d.calTile t).early).foldl (fun (d : Dev) t =>
      d.bankInForce t (if (d.calTile t).pend = some true then 1 else 0)) d

/-- On entry to Configure every pending or ramping bank comes into force at once (R335). -/
def Dev.calConfigure (d : Dev) : Dev :=
  ((List.range 16).filter fun t => (d.calTile t).pend.isSome || (d.calTile t).ramp).foldl (fun (d : Dev) t =>
    let d := (List.range 8).foldl (fun (d : Dev) k =>
      (d.wr (Reg.TIL_n_RAMP (8 * t + k)) 0).setCol (8 * t + k) fun c => { c with rampAct := false, rampQ := none, rampMax := 0, shRamp := none, shRampIn := none }) d
    d.bankInForce t 3) d

/-- Requests not yet begun complete with a status (R52, R54). -/
def Dev.calDropReqs (d : Dev) (status : Nat) : Dev :=
  let rs := d.cal.reqs
  rs.foldl (fun (d : Dev) r => d.calReject r status) { d with cal := { d.cal with reqs := [] } }

/-- Whether no run, self-test or boundary replay stands in the way of STRIKE_OK (R331, R334). -/
def Dev.calIdle (d : Dev) : Bool :=
  d.cal.run.isNone && d.calNext.isNone && d.cal.tiles.all (fun c => c.early || !c.boundary) &&
    (!d.cal.tiles.any (·.early) || d.ra.cols.all fun c => c.queue.all fun e => !e.stale || e.ptick)

/-- The first present tile whose set points do not increase strictly (R319). -/
def Dev.badSetPoints (d : Dev) : Option Nat :=
  firstIdx 16 fun t => (d.tile t).present && (List.range 4).any fun i => decide (nth (d.tset t) (i + 1) 0 ≤ nth (d.tset t) i 0)

end Sys2Proof.Machine
end

