-- ==== Sys2Proof/Machine/Acks.lean ====
section
/-!
DEFINITION. Return-lane records of strikes (R295 to R301): matching, cuts, missing and late acknowledgements, telemetry.
-/
namespace Sys2Proof.Machine

/-- The temperatures and rails of a record are taken (R301, R397): they lie at byte `o`. -/
def Dev.takeTelemetry (d : Dev) (t : Nat) (bs : List Byte) (o : Nat) : Dev :=
  let temps := (List.range 4).map fun i => toS 16 (fieldLE bs (o + 2 * i + 1) (o + 2 * i))
  let rails := (List.range 3).map fun i => fieldLE bs (o + 8 + 2 * i + 1) (o + 8 + 2 * i)
  d.setTile t fun x => { x with temps, rails, report := true }

/-- STATUS_RECORD (R295, R296, R301). -/
def statusRecord (t : Nat) (bs : List Byte) (dt : Nat) (d : Dev) : Dev :=
  let d := d.after dt
  if !d.up ∨ 16 ≤ t then d
  else if !recordOk bs 2 28 then d.linkErr t
  else d.takeTelemetry t bs 8

/-- The fields of a STRIKE record that R298 judges (R296). -/
structure StrikeRec where
  tile : Nat
  cut : Bool
  crcOk : Bool
  tick : Nat
  fcrc : Nat
  cutNs : Nat
  started : List Nat
  ended : List Nat
  charges : List Nat
  deriving DecidableEq, Repr

/-- The STRIKE record that 100 bytes hold (R296). -/
def strikeRecOf (b : List Byte) : StrikeRec :=
  let f := byteAt b 1
  { tile := f % 16, cut := bit f 4, crcOk := bit f 5, tick := fieldLE b 6 2, fcrc := fieldLE b 11 8, cutNs := fieldLE b 13 12
    started := (List.range 8).map fun k => fieldLE b (17 + 2 * k) (16 + 2 * k)
    ended := (List.range 8).map fun k => fieldLE b (33 + 2 * k) (32 + 2 * k)
    charges := (List.range 8).map fun k => fieldLE b (51 + 4 * k) (48 + 4 * k) }

/-- The number of beams of pass k that a strike fires and `pick` takes. -/
def Strike.countIf (x : Strike) (k : Nat) (pick : SentPass → Nat → Bool) : Nat :=
  match x.passes.find? (·.pass == k) with
  | some p => ((List.range 2048).filter fun i => p.fires i && pick p i).length
  | none => 0

/-- The first condition of R298 that a record fails, counted from 0 in the order of the rule; `t` is the tile whose lane
brought it. -/
def Strike.failed (x : Strike) (t : Nat) (r : StrikeRec) : Option Nat :=
  let all8 := fun (p : Nat → Bool) => (List.range 8).all p
  let n := fun k => x.countIf k fun _ _ => true
  if r.tile ≠ t then some 0
  else if r.fcrc ≠ x.fcrc ∨ !r.crcOk then some 1
  else
    match x.cut with
    | none =>
      if !r.cut && all8 (fun k => nth r.started k 0 == n k && nth r.ended k 0 == n k) then none else some 2
    | some c =>
      if !(r.cut && decide (r.cutNs ≤ c + 4) && decide (c ≤ r.cutNs + 4)) then some 3
      else if !all8 (fun k => nth r.started k 0 == (if nth x.delays k 0 ≤ c then n k else 0)) then some 4
      else if !all8 (fun k => nth r.ended k 0 == x.countIf k fun p i => decide (nth x.delays k 0 + p.code i ≤ r.cutNs)) then some 5
      else none

/-- Whether a record fails the checks on CUT_NS or STARTED_k of a strike with a recorded cut (R300). -/
def Strike.cutFails (x : Strike) (r : StrikeRec) : Bool :=
  match x.cut with
  | none => false
  | some c =>
    !(decide (r.cutNs ≤ c + 4) && decide (c ≤ r.cutNs + 4)) ||
      (List.range 8).any fun k => nth r.started k 0 != (if nth x.delays k 0 ≤ c then x.countIf k fun _ _ => true else 0)

/-- The line-pass of a sent pass becomes STRUCK, or stays PARTIAL while it waits for its re-strike (R188, R298). -/
def Dev.passStruck (d : Dev) (x : Strike) (p : SentPass) : Dev :=
  let e := p.entry
  let set := fun (m : MapLine) => { m with lp := upd m.lp p.pass fun l => if x.cut.isSome && l == .part then .part
                                                                         else if l == .lost then .lost else .struck }
  let d := d.updMap x.tile e.sseq e.line set
  if x.cut.isSome then d
  else { d with ra := { d.ra with parts := d.ra.parts.filter fun q =>
           !(q.tile == x.tile && q.pass == p.pass && q.sseq == e.sseq && q.line == e.line) } }

/-- A pass of a matched strike resolves (R187, R298, R608): its dose is struck, but for truncated beams, which are
withheld and flagged, and so are the not-started ones that R300 keeps from their re-strike. -/
def Dev.passResolve (d : Dev) (x : Strike) (p : SentPass) (cutNs : Nat) : Dev :=
  let e := p.entry
  let dk := nth x.delays p.pass 0
  let trunc := fun (i : Nat) => x.cut.isSome && p.fires i && !x.notStarted p i && decide (cutNs < dk + p.code i)
  -- not-started beams whose re-strike is cancelled fire no more (R300)
  let never := fun (i : Nat) => x.cancel && p.mine i && x.notStarted p i
  let wit := weightOf e fun i => trunc i || never i
  let all := x.pending p
  let d := d.ldgStroke e.sseq cUNC (-(all : Int))
  let d := d.ldgStroke e.sseq cSTR (all - wit : Nat)
  let d := d.ldgStroke e.sseq cWIT wit
  let d := if x.cut.isSome then d.flagBeams x.tile e.sseq e.line p.pass 1 ((List.range 2048).map trunc) else d
  let d := if x.cancel then d.flagBeams x.tile e.sseq e.line p.pass 2 ((List.range 2048).map never) else d
  d.passStruck x p

/-- Remove an outstanding strike. -/
def Dev.dropStrike (d : Dev) (x : Strike) : Dev :=
  { d with ra := { d.ra with strikes := d.ra.strikes.filter fun y => !(y.tile == x.tile && y.tick == x.tick) } }

/-- Mark an outstanding strike as already registered missing or mismatched. -/
def Dev.holdStrike (d : Dev) (x : Strike) (cancel : Bool) : Dev :=
  let f := fun (y : Strike) => if y.tile == x.tile && y.tick == x.tick then { y with held := true, cancel := y.cancel || cancel } else y
  { d with ra := { d.ra with strikes := d.ra.strikes.map f } }

/-- R300: the tile's PARTIAL line-passes of the tick become SENT and their re-strike is cancelled. -/
def Dev.cancelRestrike (d : Dev) (x : Strike) : Dev :=
  x.passes.foldl (fun (d : Dev) p =>
    let e := p.entry
    let d := d.updMap x.tile e.sseq e.line fun m => { m with lp := upd m.lp p.pass fun l => if l == .part then .sent else l }
    let d := { d with ra := { d.ra with parts := d.ra.parts.filter fun q =>
      !(q.tile == x.tile && q.pass == p.pass && q.sseq == e.sseq && q.line == e.line) } }
    d.setCol (8 * x.tile + p.pass) fun c => { c with queue := c.queue.filter fun q => !(q.sseq == e.sseq && q.line == e.line) }) d

/-- The detail of events 0x7107 to 0x710A (R311). -/
def tickDetail (t tick : Nat) : List Byte := toLE 1 t ++ toLE 5 tick

/-- The layer number of a strike. -/
def Dev.strikeLayer (d : Dev) (x : Strike) : Nat :=
  match x.passes.head? with
  | some p => match d.stroke? p.entry.sseq with | some s => s.layer | none => 0
  | none => match d.ra.cur.bind d.stroke? with | some s => s.layer | none => 0

/-- A matching STRIKE record (R298, R299, R301). -/
def Dev.strikeMatch (d : Dev) (x : Strike) (r : StrikeRec) (rail : Nat) (poison : Bool) : Dev :=
  let d := d.setTile x.tile fun y => { y with charge := y.charge + sumN r.charges }
  if x.cal then (d.calCharge x.tile x.tick r.charges).dropStrike x
  else
    let d := if x.held then d.event 0x7109 (tickDetail x.tile x.tick) else d
    let d := d.metCharge x.tile x.tick (d.strikeLayer x) r.charges rail poison
    let d := x.passes.foldl (fun (d : Dev) p => d.passResolve x p r.cutNs) d
    d.dropStrike x

/-- A STRIKE record with the TICK of an outstanding strike that does not match it (R299, R300, R301): `cond` is the first
condition it fails, `cancel` whether R300 applies. -/
def Dev.strikeMismatch (d : Dev) (x : Strike) (cond : Nat) (cancel : Bool) : Dev :=
  let d := d.bump (Reg.HEAD_t_MISMATCH x.tile)
  let d := d.event 0x7108 (tickDetail x.tile x.tick ++ toLE 1 cond)
  if x.cal then (d.calDiscard x.tile x.tick).dropStrike x
  else
    let d := d.trigger (.hold 0x09)
    let d := d.holdStrike x cancel
    if cancel then d.cancelRestrike x else d

/-- STRIKE_RECORD (R295 to R301): a STRIKE record arrives on the return lane of tile t; `poison` says that its charge
integrals reach the metrology partition poisoned (R475). -/
def strikeRecord (t : Nat) (bs : List Byte) (poison : Bool) (dt : Nat) (d : Dev) : Dev :=
  let d := d.after dt
  if !d.up ∨ 16 ≤ t then d
  else if !recordOk bs 1 100 then d.linkErr t
  else
    let r := strikeRecOf bs
    let d := (d.takeTelemetry t bs 80).setTile t fun x => { x with charges := r.charges }
    match d.ra.strikes.find? fun x => x.tile == t && x.tick % 2 ^ 40 == r.tick with
    | none => d.linkErr t
    | some x =>
      match x.failed t r with
      | none => d.strikeMatch x r (nth (d.tile t).rails 0 0) poison
      | some c => d.strikeMismatch x c (x.cutFails r)

/-- No matching record by the deadline (R299, R301). -/
def Dev.strikeMissing (d : Dev) (x : Strike) : Dev :=
  let d := d.bump (Reg.HEAD_t_MISS x.tile)
  let d := d.event 0x7107 (tickDetail x.tile x.tick)
  if x.cal then (d.calDiscard x.tile x.tick).dropStrike x
  else (d.trigger (.hold 0x09)).holdStrike x false

/-- The deadline of a strike passes: a record that comes in its very core cycle is in time (R310), so the cycle is over
when the strike counts as missing. -/
def Dev.strikeDue (d : Dev) (x : Strike) : Dev := ((d.reach (x.at_ + nsT x.expect)).strikeMissing x).after 1

/-- ACK_EXPECT_TIMEOUT (R299, R310): the deadline of tile t's oldest strike not yet judged passes. -/
def ackExpectTimeout (t : Nat) (d : Dev) : Dev :=
  match d.ra.strikes.find? fun x => x.tile == t && !x.held with
  | none => d
  | some x => if !d.up then d else d.strikeDue x

/-- The late window of a strike expires (R299, R608): what is still unconfirmed is withheld and flagged. -/
def Dev.strikeLost (d : Dev) (x : Strike) : Dev :=
  let d := x.passes.foldl (fun (d : Dev) p =>
    let e := p.entry
    let amount := x.pending p
    let picked := (List.range 2048).map fun i =>
      p.mine i && (x.cancel || !x.notStarted p i) && decide (0 < nth e.dose i 0 * nth e.shares i 0)
    let d := d.ldgStroke e.sseq cUNC (-(amount : Int))
    let d := d.ldgStroke e.sseq cWIT amount
    let d := d.flagBeams x.tile e.sseq e.line p.pass 2 picked
    let waits := d.ra.parts.any fun q =>
      q.tile == x.tile && q.pass == p.pass && q.sseq == e.sseq && q.line == e.line && q.notStarted.any (fun b => b) && x.cut.isSome
    d.updMap x.tile e.sseq e.line fun m => { m with lp := upd m.lp p.pass fun l => if waits then l else if l == .struck then .struck else .lost }) d
  (d.event 0x710A (tickDetail x.tile x.tick)).dropStrike x

/-- ACK_LATE_TIMEOUT (R299): the late window of tile t's oldest strike expires. -/
def ackLateTimeout (t : Nat) (d : Dev) : Dev :=
  match d.ra.strikes.find? fun x => x.tile == t && !x.cal with
  | none => d
  | some x =>
    if !d.up then d
    else
      let d := if x.held then d else d.strikeDue x
      (d.reach (x.at_ + nsT x.late)).strikeLost x

end Sys2Proof.Machine
end

