-- ==== Sys2Proof/Machine/State.lean ====
section
/-!
DEFINITION. The state of the block: the device and the queue of the commands that wait, its reset, and the reasons a step
can stop.
-/
namespace Sys2Proof.Machine

/-- Why the block stops with a fault. There is no such reason: every access and every command has an effect that the
manual states, if only that nothing changes (R12, R643), so no meaning raises a fault. -/
inductive Fault where
  deriving DecidableEq, Repr

/-- Why a command has no meaning. -/
inductive Refusal where
  /-- Raised by the dispatcher for a command that the model gives no meaning yet; no arm raises it now. Safe. -/
  | notModelled (mnemonic : String)
  deriving DecidableEq, Repr

/-- The block: the device, and the commands that wait, first in, first out. -/
structure State where
  dev : Dev
  pending : List Instr
  deriving DecidableEq, Repr

/-- The block right after its power is applied: the main partition is held in its power-on reset (R64), the safety and
metrology partitions are not powered yet, and no command waits. -/
def State.reset : State := { dev := {}, pending := [] }

end Sys2Proof.Machine
end

