-- ==== Sys2Proof/Machine/Exec.lean ====
section
/-!
DEFINITION. How a command's meaning acts: on everything but the queue of waiting commands.
-/
namespace Sys2Proof.Machine

/-- What a meaning answers. -/
abbrev Result := Host.Outcome State Fault Refusal

/-- A meaning's effect on the device; the queue stays as it is. -/
def State.run (s : State) (f : Dev → Dev) : Result := .next { s with dev := f s.dev }

end Sys2Proof.Machine
end

