-- ==== Sys2Proof/Machine/ExecAcks.lean ====
section
/-!
DEFINITION. The meanings of the commands of return-lane records (chapter 09).
-/
namespace Sys2Proof.Machine

/-- STRIKE_RECORD (R298): A STRIKE record from a tile is matched against the strike it names, and its line-passes are
resolved in the strike map and ledger. -/
def execStrikeRecord (t : Nat) (bs : List Byte) (poison : Bool) (dt : Nat) (s : State) : Result :=
  s.run (strikeRecord t bs poison dt)

/-- STATUS_RECORD (R296): A STATUS record with tile temperatures and rails is received. -/
def execStatusRecord (t : Nat) (bs : List Byte) (dt : Nat) (s : State) : Result :=
  s.run (statusRecord t bs dt)

/-- ACK_EXPECT_TIMEOUT (R299): No matching STRIKE record arrives by HEAD_ACK_EXPECT, so hold cause 0x09 is registered
and the line-passes stay unconfirmed. -/
def execAckExpectTimeout (t : Nat) (s : State) : Result :=
  s.run (ackExpectTimeout t)

/-- ACK_LATE_TIMEOUT (R299): HEAD_ACK_LATE expires without a match, so the DU move to DU_withheld and the pixels are
flagged. -/
def execAckLateTimeout (t : Nat) (s : State) : Result :=
  s.run (ackLateTimeout t)

end Sys2Proof.Machine
end

