-- ==== Sys2Proof/Machine/ExecCalibrate.lean ====
section
/-!
DEFINITION. The meanings of the commands of calibration (chapter 10).
-/
namespace Sys2Proof.Machine

/-- CAL_RUN (R330): A calibration run is requested for a tile mask with a fit and an application, and it is queued or
deferred by mode. -/
def execCalRun (dt : Nat) (s : State) : Result :=
  s.run (calRun dt)

/-- SELF_TEST (R332): A calibration self-test of the tile mask is requested. -/
def execSelfTest (dt : Nat) (s : State) : Result :=
  s.run (selfTest dt)

/-- TILE_UNPLUG (R308): A debounced tile unplug takes the link down and sets STATE to ABSENT. -/
def execTileUnplug (t dt : Nat) (s : State) : Result :=
  s.run (tileUnplug t dt)

/-- CAL_RUN_START (R323): A queued or deferred run or self-test begins in Calibrate or at a turnaround and copies the
bank in force into the incoming bank. -/
def execCalRunStart (dt : Nat) (s : State) : Result :=
  s.run (calRunStart dt)

/-- CALIBRATION_STRIKE (R322): While parked during a run, the device strikes one test beam per tile at the calibration
period. -/
def execCalibrationStrike (s : State) : Result :=
  s.run calibrationStrike

/-- CAL_RUN_END (R333): A run or self-test ends: measurements are fitted into the incoming bank and the result map and
registers are updated. -/
def execCalRunEnd (dt : Nat) (s : State) : Result :=
  s.run (calRunEnd dt)

/-- CAL_BANK_INTO_FORCE (R334): At stroke tick 0 of the selected stroke, the incoming calibration bank comes into
force and the epoch increments. -/
def execCalBankIntoForce (dt : Nat) (s : State) : Result :=
  s.run (calBankIntoForce dt)

end Sys2Proof.Machine
end

