-- ==== Sys2Proof/Machine/HeatCmds.lean ====
section
/-!
DEFINITION. The heat memory's commands (chapter 07): the age sweep, seam messages and their
deadline, parameter changes and factor-table commits.
-/
namespace Sys2Proof.Machine

/-- Whether heat parameters may come into force at the present edge (R253). -/
def Dev.heatFree (d : Dev) : Bool :=
  match d.top.mode with
  | .dormant => true
  | .configure => true
  | .calibrate => true
  | _ => d.ra.cur.isNone

/-- HEAT_PARAM_APPLY (R253): at a tick edge the pending writes of the decay tables, HEAT_RISE, HEAT_CARRY and a
factor-table commit apply together, before the edge's other changes of heat (R256). TICK_EDGE applies what was written
before it; this applies what was written in the very cc of the edge. -/
def heatParamApply (dt : Nat) (d : Dev) : Dev :=
  let d := d.after dt
  if d.up ∧ d.onEdge ∧ d.heatFree ∧ d.heatTurn 0 then d.applyHeat else d

/-- FTAB_COMMIT (R244): HEAT_FTAB_CTL is written with COMMIT = 1. -/
def ftabCommit (bank dt : Nat) (d : Dev) : Dev :=
  let d := d.after dt
  if d.hostOk ∧ bank < 2 then d.ftabCommit bank else d

/-- Whether the age sweep runs (R236). -/
def Dev.sweepOn (d : Dev) : Bool :=
  match d.top.mode with
  | .dormant => false
  | .configure => !d.hostWr
  | .hold => !d.hostWr
  | _ => true

/-- Bring a segment of either plane to a time as its access would (R235): by the fast table in the layer in progress,
by both in a closed layer, by the slow table where it is older. -/
def Dev.bringAny (d : Dev) (s : HSeg) (now : Nat) : HSeg :=
  let layer := (s.ltag + 2 ^ 24 - 1) % 2 ^ 24
  match d.heat.closes.find? fun c => c.1 % 2 ^ 24 == layer with
  | some (_, t) => if s.ltag = 0 then d.bringWarm s now else d.bringPrev s t now
  | none => if s.ltag = 0 then d.bringWarm s now else d.bringCur s now

/-- AGE_SWEEP_VISIT (R236, R256): the age sweep visits its next segment of the planes in force and brings it to now. -/
def ageSweepVisit (dt : Nat) (d : Dev) : Dev :=
  let d := d.after dt
  let total := 2 * d.heat.rows * 16
  if !d.up ∨ !d.sweepOn ∨ total = 0 ∨ d.hbmWaits then d
  else
    let i := d.heat.sweepAt % total
    let x := i / (d.heat.rows * 16)
    let row := i % (d.heat.rows * 16) / 16
    let band := i % 16
    let now := heatTime d.ns
    let (g, d) := d.readSeg rqSweep x row band
    let d := { d with heat := { d.heat with sweepAt := (i + 1) % total, visits := insKey i now (d.heat.visits.filter (·.1 != i)) } }
    if !g.fresh ∧ gap g.tSeg now = 0 then d else d.writeSeg rqSweep x row band (d.bringAny g now)

/-- The heat time of this device's strike of stroke tick e, where that stroke is in progress. -/
def Dev.strikeHeat (d : Dev) (e : Nat) : Option Nat := (d.heat.strikeAt.find? (·.1 == e)).map (·.2.1)

/-- The device ID of the eastern or western neighbour (R250, R503). -/
def Dev.neighbour (d : Dev) (east : Bool) : Nat := d.id / 64 * 64 + (d.id + (if east then 1 else 63)) % 64

/-- A seam frame as a message (R250, R502): stroke tick, stroke, layer and states. -/
def seamOf (k : KIn) (east : Bool) : SeamMsg :=
  let a := k.frame.arg
  { east, layer := bits a 63 40, stroke := bits a 39 32, tick := a % 2 ^ 32
    states := (List.range 16).map fun j => fieldLE k.frame.payload (2 * j + 1) (2 * j) }

/-- Whether a seam message belongs to a row of the stroke in progress and came in time (R251). -/
def Dev.seamValid (d : Dev) (s : Stroke) (k : KIn) (m : SeamMsg) : Bool :=
  m.layer == s.layer % 2 ^ 24 && m.stroke == s.stroke && decide (10 ≤ m.tick) && (m.tick - 10) % 8 == 0 &&
    decide ((m.tick - 10) / 8 < (s.n + 7) / 8) && (d.strikeHeat m.tick).isSome && !k.frame.poison &&
    (match k.sTick with | some x => decide (x < m.tick + 8) | none => true)

/-- SEAM_MESSAGE (R251, R252, R256): at a tick edge the oldest seam message delivered by the fabric is applied, or
discarded. Its source says which neighbour sent it. -/
def seamMessage (dt : Nat) (d : Dev) : Dev :=
  if !(d.after dt).onEdge then d.after dt
  else
  match (d.after dt).takeIn 0x10 with
  | none => d.after dt
  | some (k, d) =>
    let east := k.frame.src == d.neighbour true
    let m := seamOf k east
    match d.ra.cur.bind d.stroke? with
    | none => d
    | some s =>
      let on := if east then d.heat.xchgE && s.blendE else d.heat.xchgW && s.blendW
      match d.hstroke? s.sseq, d.strikeHeat m.tick with
      | some hs, some tx =>
        if !d.up ∨ !on ∨ k.frame.src ≠ d.neighbour east ∨ !d.seamValid s k m then d
        else
          let row := (m.tick - 10) / 8
          let d := { d with heat := { d.heat with seamGot := (east, row) :: d.heat.seamGot } }
          if d.hostWr then d else (d.seamReplace hs row tx east m.states).heatActed 3
      | _, _ => d

/-- SEAM_MESSAGE_DEADLINE (R251): at the edge of stroke tick e + 8, a row of stroke tick e without a valid message is
counted, with event 0x5E03 once per stroke and side. -/
def seamMessageDeadline (east : Bool) (dt : Nat) (d : Dev) : Dev :=
  let d := d.after dt
  match d.ra.cur.bind d.stroke?, d.ra.sTick with
  | some s, some t =>
    let on := if east then d.heat.xchgE && s.blendE else d.heat.xchgW && s.blendW
    if !d.up ∨ !d.onEdge ∨ !on ∨ t < 18 ∨ (t - 18) % 8 ≠ 0 then d
    else
      let row := (t - 18) / 8
      if (s.n + 7) / 8 ≤ row ∨ d.heat.seamGot.contains (east, row) ∨
          d.kin.any (fun k => k.frame.ptype == 0x10 && k.frame.src == d.neighbour east && (k.frame.arg % 2 ^ 32 == t - 8) && d.seamValid s k (seamOf k east)) then d
      else
        let d := d.bump Reg.HEAT_SEAM_MISS
        let d := { d with heat := { d.heat with seamGot := (east, row) :: d.heat.seamGot } }
        let i := b2n east
        if nth d.heat.seamMissed i false then d
        else
          let d := { d with heat := { d.heat with seamMissed := put 2 false d.heat.seamMissed i fun _ => true } }
          d.event 0x5E03 (toLE 1 i ++ toLE 1 s.stroke ++ toLE 4 row)
  | _, _ => d

end Sys2Proof.Machine
end

