-- ==== Sys2Proof/Machine/Camera.lean ====
section
/-!
DEFINITION. Camera ports and thermal pipelines (chapter 08): frames, the pipeline stages, parameter sets, stops, export.
-/
namespace Sys2Proof.Machine

/-- A pipeline. -/
def Dev.cam (d : Dev) (c : Nat) : Camera := nth d.cams c {}

/-- Change a pipeline. -/
def Dev.setCam (d : Dev) (c : Nat) (f : Camera → Camera) : Dev := { d with cams := put 4 {} d.cams c f }

/-- The port a CAM_c_CFG word selects (R261, R280). -/
def camPortOf (c cfg : Nat) : Nat := let s := bits cfg 10 8; if 4 ≤ s then s - 4 else c

/-- The port a pipeline selects, as CAM_c_CFG is in force (R261, R279, R280). -/
def Dev.camPort (d : Dev) (c : Nat) : Nat := camPortOf c (d.cam c).inCfg

/-- Whether frames run through stages 1 to 7 for their counts alone and their maps are discarded (R62, R277). -/
def Dev.camCounts (d : Dev) : Bool := d.top.mode == .configure || d.top.mode == .calibrate

/-- Whether a pipeline takes frames in: enabled and not stopped (R274). -/
def Dev.camRuns (d : Dev) (c : Nat) : Bool := d.flag (Reg.CAM_c_CTL c) Fd.CAM_c_CTL_EN && (d.cam c).stop == 0

/-- The virtual channel of exposure e (R262). -/
def vcOf (vcs e : Nat) : Nat := bits vcs (4 * e + 3) (4 * e)

/-! ### Stages 2 to 7 (R265 to R268) -/

/-- interp() of R265. -/
def camInterp (v : Nat) (tab : List Nat) : Nat :=
  let i := v >>> 4
  if i = 4095 then nth tab 4095 0
  else
    let a : Int := (nth tab i 0 : Nat)
    let b : Int := (nth tab (i + 1) 0 : Nat)
    ((a + asr ((b - a) * ((v % 16 : Nat) : Int) + 8) 4) % 65536).toNat

/-- Stages 2 to 4 of one pixel (R265): its rise, none where every exposure is saturated or excluded. -/
def camPixel (s : CamSet) (bits_ : Nat) (raws : List Nat) : Option Nat :=
  let parts := (List.range s.nexp).map fun e =>
    let v := nth raws e 0 % 2 ^ bits_ * 2 ^ (16 - bits_)
    let w := nth s.wt e 0
    if nth s.satAt e 0 ≤ v ∨ w = 0 then (0, 0)
    else (w * min 65535 ((camInterp v (nth s.lin e []) * nth s.ke e 0 + 2048) >>> 12), w)
  let num := sumN (parts.map (·.1))
  let den := sumN (parts.map (·.2))
  if den = 0 then none
  else
    let temp := camInterp ((num + den / 2) / den) s.rad
    some (clampI 0 65535 (4 * ((temp : Int) - s.bedRef))).toNat

/-- The nearest neighbour of a dead pixel on one side, within 4 pixels, neither dead nor invalid (R266). -/
def deadSide (row : List (Option Nat)) (dead : List Nat) (x : Nat) (left : Bool) : Option Nat :=
  (List.range 4).findSome? fun i =>
    if left && decide (x < i + 1) then none
    else
      let p := if left then x - (i + 1) else x + (i + 1)
      if dead.contains p then none else nth row p none

/-- Stage 5 of one line (R266). -/
def fixDead (row : List (Option Nat)) (dead : List Nat) : List (Option Nat) :=
  dead.foldl (fun out x =>
    let v := match deadSide row dead x true, deadSide row dead x false with
      | some a, some b => some ((a + b + 1) / 2)
      | some a, none => some a
      | none, some b => some b
      | none, none => none
    upd out x fun _ => v) row

/-- warp() of R267. -/
def camWarp (n00 n10 n01 n11 fx fy gx gy : Int) : Int :=
  let top := n00 * (gx - fx) + n10 * fx
  let bot := n01 * (gx - fx) + n11 * fx
  let den := gx * gy
  Int.fdiv (top * (gy - fy) + bot * fy + Int.fdiv den 2) den

/-- The stripe position of a sensor pixel, line and pixel in 1/16 (R267). -/
def CamFrame.place (f : CamFrame) (x y : Nat) : Int × Int :=
  let gx := (f.width + 31) / 32
  let gy := (f.height + 31) / 32
  let i := x / gx
  let j := y / gy
  let nd := fun (a b : Nat) => nth f.set.grid (33 * b + a) (0, 0)
  let w := fun (g : Int × Int → Int) =>
    camWarp (g (nd i j)) (g (nd (i + 1) j)) (g (nd i (j + 1))) (g (nd (i + 1) (j + 1))) (x % gx : Nat) (y % gy : Nat) gx gy
  (f.pos16 + w (·.1), w (·.2))

/-- What binning gathers: cells (row, column) with sum and count, and the pixels counted in CAM_c_SATPIX. -/
structure Bins where
  cells : List ((Nat × Nat) × (Nat × Nat)) := []
  lost : Nat := 0
  past : Bool := false
  deriving DecidableEq, Repr

/-- Add one pixel to its cell. -/
def addCell (k : Nat × Nat) (m : Nat) : List ((Nat × Nat) × (Nat × Nat)) → List ((Nat × Nat) × (Nat × Nat))
  | [] => [(k, (m, 1))]
  | (k', (s, n)) :: r =>
    if k' = k then (k, (s + m, n + 1)) :: r
    else if k.1 < k'.1 ∨ (k.1 = k'.1 ∧ k.2 < k'.2) then (k, (m, 1)) :: (k', (s, n)) :: r
    else (k', (s, n)) :: addCell k m r

/-- Stages 2 to 7 of a closed frame whose exposures each hold HEIGHT lines (R265 to R268). -/
def CamFrame.bin (f : CamFrame) : Bins :=
  (List.range f.height).foldl (fun (b : Bins) y =>
    let raw := f.exps.map fun e => nth e.lines y []
    let row := (List.range f.width).map fun x => camPixel f.set f.bits (raw.map fun l => nth l x 0)
    let bad := (row.filter (·.isNone)).length
    let row := fixDead row ((f.set.dead.filter fun p => p.1 == y && decide (p.2 < f.width)).map (·.2))
    let b := { b with lost := b.lost + bad }
    (row.zipIdx).foldl (fun (b : Bins) p =>
      match p.1 with
      | none => b
      | some m =>
        let (l16, vx) := f.place p.2 y
        if l16 < 0 ∨ 16 * (f.n : Int) ≤ l16 ∨ vx < 0 ∨ 524288 ≤ vx then b
        else
          let r := l16.toNat / 128
          if f.rb + 64 ≤ (r : Int) then { b with lost := b.lost + 1, past := true }
          else { b with cells := addCell (r, vx.toNat / 128) m b.cells }) b) {}

/-- The covered cells of a frame (R268). -/
def binCells (b : Bins) (mincnt : Nat) : List (Nat × Nat × Nat) :=
  (b.cells.filter fun c => decide (max 1 mincnt ≤ c.2.2)).map fun c => (c.1.1, c.1.2, (c.2.1 + c.2.2 / 2) / c.2.2)

/-! ### Closing a frame (R262, R268, R271, R272) -/

/-- A line of values the spec leaves open: what stands for a line of which no line before it was received (R272). Its
number is four times that of the frame's draw, plus the exposure. -/
def openLine (draw w b : Nat) : List Nat := (List.range w).map fun i => (Config.openPixel draw i).toNat % 2 ^ b

/-- An exposure padded to HEIGHT lines with its last line (R272). -/
def padExpo (draw : Nat) (f : CamFrame) (e : CamExpo) : CamExpo :=
  let fill := e.lines.getLast?.getD (openLine draw f.width f.bits)
  { e with lines := e.lines ++ List.replicate (f.height - e.lines.length) fill }

/-- The counters that the close of a frame changes, as they stand. -/
def Dev.camCounters (d : Dev) (c : Nat) : List (Nat × Nat) :=
  [Reg.CAM_c_FRAMES c, Reg.CAM_c_DEGRADED c, Reg.CAM_c_LONG c, Reg.CAM_c_SATPIX c].map fun o => (o, d.rd o)

/-- Take back what the close of a frame in the present core cycle counted: a stop in the same cycle prevails and the frame
is discarded (R276). A counter that was read since stays cleared. -/
def Dev.camUnclose (d : Dev) (c : Nat) : Dev :=
  match (d.cam c).closing with
  | none => d
  | some k => if k.up = d.clk.up then k.counts.foldl (fun (d : Dev) p => d.wr p.1 (min p.2 (d.rd p.1))) d else d

/-- Close the open frame of pipeline c: its map waits to be complete (R268, R272, R277). -/
def Dev.camClose (d : Dev) (c : Nat) : Dev :=
  match (d.cam c).frame with
  | none => d
  | some f =>
    let (k, d) := d.draw
    let f := { f with exps := f.exps.zipIdx.map fun (e : CamExpo × Nat) => padExpo (4 * k + e.2) f e.1 }
    let b := f.bin
    let cal := d.camCounts || !d.camRuns c
    let m : HMap :=
      { cam := c, frame := f.num, tf := ofS 64 f.tf, layer := f.layer, stroke := f.stroke, sseq := f.sseq, row0 := f.rb
        cells := binCells b f.set.mincnt, zeroW := f.degraded, degraded := f.degraded, long := f.long || b.past
        export_ := !cal && d.flag (Reg.CAM_c_CTL c) Fd.CAM_c_CTL_EXPORT, counted := cal }
    let old : Closing := match (d.cam c).closing with
      | some k => if k.up = d.clk.up then k else ⟨d.clk.up, d.camCounters c⟩
      | none => ⟨d.clk.up, d.camCounters c⟩
    let d := d.bump (Reg.CAM_c_FRAMES c)
    let d := if f.degraded then d.bump (Reg.CAM_c_DEGRADED c) else d
    let d := if f.long then d.bump (Reg.CAM_c_LONG c) else d
    let d := d.bumpBy (Reg.CAM_c_SATPIX c) b.lost
    d.setCam c fun x => { x with frame := none, closing := some old, waiting := x.waiting ++ [m] }

/-- Change the open frame. -/
def Dev.setFrame (d : Dev) (c : Nat) (f : CamFrame → CamFrame) : Dev := d.setCam c fun x => { x with frame := x.frame.map f }

/-- MAP_COMPLETE (R268): the oldest closed frame's map of pipeline c is complete and passes to assimilation. -/
def mapComplete (c dt : Nat) (d : Dev) : Dev :=
  let d := d.after dt
  match (d.cam c).waiting with
  | [] => d
  | m :: r =>
    if !d.up ∨ 4 ≤ c then d
    else
      let d := d.setCam c fun x => { x with waiting := r }
      { d with heat := { d.heat with maps := d.heat.maps ++ [{ m with doneTick := d.top.tick }] } }

/-! ### Frame Start and Frame End (R262 to R264, R271, R272) -/

/-- Activate the staged set at the Frame Start of frame F (R270, R271). -/
def Dev.camActivate (d : Dev) (c num : Nat) : Dev :=
  match (d.cam c).staged with
  | none => d
  | some s =>
    let late := (num + 2 ^ 32 - s.tag) % 2 ^ 32
    if 2 ^ 31 ≤ late then d
    else
      let d := (d.setCam c fun x => { x with active := some s, staged := none, queue := x.queue.drop 1 }).wr (Reg.CAM_c_ACT_TAG c) s.tag
      if late = 0 then d else d.event 0x6A06 (toLE 1 c ++ toLE 3 0 ++ toLE 4 s.tag ++ toLE 4 late)

/-- The smallest cell row among the grid's nodes (R268). -/
def rowBase (pos16 : Int) (grid : List (Int × Int)) : Int :=
  match grid with
  | [] => 0
  | g :: r => r.foldl (fun m n => min m (asr (pos16 + n.1) 7)) (asr (pos16 + g.1) 7)

/-- The stroke in progress at an instant (R264), and where none was, the one that came into progress next, or will. -/
def Dev.runAt (d : Dev) (t : Int) : Option StrokeRun × Option StrokeRun :=
  let at_ := d.ra.runs.find? fun r => decide ((r.since : Int) ≤ t) && match r.upto with | none => true | some e => decide (t < e)
  let next : Option StrokeRun := match (d.ra.runs.filter fun r => decide (t < (r.since : Int))).getLast? with
    | some r => some r
    | none => d.motionStroke.map fun s => { sseq := s.sseq, layer := s.layer, stroke := s.stroke, n := s.n, y0 := s.y0, since := 0 }
  (at_, at_.orElse fun _ => next)

/-- pos16 of t_f (R267, R349, R352): the position uses the origin of the stroke the frame belongs to; 0 where no pair of
records is usable. -/
def Dev.camPos (d : Dev) (t : Int) (st : Option StrokeRun) : Int :=
  let y0 := match d.motionStroke with | some s => s.y0 | none => 0
  let was := match st with | some r => r.y0 | none => 0
  match d.posAt d.ns t with
  | none => 0
  | some y => asr (y + 65536 * (asr y0 6 - asr was 6) + 2048) 12

/-- Open a frame of pipeline c at the Frame Start of exposure 0 (R263, R264, R267, R268, R271). A map has one source
and one frame (R273). -/
def Dev.camOpen (d : Dev) (c port num : Nat) (s : CamSet) : Dev :=
  let cfg := (d.cam c).inCfg
  let size := (d.cam c).inSize
  let mount := bit cfg 3
  let tf : Int := (d.ns : Int) - (s.tofs : Int)
  let (st, cur) := d.runAt tf
  let pos16 : Int := if mount then 0 else d.camPos tf cur
  let behind := match (d.cam c).queue with
    | (_, tag) :: _ => decide ((num + 2 ^ 32 - tag) % 2 ^ 32 < 2 ^ 31)
    | [] => false
  let exps : List CamExpo := { begun := true } :: List.replicate (s.nexp - 1) {}
  let f : CamFrame :=
    { port, num, vcs := (d.cam c).inVc, bits := 10 + 2 * bits cfg 5 4, mount, width := bits size 12 0, height := bits size 28 16
      set := s, tf, layer := match cur with | some s => s.layer | none => 0, stroke := match cur with | some s => s.stroke | none => 0
      sseq := st.map (·.sseq), n := match st with | some s => s.n | none => 0, pos16, rb := rowBase pos16 s.grid, exps, degraded := behind }
  d.setCam c fun x => { x with frame := some f }

/-- Log a short exposure (R272, R278). -/
def Dev.camShort (d : Dev) (c e : Nat) (f : CamFrame) : Dev :=
  d.event 0x6A02 (toLE 1 c ++ toLE 1 e ++ toLE 2 (nth f.exps e {}).lines.length ++ toLE 4 f.num)

/-- Discard the data of a source up to its next Frame End. -/
def Dev.camSkip (d : Dev) (c port vc : Nat) : Dev := d.setCam c fun x => { x with skips := (port, vc) :: x.skips }

/-- The exposure of the open frame that a source carries. -/
def CamFrame.expOf (f : CamFrame) (port vc : Nat) : Option Nat :=
  if f.port = port then firstIdx f.set.nexp fun e => vcOf f.vcs e == vc else none

/-- Log a frame with lines beyond HEIGHT (R272). -/
def Dev.camLong (d : Dev) (c e : Nat) (f : CamFrame) : Dev :=
  let y := nth f.exps e {}
  if 0 < y.extra then d.event 0x6A03 (toLE 1 c ++ toLE 1 e ++ toLE 2 y.extra ++ toLE 4 f.num) else d

/-- The frame of an accepted Frame Start of exposure 0 begins (R263, R271, R277, R279): the registers take effect, the
pipeline is in step again, and the frame runs, or is discarded. -/
def Dev.camBegin (d : Dev) (c port num : Nat) : Dev :=
  let cfg := d.rd (Reg.CAM_c_CFG c)
  let size := d.rd (Reg.CAM_c_SIZE c)
  let vcs := d.rd (Reg.CAM_c_VC c)
  let d := d.setCam c fun x =>
    { x with count := (num + 1) % 2 ^ 32, startAt := some (d.clk.up, port), inCfg := cfg, inSize := size, inVc := vcs
             skips := x.skips.filter fun p => p.1 != port }
  let d := d.camActivate c num
  match (d.cam c).active with
  | none => (d.bump (Reg.CAM_c_DISCARD c)).camSkip c port (vcOf vcs 0)
  | some s => if d.camRuns c || d.camCounts then d.camOpen c port num s else d.camSkip c port (vcOf vcs 0)

/-- The Frame Start of exposure 0 of a second source loses: its frame is discarded whole (R272). -/
def Dev.camSecond (d : Dev) (c held port vc num : Nat) : Dev :=
  ((d.bump (Reg.CAM_c_DISCARD c)).event 0x6A01 (toLE 1 c ++ toLE 1 held ++ toLE 1 port ++ toLE 1 vc ++ toLE 4 num)).camSkip c port vc

/-- The Frame Start accepted in the present core cycle loses to one on a lower port: what it opened is discarded whole
(R272). -/
def Dev.camYield (d : Dev) (c held port vc num : Nat) : Dev :=
  let d := (d.bump (Reg.CAM_c_DISCARD c)).event 0x6A01 (toLE 1 c ++ toLE 1 held ++ toLE 1 port ++ toLE 1 vc ++ toLE 4 num)
  let src := match (d.cam c).frame with
    | some f => ((f.exps.zipIdx).filter fun y => y.1.begun && !y.1.ended).map fun y => (f.port, vcOf f.vcs y.2)
    | none => []
  (d.setCam c fun x => { x with frame := none, skips := src ++ x.skips }).camBegin c port num

/-- A Frame Start as pipeline c sees it (R263, R272). The source of exposure 0 is the one CAM_c_CFG and CAM_c_VC name as
written, for they take effect at its Frame Start (R279). -/
def Dev.camStart (d : Dev) (c port vc : Nat) : Dev :=
  let x := d.cam c
  let first := camPortOf c (d.rd (Reg.CAM_c_CFG c)) == port && vcOf (d.rd (Reg.CAM_c_VC c)) 0 == vc
  let d := if first then d.setCam c fun x => { x with fsAt := d.clk.up } else d
  -- a Frame Start of another port accepted in this core cycle, and its frame number
  let tie : Bool := match x.startAt with
    | some (up, p) => first && up == d.clk.up && p != port
    | none => false
  let held := match x.startAt with | some (_, p) => p | none => 0
  let prev := (x.count + 2 ^ 32 - 1) % 2 ^ 32
  match x.frame with
  | some f =>
    match f.expOf port vc with
    | some e =>
      let d := if e = 0 then d.setCam c fun x => { x with fsAt := d.clk.up } else d
      if (nth f.exps e {}).begun then
        let d := d.camShort c e f
        let d := (f.exps.zipIdx).foldl (fun (d : Dev) y => if y.1.ended then d else d.camLong c y.2 f) d
        let d := (d.setFrame c fun f =>
          { f with degraded := true, long := f.long || f.exps.any fun y => decide (0 < y.extra) }).camClose c
        let d := d.event 0x6A01 (toLE 1 c ++ toLE 1 port ++ toLE 1 port ++ toLE 1 vc ++ toLE 4 f.num)
        let d := d.camSkip c port vc
        -- exposures of the closed frame whose Frame End has not come end nothing
        (f.exps.zipIdx).foldl (fun (d : Dev) y =>
          if y.1.begun && !y.1.ended && y.2 != e then d.camSkip c port (vcOf f.vcs y.2) else d) d
      else d.setFrame c fun f => { f with exps := upd f.exps e fun y => { y with begun := true } }
    | none =>
      if tie ∧ port < held then d.camYield c held port vc prev
      else if first then d.camSecond c f.port port vc f.num
      else d
  | none =>
    if tie then (if port < held then d.camYield c held port vc prev else d.camSecond c held port vc prev)
    else if first then d.camBegin c port x.count
    else if d.camPort c = port ∧ (List.range 4).any (fun e => vcOf x.inVc e == vc) then d.camSkip c port vc
    else d

/-- FRAME_START (R263): a Frame Start short packet arrives on a virtual channel of a port. -/
def frameStart (port vc dt : Nat) (d : Dev) : Dev :=
  let d := d.after dt
  if !d.up ∨ d.top.mode = .dormant ∨ 4 ≤ port ∨ 16 ≤ vc then d
  else (List.range 4).foldl (fun (d : Dev) c => d.camStart c port vc) d

/-- A Frame End as pipeline c sees it (R262, R272). -/
def Dev.camEnd (d : Dev) (c port vc : Nat) : Dev :=
  let x := d.cam c
  if x.skips.contains (port, vc) then d.setCam c fun x => { x with skips := x.skips.erase (port, vc) }
  else
    match x.frame with
    | none => if d.camPort c = port then d.bump (Reg.CAM_c_PKT_ERR c) else d
    | some f =>
      match f.expOf port vc with
      | none => d
      | some e =>
        let y := nth f.exps e {}
        if !y.begun ∨ y.ended then d.bump (Reg.CAM_c_PKT_ERR c)
        else
          let short := decide (y.lines.length < f.height)
          let d := if short then d.camShort c e f else d
          let d := d.camLong c e f
          let d := d.setFrame c fun f =>
            { f with exps := upd f.exps e fun y => { y with ended := true }, degraded := f.degraded || short, long := f.long || decide (0 < y.extra) }
          if (f.exps.zipIdx).all fun z => z.1.ended || z.2 == e then d.camClose c else d

/-- FRAME_END (R262): a Frame End short packet arrives. -/
def frameEnd (port vc dt : Nat) (d : Dev) : Dev :=
  let d := d.after dt
  if !d.up ∨ d.top.mode = .dormant ∨ 4 ≤ port ∨ 16 ≤ vc then d
  else (List.range 4).foldl (fun (d : Dev) c => d.camEnd c port vc) d

/-- A Line Start or Line End as pipeline c sees it: checked for pairing only (R260). -/
def Dev.camPair (d : Dev) (c port vc : Nat) (start : Bool) : Dev :=
  match (d.cam c).frame with
  | none => d
  | some f =>
    match f.expOf port vc with
    | none => d
    | some e =>
      let bad := (nth f.exps e {}).lineOpen == start
      let d := if bad then d.bump (Reg.CAM_c_PKT_ERR c) else d
      d.setFrame c fun f => { f with exps := upd f.exps e fun y => { y with lineOpen := start } }

/-- LINE_START (R260). -/
def lineStart (port vc dt : Nat) (d : Dev) : Dev :=
  let d := d.after dt
  if !d.up ∨ d.top.mode = .dormant ∨ 4 ≤ port ∨ 16 ≤ vc then d
  else (List.range 4).foldl (fun (d : Dev) c => d.camPair c port vc true) d

/-- LINE_END (R260). -/
def lineEnd (port vc dt : Nat) (d : Dev) : Dev :=
  let d := d.after dt
  if !d.up ∨ d.top.mode = .dormant ∨ 4 ≤ port ∨ 16 ≤ vc then d
  else (List.range 4).foldl (fun (d : Dev) c => d.camPair c port vc false) d

/-! ### Long packets (R260, R272) -/

/-- A line of an exposure of pipeline c (R262, R272). -/
def Dev.camLine (d : Dev) (c e : Nat) (f : CamFrame) (p : CsiPacket) : Dev :=
  let y := nth f.exps e {}
  if y.ended then d.bump (Reg.CAM_c_PKT_ERR c)
  else if f.height ≤ y.lines.length then d.setFrame c fun f => { f with exps := upd f.exps e fun y => { y with extra := y.extra + 1 } }
  else
    let l0 := (nth f.exps 0 {}).lines.length
    let why := if p.wc ≠ f.width * f.bits / 8 then some 0
      else if !p.crcOk then some 1
      else if y.lines.length + 65 < l0 then some 2 else none
    match why with
    | none => d.setFrame c fun f => { f with exps := upd f.exps e fun y => { y with lines := y.lines ++ [padTo' f.width p.pixels] } }
    | some w =>
      let (k, d) := d.draw
      let d := if f.lineErr then d
        else d.event 0x6A04 (toLE 1 c ++ toLE 1 w ++ toLE 2 y.lines.length ++ toLE 4 f.num)
      d.setFrame c fun f =>
        { f with degraded := true, lineErr := true
                 exps := upd f.exps e fun y => { y with lines := y.lines ++ [y.lines.getLast?.getD (openLine (4 * k) f.width f.bits)] } }
where
  /-- A pixel list cut or padded to a width. -/
  padTo' (w : Nat) (l : List Nat) : List Nat := (l ++ List.replicate w 0).take w

/-- A long packet as pipeline c sees it (R260). -/
def Dev.camPacket (d : Dev) (c port : Nat) (p : CsiPacket) : Dev :=
  let mine := match (d.cam c).frame with | some f => f.port == port | none => d.camPort c == port
  if !mine then d
  else if !p.hdrOk ∨ !([0x12, 0x2B, 0x2C, 0x2D, 0x2E].contains p.dtype) then d.bump (Reg.CAM_c_PKT_ERR c)
  else if (d.cam c).skips.contains (port, p.vc) then d
  else
    match (d.cam c).frame with
    | none => d
    | some f =>
      match f.expOf port p.vc with
      | none => d
      | some e =>
        if p.dtype = 0x12 then
          if 2 ≤ f.emb ∨ !p.crcOk then d.bump (Reg.CAM_c_PKT_ERR c) else d.setFrame c fun f => { f with emb := f.emb + 1 }
        else if !(nth f.exps e {}).begun ∨ 10 + 2 * (p.dtype - 0x2B) ≠ f.bits then d.bump (Reg.CAM_c_PKT_ERR c)
        else d.camLine c e f p

/-- CSI_LONG_PACKET (R260, R265): a long packet arrives on a port. -/
def csiLongPacket (port : Nat) (p : CsiPacket) (dt : Nat) (d : Dev) : Dev :=
  let d := d.after dt
  if !d.up ∨ d.top.mode = .dormant ∨ 4 ≤ port then d
  else (List.range 4).foldl (fun (d : Dev) c => d.camPacket c port p) d

/-! ### Parameter sets (R269, R270) -/

/-- A write of CAM_c_PQ_TAG (R270). -/
def Dev.pqPush (d : Dev) (c v : Nat) : Dev :=
  let x := d.cam c
  let hi := d.rd (Reg.CAM_c_PQ_HI c)
  let tag := if bit hi 31 then (x.count + bits x.inCfg 2 0) % 2 ^ 32 else v
  let later := match x.lastTag with
    | none => true
    | some l => let g := (tag + 2 ^ 32 - l) % 2 ^ 32; g != 0 && decide (g < 2 ^ 31)
  let refuse := fun (why : Nat) => (d.setCam c fun x => { x with rej := true }).event 0x6A07 (toLE 1 c ++ toLE 1 why ++ toLE 2 0 ++ toLE 4 tag)
  if 8 ≤ x.queue.length then refuse 0
  else if !later then refuse 1
  else
    let addr := bits (d.rd (Reg.CAM_c_PQ_LO c)) 31 6 * 64 + bits hi 2 0 * 2 ^ 32
    (d.setCam c fun x => { x with queue := x.queue ++ [(addr, tag)], lastTag := some tag, rej := false }).wr (Reg.CAM_c_PQ_TAG c) tag

/-- PQ_PUSH (R270): CAM_c_PQ_TAG is written. -/
def pqPush (c v dt : Nat) (d : Dev) : Dev :=
  let d := d.after dt
  if d.hostOk ∧ c < 4 then d.pqPush c (v % 2 ^ 32) else d

/-- 16-bit values of a byte list. -/
def u16s : List Byte → List Nat
  | a :: b :: r => (a.toNat + 256 * b.toNat) :: u16s r
  | _ => []

/-- The requester of a camera pipeline (R447, R452). -/
def rqCam (c : Nat) : Rq := ⟨17, 1 + c, 2⟩

/-- Word i of a parameter set record. -/
def setWord (b : List Byte) (i : Nat) : Nat := fieldLE b (8 * i + 7) (8 * i)

/-- Whether a parameter set record has a reserved bit set or names too many dead pixels (R269). -/
def setBad (b : List Byte) : Bool :=
  let w := setWord b
  bits (w 0) 47 42 != 0 || bits (w 0) 39 35 != 0 || bits (w 4) 63 32 != 0 || w 5 != 0 || w 6 != 0 || w 7 != 0 ||
    decide (4096 < bits (w 0) 63 48)

/-- A parameter set from its record, its tables, its grid and its dead pixels (R265 to R269). -/
def setOf (tag : Nat) (b t g l : List Byte) : CamSet :=
  let w := setWord b
  let f4 := fun (v n : Nat) => (List.range 4).map fun e => (v >>> (n * e)) % 2 ^ n
  let tables := (List.range 5).map fun e => u16s ((t.drop (0x2000 * e)).take 0x2000)
  { tag, nexp := 1 + bits (w 0) 41 40, ke := f4 (w 1) 16, satAt := f4 (w 2) 16, wt := f4 (bits (w 3) 31 0) 8
    tofs := bits (w 3) 63 32, mincnt := bits (w 4) 31 16, bedRef := bits (w 4) 15 0
    lin := tables.take 4, rad := nth tables 4 []
    grid := (List.range 1089).map fun i =>
      let v := setWord g i
      (toS 32 (v >>> 32), toS 32 v)
    dead := (List.range (bits (w 0) 63 48)).map fun i => let v := fieldLE l (4 * i + 3) (4 * i); (v >>> 16, v % 65536) }

/-- Read a parameter set and its tables: none where the record is bad or input is poisoned (R269). -/
def Dev.readSet (d : Dev) (c addr tag : Nat) : Option CamSet × Dev :=
  let x := d.hbmRead (rqCam c) addr 64
  if x.1.2 || setBad x.1.1 then (none, x.2)
  else
    let tab := bits (setWord x.1.1 0) 34 0
    let t := x.2.hbmRead (rqCam c) tab 0xA000
    let g := t.2.hbmRead (rqCam c) (tab + 0xA000) 8712
    let l := g.2.hbmRead (rqCam c) (tab + 0xD000) (4 * bits (setWord x.1.1 0) 63 48)
    if t.1.2 || g.1.2 || l.1.2 then (none, l.2) else (some (setOf tag x.1.1 t.1.1 g.1.1 l.1.1), l.2)

/-- PARAM_STAGING (R269, R270): the head entry of pipeline c's queue is loaded into its staging bank, or refused. -/
def paramStaging (c dt : Nat) (d : Dev) : Dev :=
  let d := d.after dt
  let x := d.cam c
  match x.queue with
  | [] => d
  | (addr, tag) :: _ =>
    if !d.up ∨ x.staged.isSome ∨ d.hbmWaits then d
    else
      match d.readSet c addr tag with
      | (some s, d) => d.setCam c fun x => { x with staged := some s }
      | (none, d) =>
        (d.setCam c fun x => { x with queue := x.queue.drop 1 }).event 0x6A07 (toLE 1 c ++ toLE 1 2 ++ toLE 2 0 ++ toLE 4 tag)

/-! ### Stops (R274 to R276, R628) -/

/-- Stop pipeline c: the open frame is discarded whole and nothing more of it is assimilated (R274); one whose Frame End
came in the same core cycle too (R276). -/
def Dev.camStop (d : Dev) (c why : Nat) : Dev :=
  let d := if why = 2 then d else d.camUnclose c
  let d := d.setCam c fun x => { x with stop := why, frame := none, waiting := [], stale := true, skips :=
    (match x.frame with
     | some f => ((f.exps.zipIdx).filter fun y => y.1.begun && !y.1.ended).map fun y => (f.port, vcOf f.vcs y.2)
     | none => []) ++ x.skips }
  let d := { d with heat := { d.heat with maps := d.heat.maps.filter (·.cam != c) } }
  d.event 0x6A05 (toLE 1 c ++ toLE 1 why)

/-- CAMERA_TIMEOUT (R274): no Frame Start of exposure 0 within CAM_c_TIMEOUT, in Expose or Hold. -/
def cameraTimeout (c : Nat) (d : Dev) : Dev :=
  let us := d.get (Reg.CAM_c_TIMEOUT c) Fd.CAM_c_TIMEOUT_US
  if !d.up ∨ 4 ≤ c ∨ us = 0 ∨ !d.expoOrHold ∨ !d.camRuns c then d
  else (d.reachUp ((d.cam c).fsAt + 1250 * us)).camStop c 2

/-- A write of EN = 0 (R274). -/
def Dev.camDisable (d : Dev) (c : Nat) : Dev :=
  if d.flag (Reg.CAM_c_CTL c) Fd.CAM_c_CTL_EN then (d.set (Reg.CAM_c_CTL c) Fd.CAM_c_CTL_EN 0).camStop c 3 else d

/-- CAMERA_DISABLE (R274). -/
def cameraDisable (c dt : Nat) (d : Dev) : Dev :=
  let d := d.after dt
  if d.hostOk ∧ c < 4 then d.camDisable c else d

/-- A write of EN = 1 (R275): a stopped pipeline resumes. -/
def Dev.camEnable (d : Dev) (c : Nat) : Dev :=
  if d.camRuns c then d
  else (d.set (Reg.CAM_c_CTL c) Fd.CAM_c_CTL_EN 1).setCam c fun x => { x with stop := 0, fsAt := d.clk.up }

/-- CAMERA_ENABLE (R275). -/
def cameraEnable (c dt : Nat) (d : Dev) : Dev :=
  let d := d.after dt
  if d.hostOk ∧ c < 4 then d.camEnable c else d

/-- A panel event: logged, with vector 61 (R629). -/
def Dev.pnlEvent (d : Dev) (code : Nat) (det : List Byte) : Dev := (d.event code det).msix 61

/-- CAMERA_PLUG (R628): the debounced plug detect of a camera port becomes active. -/
def cameraPlug (port dt : Nat) (d : Dev) : Dev :=
  let d := d.after dt
  if !d.up ∨ 4 ≤ port ∨ (d.cam port).plugged then d
  else (d.setCam port fun x => { x with plugged := true }).pnlEvent 0xF404 (toLE 1 port)

/-- CAMERA_UNPLUG (R274, R628): every pipeline that selects the port stops and loses its enable, queue and set. -/
def cameraUnplug (port dt : Nat) (d : Dev) : Dev :=
  let d := d.after dt
  if !d.up ∨ 4 ≤ port ∨ !(d.cam port).plugged then d
  else
    let d := (d.setCam port fun x => { x with plugged := false }).pnlEvent 0xF405 (toLE 1 port ++ toLE 1 d.top.mode.code)
    ((List.range 4).filter fun c => d.camPort c == port).foldl (fun (d : Dev) c =>
      ((d.camStop c 1).set (Reg.CAM_c_CTL c) Fd.CAM_c_CTL_EN 0).setCam c fun x => { x with queue := [], staged := none, active := none }) d

/-! ### Assimilation and export (R245, R277, R399) -/

/-- The values of a map, row by row over its covered box, and the coverage bitmap (R399): first column, columns, rows,
item bytes. -/
def mapItem (m : HMap) : Nat × Nat × Nat × List Byte :=
  let cols := m.cells.map (·.2.1)
  let c0 := (cols.min?).getD 0
  let nc := ((cols.max?).getD 0) - c0 + 1
  let last : Int := m.cells.foldl (fun (x : Int) c => max x (c.1 : Int)) m.row0
  let nr := clampN 1 64 (last - m.row0 + 1).toNat
  let at_ := fun (i : Nat) => (m.cells.find? fun c => (c.1 : Int) == m.row0 + ((i / nc : Nat) : Int) && c.2.1 == c0 + i % nc).map (·.2.2)
  let vals := (List.range (nr * nc)).map at_
  let cover := (List.range ((nr * nc + 7) / 8)).map fun b =>
    BitVec.ofNat 8 (sumN ((List.range 8).map fun i => b2n (nth vals (8 * b + i) none).isSome * 2 ^ i))
  (c0, nc, nr, (vals.flatMap fun v => toLE 2 (v.getD 0)) ++ cover)

/-- Write a map on ring 12 (R376, R398, R399). -/
def Dev.exportMap (d : Dev) (m : HMap) (assimilated : Bool) : Dev :=
  let (c0, nc, nr, item) := mapItem m
  match d.dataOfs 12 item.length with
  | some o =>
    if 0 < d.ringFree 12 then
      let st := d.edgeStamp 0x6
      let d := (d.countSlot 0x6).dataPut 12 o item
      d.putEntry 12 0 0 fun ph => padTo 64 (st.bytes ++ toLE 1 ph ++ toLE 1 1 ++ toLE 1 m.cam ++ toLE 2 d.id ++ toLE 2 0 ++
        toLE 4 o ++ toLE 4 item.length ++ toLE 4 m.frame ++ toLE 8 m.tf ++ toLE 4 m.layer ++ toLE 1 m.stroke ++
        toLE 1 (b2n m.degraded + 2 * b2n m.long + 4 * b2n assimilated + 8 * b2n m.zeroW) ++ toLE 2 0 ++
        toLES 4 m.row0 ++ toLE 2 c0 ++ toLE 2 nc ++ toLE 1 nr)
    else d.bump (Reg.RING_n_LOST 12)
  | none => d.bump (Reg.RING_n_LOST 12)

/-- ASSIMILATION (R245 to R248, R275, R277): at a tick edge the oldest complete camera map is assimilated and exported; a
map of Configure or Calibrate is discarded. -/
def assimilation (dt : Nat) (d : Dev) : Dev :=
  let d := d.after dt
  match d.heat.maps with
  | [] => d
  | m :: r =>
    if !d.up ∨ !d.onEdge ∨ !d.heatTurn 2 then d
    else
      let d := { d with heat := { d.heat with maps := r } }
      if m.counted then d
      else
        let (ok, d) := d.assimilate m
        let d := if ok then d.heatActed 2 else d
        let d := if ok ∧ d.camRuns m.cam then d.setCam m.cam fun x => { x with stale := false } else d
        if m.export_ then d.exportMap m ok else d

/-- Whether a line struck by pass 0 now carries the thermography-degraded flag (R275). -/
def Dev.thermDegraded (d : Dev) : Bool := d.cams.any fun x => x.enAtStroke && (x.stop != 0 || x.stale)

end Sys2Proof.Machine
end

