-- ==== Sys2Proof/Machine/ExecCamera.lean ====
section
/-!
DEFINITION. The meanings of the commands of the cameras (chapter 08).
-/
namespace Sys2Proof.Machine

/-- ASSIMILATION (R245): At the first tick edge after a camera map is complete, its cells are blended into the current
heat plane. -/
def execAssimilation (dt : Nat) (s : State) : Result :=
  s.run (assimilation dt)

/-- FRAME_START (R263): A CSI-2 Frame Start opens a pipeline frame, increments the frame count and may activate a
staged parameter set. -/
def execFrameStart (port vc dt : Nat) (s : State) : Result :=
  s.run (frameStart port vc dt)

/-- FRAME_END (R262): A CSI-2 Frame End arrives, and the frame closes when all exposures have ended. -/
def execFrameEnd (port vc dt : Nat) (s : State) : Result :=
  s.run (frameEnd port vc dt)

/-- LINE_START (R260): A Line Start short packet is checked for pairing. -/
def execLineStart (port vc dt : Nat) (s : State) : Result :=
  s.run (lineStart port vc dt)

/-- LINE_END (R260): A Line End short packet is checked for pairing. -/
def execLineEnd (port vc dt : Nat) (s : State) : Result :=
  s.run (lineEnd port vc dt)

/-- CSI_LONG_PACKET (R265): A RAW or embedded-data long packet is checked and its pixels pass through pipeline stages
1 to 7. -/
def execCsiLongPacket (port : Nat) (p : CsiPacket) (dt : Nat) (s : State) : Result :=
  s.run (csiLongPacket port p dt)

/-- MAP_COMPLETE (R268): A closed frame's binned map is complete and passes to assimilation. -/
def execMapComplete (c dt : Nat) (s : State) : Result :=
  s.run (mapComplete c dt)

/-- PQ_PUSH (R270): A write of CAM_c_PQ_TAG pushes a parameter set onto the frame-tagged queue, or is refused. -/
def execPqPush (c v dt : Nat) (s : State) : Result :=
  s.run (pqPush c v dt)

/-- PARAM_STAGING (R269): The head entry's record and tables are loaded into the staging bank, or the set is refused
as a bad record. -/
def execParamStaging (c dt : Nat) (s : State) : Result :=
  s.run (paramStaging c dt)

/-- CAMERA_TIMEOUT (R274): No Frame Start arrives within CAM_c_TIMEOUT in Expose or Hold, and the pipeline stops. -/
def execCameraTimeout (c : Nat) (s : State) : Result :=
  s.run (cameraTimeout c)

/-- CAMERA_DISABLE (R274): A write of CAM_c_CTL.EN = 0 stops the pipeline. -/
def execCameraDisable (c dt : Nat) (s : State) : Result :=
  s.run (cameraDisable c dt)

/-- CAMERA_ENABLE (R275): A write of CAM_c_CTL.EN = 1 resumes a stopped pipeline. -/
def execCameraEnable (c dt : Nat) (s : State) : Result :=
  s.run (cameraEnable c dt)

/-- CAMERA_PLUG (R628): A debounced camera plug-detect becomes active. -/
def execCameraPlug (port dt : Nat) (s : State) : Result :=
  s.run (cameraPlug port dt)

/-- CAMERA_UNPLUG (R628): A debounced camera unplug stops every pipeline on that port and clears its enable, queue and
active set. -/
def execCameraUnplug (port dt : Nat) (s : State) : Result :=
  s.run (cameraUnplug port dt)

end Sys2Proof.Machine
end

