-- ==== Sys2Proof/Machine/ExecEngine.lean ====
section
/-!
DEFINITION. The meanings of the commands of channel programs (chapter 13).
-/
namespace Sys2Proof.Machine

/-- CHANNEL_START (R409): The channel's program counter is set, its accumulators and loops are reset, and the channel
enters RUN. -/
def execChannelStart (dt : Nat) (s : State) : Result :=
  s.run (channelStart dt)

/-- END (R424): A channel reaches an END word and parks, or refetches it at once if a doorbell is pending. -/
def execEnd (c word dt : Nat) (s : State) : Result :=
  s.run (chEnd c word dt)

/-- MOVE (R414): The channel copies LEN bytes from SRC to DST through the holding register. -/
def execMove (c word : Nat) (data : List Byte) (dt : Nat) (s : State) : Result :=
  s.run (chMove c word data dt)

/-- FILL (R416): The channel writes LEN bytes of the pattern from DST. -/
def execFill (c word dt : Nat) (s : State) : Result :=
  s.run (chFill c word dt)

/-- CHECK (R430): The channel feeds LEN bytes to a claimed check unit and, on FINAL, compares the result with its
expected value. -/
def execCheck (c word : Nat) (data : List Byte) (dt : Nat) (s : State) : Result :=
  s.run (chCheck c word data dt)

/-- LOOP (R418): The channel runs a loop level, stepping its accumulators and branching back. -/
def execLoop (c word dt : Nat) (s : State) : Result :=
  s.run (chLoop c word dt)

/-- WAIT (R420): The channel enters WAIT until its tick, fence, event or doorbell condition holds. -/
def execWait (c word dt : Nat) (s : State) : Result :=
  s.run (chWait c word dt)

/-- WAIT_SATISFIED (R420): The condition of a WAIT holds and the channel proceeds. -/
def execWaitSatisfied (c dt : Nat) (s : State) : Result :=
  s.run (waitSatisfied c dt)

/-- WAIT_TIMEOUT (R420): TMO ms pass without the WAIT condition holding, and the channel stops with reason 4. -/
def execWaitTimeout (c : Nat) (s : State) : Result :=
  s.run (waitTimeout c)

/-- SIGNAL (R422): The channel logs an event, writes VALUE and signals an interrupt, in that order, as enabled. -/
def execSignal (c word dt : Nat) (s : State) : Result :=
  s.run (chSignal c word dt)

/-- LINK (R419): The channel's program counter moves to the absolute LINK address. -/
def execLink (c word dt : Nat) (s : State) : Result :=
  s.run (chLink c word dt)

/-- CHANNEL_DOORBELL (R424): A write to a channel doorbell sets DBPEND, and a parked channel refetches its END word.
-/
def execChannelDoorbell (o len dt : Nat) (s : State) : Result :=
  s.run (channelDoorbell o len dt)

/-- CPE_BUS_ERROR (R427): A host read completion error or an uncorrectable instruction fetch stops every running
channel and is recorded. -/
def execCpeBusError (kind addr mask : Nat) (parts : List ChPart) (dt : Nat) (s : State) : Result :=
  s.run (cpeBusError kind addr mask parts dt)

/-- RESTART (R428): A write of CPE_c_CTL.RESTART re-executes a stopped channel's current instruction. -/
def execRestart (c dt : Nat) (s : State) : Result :=
  s.run (chRestart c dt)

/-- ABORT (R428): A write of CPE_c_CTL.ABORT takes the channel to IDLE and releases its check-unit claim. -/
def execAbort (c dt : Nat) (s : State) : Result :=
  s.run (chAbort c dt)

end Sys2Proof.Machine
end

