-- ==== Sys2Proof/Machine/Hbm.lean ====
section
/-!
DEFINITION. The HBM3E controller and the two levels of arbitration (chapter 14), and patrol scrub (chapter 15).
-/
namespace Sys2Proof.Machine

/-- The number of requesters of a level-1 arbiter (R452). Requests that no block makes for itself have the requester
R668 gives. -/
def requesters (a : Nat) : Nat :=
  if a < 16 then 8 else match a with | 16 => 17 | 17 => 6 | 18 => 32 | 19 => 2 | _ => 0

/-- Whether a presented request is one that a requester can make: one of R452, of a class of R447, within one granule. -/
def HReq.ok (q : HReq) : Bool :=
  decide (q.req < requesters q.arb) && decide (q.cls ≤ 4) && decide (0 < q.len) && decide (q.addr % 64 + q.len ≤ 64) &&
    (match q.write with | some bs => bs.length == q.len | none => true)

/-- The effective class of a request (R448). -/
def Pend.eff (p : Pend) : Nat := if p.promoted then 0 else p.q.cls

/-- Whether a request has been absent for more than hint + 1 cc, and is forgotten (R454): it was last present at `last`. -/
def Pend.forgotten (p : Pend) (now : Nat) : Bool := decide (p.hint + 2 < now - p.last)

/-- Change an arbiter. -/
def Dev.setArb (d : Dev) (a : Nat) (f : Arb → Arb) : Dev := { d with hbmc := { d.hbmc with arbs := put 20 {} d.hbmc.arbs a f } }

/-- An arbiter. -/
def Dev.arb (d : Dev) (a : Nat) : Arb := nth d.hbmc.arbs a {}

/-- Insert into a list sorted by a key; equal keys keep their order. -/
def insertBy {α : Type} (key : α → Nat) (x : α) : List α → List α
  | [] => [x]
  | y :: r => if key x < key y then x :: y :: r else y :: insertBy key x r

/-- Sort by a key, stably. -/
def sortBy {α : Type} (key : α → Nat) (l : List α) : List α := l.foldl (fun acc x => insertBy key x acc) []

/-- The requests of arbiter a in the order of R453: effective class, then round robin from the requester after the last
one granted. -/
def Dev.arbOrder (d : Dev) (a : Nat) (ps : List Pend) : List Pend :=
  sortBy (fun p => 64 * p.eff + (p.q.req + 31 - (d.arb a).last) % 32) (ps.filter (·.q.arb == a))

/-- What a level-1 arbiter forwards in one cc (R453, R457). -/
def Dev.forwarded (d : Dev) (a : Nat) (ps : List Pend) : List Pend :=
  if d.flag (Reg.ARB_a_CTL a) Fd.ARB_a_CTL_FREEZE then [] else (d.arbOrder a ps).take 4

/-- Fill up to n grant slots of the top arbiter (R458): the requests granted, in grant order, and cur after it. -/
def topGrants (prio : Nat → Nat) (present fwd : List Pend) : (n : Nat) → List Int → List Pend → List Pend × List Int
  | 0, cur, got => (got, cur)
  | n + 1, cur, got =>
    match sortBy Pend.eff (fwd.filter fun p => !got.contains p) with
    | [] => (got, cur)
    | p0 :: rest =>
      let k := p0.eff
      let ready := (p0 :: rest).filter (·.eff == k)
      let arbs := (List.range 20).filter fun a => ready.any (·.q.arb == a)
      let w := fun (a : Nat) => (present.filter fun p => p.q.arb == a && p.eff == k).length * prio a
      let total := sumN (arbs.map w)
      let add := fun (i : Nat) (x : Int) => if i / 20 == k && arbs.contains (i % 20) then x + (w (i % 20) : Int) else x
      let cur := cur.mapIdx add
      let win := arbs.foldl (fun (b : Option Nat) a => match b with
        | none => some a
        | some b => if nth cur (20 * k + b) 0 < nth cur (20 * k + a) 0 then some a else some b) none
      match win with
      | none => (got, cur)
      | some a =>
        let cur := upd cur (20 * k + a) (· - (total : Int))
        match sortBy Pend.since (ready.filter (·.q.arb == a)) with
        | [] => (got, cur)
        | g :: _ => topGrants prio present fwd n cur (got ++ [g])

/-- The priority of an arbiter in force (R459, R465). -/
def Dev.prio (d : Dev) (a : Nat) : Nat := max 1 (d.get (Reg.ARB_a_PRIO a) Fd.ARB_a_PRIO_ACT)

/-- One cc of arbitration over the requests present (R453 to R458): the requests granted, in grant order, leave the
waiting ones; the others get their hints. -/
def Dev.arbCycle (d : Dev) (present : List Pend) : List Pend × Dev :=
  let fwd := (List.range 20).flatMap fun a => d.forwarded a present
  let (got, cur) := topGrants d.prio present fwd (if d.hbmc.remap.isSome then 0 else 10) d.hbmc.cur []
  let left := present.filter fun p => !got.contains p
  let lastOf := fun (a : Nat) => ((d.forwarded a present).filter fun p => got.contains p).getLast?
  let note := fun (a : Nat) (x : Arb) =>
    let mine := present.filter (·.q.arb == a)
    { x with active := mine.length, grants := x.grants + (got.filter (·.q.arb == a)).length,
             last := match lastOf a with | some p => p.q.req | none => x.last }
  let d := { d with hbmc := { d.hbmc with cur, arbs := (List.range 20).map fun a => note a (d.arb a) } }
  let d := (List.range 20).foldl (fun (d : Dev) a =>
    (d.pmc 15 (some a) 20 (got.filter (·.q.arb == a)).length).pmc 16 (some a) 20 (left.filter (·.q.arb == a)).length) d
  let hintOf := fun (p : Pend) => min 31 (((d.arbOrder p.q.arb left).findIdx? (· == p)).getD 0)
  let hinted := left.map fun p => { p with hint := hintOf p }
  let absent := d.hbmc.pend.filter fun p => !(present.any fun q => q.q.arb == p.q.arb && q.q.req == p.q.req)
  let d := { d with hbmc := { d.hbmc with pend := absent ++ hinted } }
  (got, hinted.foldl (fun (d : Dev) p => d.send (.hint p.q.arb p.q.req p.hint)) d)

/-- The bank and row of a request. -/
def Dev.bankRow (d : Dev) (q : HReq) : Nat × Nat :=
  let (p, _, bank, row) := hbmMap q.addr d.hbmOrder
  (32 * p + bank, row)

/-- Whether a request counts as a row hit for the scheduler (R449): it hits the open row, and its bank has not served
HIT_CAP hits in a row while an older request of its class waits for another row of the bank. -/
def Dev.rowHit (d : Dev) (q : Pend) (all : List Pend) : Bool :=
  let (b, row) := d.bankRow q.q
  let cap := max 1 (d.get Reg.HBM_CFG Fd.HBM_CFG_HIT_CAP)
  match getKey b d.hbmc.openRow with
  | some (r, hits) => r == row && !(decide (cap ≤ hits) && all.any fun x => x.eff == q.eff && decide (x.since < q.since) &&
      (d.bankRow x.q).1 == b && (d.bankRow x.q).2 != row)
  | none => false

/-- Whether two requests touch a common 16-byte word. -/
def HReq.meets (a b : HReq) : Bool := decide (a.addr / 16 ≤ (b.addr + b.len - 1) / 16) && decide (b.addr / 16 ≤ (a.addr + a.len - 1) / 16)

/-- Serve one granted request (R441, R444): a write changes memory, a read delivers its data. -/
def Dev.serve (d : Dev) (p : Pend) : Dev :=
  let q := p.q
  let (b, row) := d.bankRow q
  let hits := match getKey b d.hbmc.openRow with | some (r, h) => if r = row then h + 1 else 0 | none => 0
  let rq : Rq := ⟨q.arb, q.req, q.cls⟩
  let d := match q.write with
    | some bs => d.hbmWrite rq q.addr bs false
    | none =>
      let ((bs, bad), d) := d.hbmRead rq q.addr q.len
      d.send (.hbmData q.arb q.req bs bad)
  { d with hbmc := { d.hbmc with openRow := insKey b (row, hits) d.hbmc.openRow } }

/-- Serve the granted requests in the scheduler's order (R449): requests to one word in grant order. -/
def Dev.serveAll (d : Dev) : (n : Nat) → List Pend → Dev
  | 0, _ => d
  | n + 1, ps =>
    let free := (ps.zipIdx).filter fun x => !((ps.take x.2).any fun y => y.q.meets x.1.q)
    match sortBy (fun x : Pend × Nat => x.1.eff * 2 + b2n (!d.rowHit x.1 ps)) (sortBy (fun x : Pend × Nat => x.1.since) free) with
    | [] => d
    | (p, i) :: _ => (d.serve p).serveAll n (ps.eraseIdx i)

/-- The requests that a command presents join those waiting (R448, R454): the same request again keeps its age. -/
def Dev.presentNow (d : Dev) (qs : List HReq) : List Pend :=
  let now := d.clk.up
  let good := qs.filter (·.ok)
  let first := good.zipIdx.filter fun x => !((good.take x.2).any fun y => y.arb == x.1.arb && y.req == x.1.req)
  first.map fun x =>
    match d.hbmc.pend.find? fun p => p.q == x.1 && !p.forgotten now with
    | some p => { p with last := now }
    | none => { q := x.1, since := now, last := now }

/-- Drop the requests that have been absent for too long (R454). -/
def Dev.forget (d : Dev) : Dev :=
  { d with hbmc := { d.hbmc with pend := d.hbmc.pend.filter fun p => !p.forgotten d.clk.up } }

/-- HBM_REQUEST (R448, R449, R452 to R458): the requests presented in one cc are arbitrated, and those granted are served. -/
def hbmRequest (qs : List HReq) (dt : Nat) (d : Dev) : Dev :=
  let d := d.after dt
  if !d.up then d
  else
    let d := d.forget
    let (got, d) := d.arbCycle (d.presentNow qs)
    d.serveAll got.length got

/-- The age limit of a class, none for one that is not promoted (R448, R463). -/
def Dev.ageLimit (d : Dev) (cls : Nat) : Option Nat :=
  let v := d.get (Reg.HBM_AGE_c (cls - 1)) Fd.HBM_AGE_c_CC
  if cls = 0 ∨ 4 < cls ∨ v = 0 then none else some (max 512 v)

/-- HBM_AGE_PROMOTION (R448). A request whose arbiter is frozen stays held (R460). -/
def hbmAgePromotion (a r : Nat) (d : Dev) : Dev :=
  match d.hbmc.pend.find? fun p => p.q.arb == a && p.q.req == r && !p.promoted with
  | none => d
  | some p =>
    match d.ageLimit p.q.cls with
    | none => d
    | some lim =>
      if !d.up then d
      else
        let d := d.reachUp (p.since + lim + 1)
        let mark := fun (x : Pend) => if x == p then { x with promoted := true } else x
        let d := { (d.bump Reg.HBM_PROMO) with hbmc := { d.hbmc with pend := d.hbmc.pend.map mark } }
        d.setArb a fun x => { x with promos := x.promos + 1 }

/-- The waiting requests presented once more, and what one cc of arbitration grants of them. -/
def Dev.arbAgain (d : Dev) : List Pend × Dev :=
  let d := d.forget
  d.arbCycle (d.presentNow (d.hbmc.pend.map (·.q)))

/-- ARB_WITHDRAW (R455): requester r of arbiter a withdraws its request in the cc of its grant; the slot stays unused.
It goes before a cut-off of the same grant (R460). -/
def arbWithdraw (a r dt : Nat) (d : Dev) : Dev :=
  let d0 := d.after dt
  let (got, d) := d0.arbAgain
  if !d0.up ∨ !(got.any fun p => p.q.arb == a && p.q.req == r) then d0
  else
    let rest := got.filter fun p => !(p.q.arb == a && p.q.req == r)
    (d.serveAll rest.length rest).bump (Reg.ARB_a_WITHDRAW a)

/-- ARB_CUTOFF (R456): a granted requester is cut off HOLD cc after its grant. -/
def arbCutoff (a r dt : Nat) (d : Dev) : Dev :=
  let d0 := d.after dt
  let (got, d) := d0.arbAgain
  match got.find? fun p => p.q.arb == a && p.q.req == r with
  | none => d0
  | some p =>
    if !d0.up then d0
    else
      let rest := got.filter fun x => x != p
      let d := (d.serveAll rest.length rest).after (max 1 (d.get (Reg.ARB_a_CTL a) Fd.ARB_a_CTL_HOLD))
      let w := b2n p.q.write.isSome
      let d := (d.bump (Reg.ARB_a_CUTOFF a)).wr (Reg.ARB_a_CUTOFF_ID a) (2 ^ 31 + 32 * w + r)
      (d.setArb a fun x => { x with cuts := x.cuts + 1 }).event 0xB101 (toLE 1 a ++ toLE 1 r ++ toLE 1 w)

/-- ARB_COMMIT (R459). -/
def arbCommit (dt : Nat) (d : Dev) : Dev :=
  let d := d.after dt
  if !d.hostOk then d
  else
    let d := (List.range 20).foldl (fun (d : Dev) a =>
      d.set (Reg.ARB_a_PRIO a) Fd.ARB_a_PRIO_ACT (d.get (Reg.ARB_a_PRIO a) Fd.ARB_a_PRIO_PRIO)) d
    let n := (d.get Reg.ARB_STAT Fd.ARB_STAT_COMMITS + 1) % 65536
    (({ d with hbmc := { d.hbmc with cur := List.replicate 100 0 } }).set Reg.ARB_STAT Fd.ARB_STAT_COMMITS n).event 0xB102 (toLE 1 n)

/-! ### The address map (R446) -/

/-- The word index that a physical place has under an order: the inverse of map() (R445). -/
def hbmUnmap (p col bank row low order : Nat) : Nat :=
  let b := if 2 ≤ order then bank ^^^ (row % 32) ^^^ ((row >>> 5) % 32) else bank
  let u := if order = 1 then bank * 19660 + row else row * 32 + b
  4 * (u * 512 + col * 32 + p) + low

/-- Every word is marked never written and stands at its address under the new order (R446, R474). -/
def remapped (m : List (Nat × HWord)) (old new : Nat) : List (Nat × HWord) :=
  m.foldl (fun acc e =>
    if e.2.data = 0 then acc
    else
      let (p, col, bank, row) := hbmMap (16 * e.1) old
      insKey (hbmUnmap p col bank row (e.1 % 4) new) { data := e.2.data } acc) []

/-- HBM3E under a new order (R446). -/
def Dev.remapTo (d : Dev) (o : Nat) : Dev :=
  { d with hbm := remapped d.hbm d.hbmOrder o, hbmc := { d.hbmc with remap := none, checkBuf := [] } }

/-- A write of HBM_CFG (R446, R462): HIT_CAP takes effect; a new ORDER starts a map change in Configure while no channel
runs, and is refused otherwise. -/
def Dev.hbmCfg (d : Dev) (v : Nat) : Dev :=
  let d := d.set Reg.HBM_CFG Fd.HBM_CFG_HIT_CAP (bits v 12 8)
  let o := bits v 1 0
  if o = d.get Reg.HBM_CFG Fd.HBM_CFG_ORDER then d
  else if d.top.mode ≠ .configure ∨ d.chanRunning ∨ d.hbmc.remap.isSome then
    d.event 0xA104 (toLE 1 o ++ toLE 1 d.top.mode.code)
  else
    let d := (d.set Reg.HBM_CFG Fd.HBM_CFG_ORDER o).set Reg.HBM_STAT Fd.HBM_STAT_REMAP 1
    { d with hbmc := { d.hbmc with remap := some (o, d.clk.up) } }

/-- HBM_ORDER_WRITE (R446). -/
def hbmOrderWrite (v dt : Nat) (d : Dev) : Dev :=
  let d := d.after dt
  if d.hostOk then d.hbmCfg v else d

/-- HBM_REMAP_DONE (R446): within 8 ms of the write. -/
def hbmRemapDone (dt : Nat) (d : Dev) : Dev :=
  match d.hbmc.remap with
  | none => d
  | some (o, at0) =>
    let d := d.after (min dt (at0 + 10000000 - d.clk.up))
    let o := min o 2
    let d := d.remapTo o
    ((d.set Reg.HBM_STAT Fd.HBM_STAT_REMAP 0).set Reg.HBM_STAT Fd.HBM_STAT_ORDER o).event 0xA105 (toLE 1 o)

/-! ### Refresh (R450, R451) -/

/-- The strike-critical window ends 2,048 cc after the tick edge (R44). -/
def Dev.windowEnd (d : Dev) : Nat := d.top.edgeAt + 2048 * d.clk.inc / 5

/-- The modes with a strike-critical window (R450). -/
def Dev.windowed (d : Dev) : Bool := d.top.mode == .calibrate || d.top.mode == .expose || d.top.mode == .hold

/-- HBM_REF_STAT after the count of a pseudo-channel has reached n. -/
def Dev.refStat (d : Dev) (n : Nat) : Dev :=
  let now := d.hbmc.postponed.foldl max 0
  (d.set Reg.HBM_REF_STAT Fd.HBM_REF_STAT_NOW now).set Reg.HBM_REF_STAT Fd.HBM_REF_STAT_MAX
    (min 15 (max n (d.get Reg.HBM_REF_STAT Fd.HBM_REF_STAT_MAX)))

/-- n refreshes of pseudo-channel p start, back to back, each taking 410 ns (R441); `busyTo` counts half core cycles. -/
def Dev.refresh (d : Dev) (p n : Nat) : Dev :=
  ({ d with hbmc := { d.hbmc with busyTo := put 32 0 d.hbmc.busyTo p fun b => max (2 * d.clk.up) b + 1025 * n } }).pmc 10 none 0 n

/-- One more refresh of pseudo-channel p is postponed. -/
def Dev.postpone (d : Dev) (p : Nat) : Dev :=
  let n := nth d.hbmc.postponed p 0 + 1
  ({ d with hbmc := { d.hbmc with postponed := put 32 0 d.hbmc.postponed p fun _ => n } }).refStat n

/-- HBM_REFRESH_DUE (R450, R451): a refresh of pseudo-channel p falls due. -/
def hbmRefreshDue (p dt : Nat) (d : Dev) : Dev :=
  let d := d.after dt
  if 32 ≤ p ∨ !d.flag Reg.HBM_STAT Fd.HBM_STAT_TRAINED then d
  else if !d.windowed then d.refresh p 1
  else
    let n := nth d.hbmc.postponed p 0
    if 8 ≤ n then
      ((d.bump Reg.HBM_REF_FORCED).event 0xA101 (toLE 1 p ++ toLE 1 n)).refresh p 1
    else if d.clk.now < d.windowEnd then d.postpone p
    else if 2 * d.clk.up < nth d.hbmc.busyTo p 0 then (d.refStat (n + 1)).refresh p 1
    else if d.pastCommit then
      match d.nextEdge with
      | some e => if d.clk.now + nsT 410 ≤ e then d.refresh p 1 else d.postpone p
      | none => d.postpone p
    else d.refresh p 1

/-- STRIKE_CRITICAL_WINDOW_END (R450): the postponed refreshes are issued back to back. -/
def strikeCriticalWindowEnd (d : Dev) : Dev :=
  if !d.up then d
  else
    let d := d.reach d.windowEnd
    let d := (List.range 32).foldl (fun (d : Dev) p => let n := nth d.hbmc.postponed p 0; if n = 0 then d else d.refresh p n) d
    ({ d with hbmc := { d.hbmc with postponed := List.replicate 32 0 } }).refStat 0

/-- HBM_TEMP_CROSSING (R451): the stack crosses 85 °C. -/
def hbmTempCrossing (above : Bool) (temp dt : Nat) (d : Dev) : Dev :=
  let d := d.after dt
  if !d.up ∨ d.flag Reg.HBM_STAT Fd.HBM_STAT_HOT = above ∨ above ≠ decide (85 < temp) then d
  else
    let d := (d.set Reg.HBM_STAT Fd.HBM_STAT_HOT (b2n above)).set Reg.HBM_STAT Fd.HBM_STAT_TEMP temp
    d.event 0xA103 (toLE 1 (b2n above) ++ toLE 1 temp)

/-! ### Patrol scrub (R481 to R483) -/

/-- A pass that begins now, none where scrub is off or has no region (R481, R483). -/
def Dev.newPass (d : Dev) : Option Pass :=
  let region := fun (k : Nat) =>
    (nth d.hbmc.scrubBase k 0, 65536 * d.get (Reg.ECC_SCRUB_SIZE_k k) Fd.ECC_SCRUB_SIZE_k_UNITS)
  let rs := (List.range 4).map region
  if !d.flag Reg.ECC_SCRUB_CTL Fd.ECC_SCRUB_CTL_EN ∨ rs.all (·.2 == 0) then none
  else some { regions := rs, period := max 1 (d.get Reg.ECC_SCRUB_CTL Fd.ECC_SCRUB_CTL_PERIOD), at_ := d.clk.up }

/-- The granules of a pass. -/
def Pass.total (p : Pass) : Nat := sumN (p.regions.map fun r => r.2 / 64)

/-- The core cycle at which the next granule is read: PERIOD ÷ granules after the last (R482). -/
def Pass.next (p : Pass) : Nat := p.at_ + 75000000000 * p.period / max 1 p.total

/-- Scrub of one word (R482): what it did and the device. -/
def Dev.scrubWord (d : Dev) (wi : Nat) : Nat × Nat × Dev :=
  let w := d.hword wi
  let addr := 16 * wi
  let dec := (hbmMap addr d.hbmOrder).1
  if !w.written then (0, 0, d.bump Reg.ECC_UNWR_CNT)
  else if w.poison then (0, 0, d)
  else
    let syn := cpcSyndrome w.data w.chk
    match cpcDecode syn with
    | .clean => (0, 0, d)
    | .corrected p =>
      let data := if p < 128 then w.data ^^^ 2 ^ p else w.data
      (1, 0, (d.ceNote dec addr syn true true).putWord wi (cleanWord data))
    | .uncorrectable => (0, 1, (d.ueNote dec addr syn true true).putWord wi (poisonWord w.data))

/-- The first region from k on that is not empty. -/
def Pass.region (p : Pass) : Option Nat := ((List.range 4).filter fun i => decide (p.k ≤ i) && (nth p.regions i (0, 0)).2 != 0).head?

/-- ECC_SCRUB_STAT of a pass (R487). -/
def Dev.scrubStat (d : Dev) : Dev :=
  match d.hbmc.pass with
  | some p => d.wr Reg.ECC_SCRUB_STAT (2 ^ 31 + 2 ^ 26 * p.k)
  | none => d.wr Reg.ECC_SCRUB_STAT 0

/-- Read and correct the four words of a granule: how many were corrected and how many are uncorrectable (R482). -/
def Dev.scrubWords (d : Dev) (wi : Nat) : Nat × Nat × Dev :=
  [0, 1, 2, 3].foldl (fun (x : Nat × Nat × Dev) i =>
    let y := x.2.2.scrubWord (wi + i)
    (x.1 + y.1, x.2.1 + y.2.1, y.2.2)) (0, 0, d)

/-- One granule read by the pass at address a; a read past the usable size counts as out of range. -/
def Dev.scrubRow (d : Dev) (a : Nat) : Nat × Nat × Dev :=
  let rq : Rq := ⟨19, 0, 4⟩
  if pastEnd a 64 then (0, 0, d.oor rq a false)
  else ((d.pmc 7 (some 4) 5 1).touchRow (a / 16) false).scrubWords (a / 16)

/-- The pass after its granule read at offset ofs of region k, which is `size` bytes long. -/
def Pass.stepped (p : Pass) (k ofs size ce ue now : Nat) : Pass :=
  let p := { p with k, ofs := ofs + 64, fixed := p.fixed + ce, bad := p.bad + ue, at_ := now }
  if size ≤ ofs + 64 then { p with k := k + 1, ofs := 0 } else p

/-- The pass under way. -/
def Dev.putPass (d : Dev) (p : Option Pass) : Dev := { d with hbmc := { d.hbmc with pass := p } }

/-- Keep the pass as it now stands, or end it (R483, R487). -/
def Dev.passStep (d : Dev) (p : Pass) : Dev :=
  if p.region.isSome then (d.putPass (some p)).scrubStat
  else
    let n := (d.rd Reg.ECC_SCRUB_PASS + 1) % 2 ^ 32
    (((d.putPass none).wr Reg.ECC_SCRUB_PASS n).event 0xC104 (toLE 4 n ++ toLE 4 p.fixed ++ toLE 4 p.bad)).scrubStat

/-- After a granule read: what it counted, and the device. -/
def Dev.scrubEnd (p : Pass) (k ofs size : Nat) (x : Nat × Nat × Dev) : Dev :=
  x.2.2.passStep (p.stepped k ofs size x.1 x.2.1 x.2.2.clk.up)

/-- One granule read of a pass in region k at its offset. -/
def Dev.scrubGranule (d : Dev) (p : Pass) (k : Nat) : Dev :=
  let r := nth p.regions k (0, 0)
  let ofs := if k = p.k then p.ofs else 0
  Dev.scrubEnd p k ofs r.2 (d.scrubRow (r.1 + ofs))

/-- SCRUB_READ (R481 to R483): the next granule of the pass, or the first of a new one. -/
def scrubRead (d : Dev) : Dev :=
  if !d.up ∨ d.top.mode = .dormant ∨ d.hbmc.remap.isSome then d
  else
    match d.hbmc.pass with
    | some p =>
      match p.region with
      | some k => (d.reachUp p.next).scrubGranule p k
      | none => d
    | none =>
      match d.newPass with
      | none => d
      | some p =>
        match p.region with
        | some k => (d.reachUp p.next).scrubGranule p k
        | none => d

end Sys2Proof.Machine
end

