-- ==== Sys2Proof/Machine/ExecHbm.lean ====
section
/-!
DEFINITION. The meanings of the commands of the HBM3E and its arbiters (chapters 14, 15).
-/
namespace Sys2Proof.Machine

/-- STRIKE_CRITICAL_WINDOW_END (R450): The strike-critical window ends and the postponed refreshes of each
pseudo-channel are issued back to back. -/
def execStrikeCriticalWindowEnd (s : State) : Result :=
  s.run strikeCriticalWindowEnd

/-- HBM_REQUEST (R453): A requester presents an HBM3E request, which is arbitrated at both levels, granted, scheduled
and served. -/
def execHbmRequest (qs : List HReq) (dt : Nat) (s : State) : Result :=
  s.run (hbmRequest qs dt)

/-- HBM_AGE_PROMOTION (R448): A request's age exceeds the limit of its class and it takes effective class 0. -/
def execHbmAgePromotion (a r : Nat) (s : State) : Result :=
  s.run (hbmAgePromotion a r)

/-- ARB_WITHDRAW (R455): A requester withdraws its request in the cycle of its grant. -/
def execArbWithdraw (a r dt : Nat) (s : State) : Result :=
  s.run (arbWithdraw a r dt)

/-- ARB_CUTOFF (R456): A granted requester fails to deliver or accept data within HOLD cc and is cut off. -/
def execArbCutoff (a r dt : Nat) (s : State) : Result :=
  s.run (arbCutoff a r dt)

/-- ARB_COMMIT (R459): A write of ARB_COMMIT.GO brings all shadow priorities into force and resets the fairness
counters. -/
def execArbCommit (dt : Nat) (s : State) : Result :=
  s.run (arbCommit dt)

/-- HBM_ORDER_WRITE (R446): A write of HBM_CFG.ORDER in Configure with no running channels starts a remap of every
check row, or is refused. -/
def execHbmOrderWrite (v dt : Nat) (s : State) : Result :=
  s.run (hbmOrderWrite v dt)

/-- HBM_REMAP_DONE (R446): The address-map change completes and the waiting requests proceed. -/
def execHbmRemapDone (dt : Nat) (s : State) : Result :=
  s.run (hbmRemapDone dt)

/-- HBM_REFRESH_DUE (R450): A pseudo-channel's refresh falls due and starts, is postponed around the strike-critical
window, or is forced. -/
def execHbmRefreshDue (p dt : Nat) (s : State) : Result :=
  s.run (hbmRefreshDue p dt)

/-- HBM_TEMP_CROSSING (R451): The stack crosses 85 °C and the refresh interval changes. -/
def execHbmTempCrossing (above : Bool) (temp dt : Nat) (s : State) : Result :=
  s.run (hbmTempCrossing above temp dt)

/-- SCRUB_READ (R482): Patrol scrub reads the next granule of its regions and acts on each word. -/
def execScrubRead (s : State) : Result :=
  s.run scrubRead

end Sys2Proof.Machine
end

