-- ==== Sys2Proof/Machine/ExecHead.lean ====
section
/-!
DEFINITION. The meanings of the commands of the head ports (chapter 09).
-/
namespace Sys2Proof.Machine

/-- LINK_RECORD (R304): A LINK record from a tile reports its training state during bring-up. -/
def execLinkRecord (t : Nat) (bs : List Byte) (dt : Nat) (s : State) : Result :=
  s.run (linkRecord t bs dt)

/-- EYE_RECORD (R307): An EYE record returns a data lane's margins into HEAD_t_EYE_l. -/
def execEyeRecord (t : Nat) (bs : List Byte) (dt : Nat) (s : State) : Result :=
  s.run (eyeRecord t bs dt)

/-- TILE_PLUG (R308): A debounced tile plug is recorded, and the tile is identified now or at the next Configure. -/
def execTilePlug (t dt : Nat) (s : State) : Result :=
  s.run (tilePlug t dt)

/-- TILE_BRINGUP (R304): A present tile in Configure is identified, its calibration copy starts and its link trains up
to 16.0 Gbit/s. -/
def execTileBringup (t dt : Nat) (s : State) : Result :=
  s.run (tileBringup t dt)

/-- BRINGUP_STEP_TIMEOUT (R305): A tile bring-up step misses its limit and is repeated, or the link degrades after the
third failure. -/
def execBringupStepTimeout (t : Nat) (copy : Bool) (s : State) : Result :=
  s.run (bringupStepTimeout t copy)

/-- FACTORY_CAL_COPY_DONE (R303): The tile's factory calibration set has been copied into its calibration bank. -/
def execFactoryCalCopyDone (t : Nat) (img : Option (List Byte)) (dt : Nat) (s : State) : Result :=
  s.run (factoryCalCopyDone t img dt)

/-- RETRAIN (R305): A write of HEAD_t_CTL.RETRAIN restarts tile bring-up at step 3 in Configure or Hold. -/
def execRetrain (t dt : Nat) (s : State) : Result :=
  s.run (retrain t dt)

/-- REIDENT (R303): A write of HEAD_t_CTL.REIDENT identifies a refused tile again. -/
def execReident (t dt : Nat) (s : State) : Result :=
  s.run (reident t dt)

/-- TILE_EYE_SCAN_START (R307): A write of START to HEAD_t_EYE_CTL starts an eye scan of a data lane or of the return
lane. -/
def execTileEyeScanStart (t lane dwell dt : Nat) (s : State) : Result :=
  s.run (tileEyeScanStart t lane dwell dt)

/-- TILE_EYE_SCAN_TIMEOUT (R307): No EYE record arrives within 100 ms and TIMEOUT is set. -/
def execTileEyeScanTimeout (t : Nat) (s : State) : Result :=
  s.run (tileEyeScanTimeout t)

/-- RETURN_LANE_SCAN_DONE (R307): The device's own scan of the return lane completes and writes its margins. -/
def execReturnLaneScanDone (t : Nat) (margins : List Nat) (dt : Nat) (s : State) : Result :=
  s.run (returnLaneScanDone t margins dt)

/-- TILE_LINK_FAULT (R306): The return lane loses word lock or shows more than 16 code errors in 1 ms, and the tile
becomes FAULT. -/
def execTileLinkFault (t : Nat) (codeErrs gone : Bool) (dt : Nat) (s : State) : Result :=
  s.run (tileLinkFault t codeErrs gone dt)

/-- RETURN_LANE_WORD_LOCK (R304): During step 3 of tile bring-up the device gains word lock on the tile's K28.5
stream, and bring-up moves on to step 4. -/
def execReturnLaneWordLock (t dt : Nat) (s : State) : Result :=
  s.run (returnLaneWordLock t dt)

/-- ID_HEADER_READ (R303): The I²C read of the tile ID header ends: the tile is accepted and its S_t and BEN_LAT are
set, or it is refused with event 0x7103. -/
def execIdHeaderRead (t : Nat) (hdr : Option (List Byte)) (dt : Nat) (s : State) : Result :=
  s.run (idHeaderRead t hdr dt)

end Sys2Proof.Machine
end

