-- ==== Sys2Proof/Machine/ExecHeatCmds.lean ====
section
/-!
DEFINITION. The meanings of the commands of the heat memory (chapter 07).
-/
namespace Sys2Proof.Machine

/-- AGE_SWEEP_VISIT (R236): The age sweep brings a heat segment to the visit time so that no gap reaches 2³¹ units. -/
def execAgeSweepVisit (dt : Nat) (s : State) : Result :=
  s.run (ageSweepVisit dt)

/-- SEAM_MESSAGE (R251): A seam heat message from a neighbour replaces the receiver's non-owned seam states at the
next edge. -/
def execSeamMessage (dt : Nat) (s : State) : Result :=
  s.run (seamMessage dt)

/-- SEAM_MESSAGE_DEADLINE (R251): No valid seam message for a row arrives before the edge of stroke tick e + 8, and
HEAT_SEAM_MISS counts it. -/
def execSeamMessageDeadline (east : Bool) (dt : Nat) (s : State) : Result :=
  s.run (seamMessageDeadline east dt)

/-- HEAT_PARAM_APPLY (R253): At the first edge after the stroke ends, pending heat parameter writes apply together and
the correction epoch increments. -/
def execHeatParamApply (dt : Nat) (s : State) : Result :=
  s.run (heatParamApply dt)

/-- FTAB_COMMIT (R244): A write of HEAT_FTAB_CTL with COMMIT = 1 loads a factor-table bank, or is ignored while one is
pending. -/
def execFtabCommit (bank dt : Nat) (s : State) : Result :=
  s.run (ftabCommit bank dt)

end Sys2Proof.Machine
end

