-- ==== Sys2Proof/Machine/Host.lean ====
section
/-!
DEFINITION. The host interface (chapter 12): doorbells, descriptor fetches, ring enables, sessions, ring-0 commands,
interrupts.
-/
namespace Sys2Proof.Machine

/-- Whether a ring is a submit ring (R368). -/
def isSubmit (n : Nat) : Bool := n == 0 || (decide (4 ≤ n) && decide (n ≤ 11)) || n == 14

/-- Whether a ring is written by the device (R368). -/
def isDevRing (n : Nat) : Bool := n == 1 || n == 2 || n == 3 || n == 12 || n == 13

/-- Whether a ring is bound to the open session (R374, R392). -/
def Dev.bound (d : Dev) (n : Nat) : Bool := match d.host.session with | some s => bit s.rings n | none => false

/-- A Glean record of a doorbell or a descriptor fetch, where RING_EN asks for it (R622). -/
def Dev.ringTrace (d : Dev) (code : Nat) (det : List Byte) : Dev :=
  if d.flag Reg.GLN_CTL Fd.GLN_CTL_RING_EN then d.traceOwn 0x1 0x03 code det else d

/-! ### Doorbells (R371, R372) -/

/-- The ring whose doorbell lies at an offset of BAR2 (R371). -/
def bellRing (o : Nat) : Option Nat := if o % 0x1000 = 0 ∧ o / 0x1000 < 15 then some (o / 0x1000) else none

/-- A doorbell of ring n is written with v (R372). -/
def Dev.doorbell (d : Dev) (n v : Nat) : Dev :=
  let v := v % 2 ^ 32
  let p := d.rd (Reg.RING_n_PROD n)
  let c := d.rd (Reg.RING_n_CONS n)
  let sub := fun (a b : Nat) => (a + 2 ^ 32 - b) % 2 ^ 32
  if !d.linkUp ∨ 15 ≤ n then d
  else
    let ok := if isSubmit n then decide (sub v c ≤ d.ringSize n) && decide (sub v p ≤ d.ringSize n) else decide (sub p v ≤ sub p c)
    if !ok then
      ((d.set (Reg.RING_n_STAT n) Fd.RING_n_STAT_DBERR 1).event 0x1005 (toLE 1 n ++ toLE 4 v)).msix n
    else
      let d := d.ringTrace n (toLE 4 v)
      if isSubmit n then d.wr (Reg.RING_n_PROD n) v
      else
        let freed := fun (i : Nat × Nat × Nat) => decide (sub v (i.1 + 1) < 2 ^ 31)
        let d := (d.wr (Reg.RING_n_CONS n) v).setRing n fun r => { r with items := r.items.filter fun i => !freed i }
        if n = 2 then d.flushLost else d

/-- DOORBELL (R371, R372): `len` bytes are written at an offset of BAR2; every other offset is ignored, and every write
that is not 32 bits wide. -/
def doorbell (o len v dt : Nat) (d : Dev) : Dev :=
  let d := d.after dt
  match bellRing o with
  | some n => if len = 4 then d.doorbell n v else d
  | none => d

/-! ### Descriptors (R374, R377 to R379, R402) -/

/-- Whether bytes [hi:lo] of a descriptor are 0. -/
def Desc.zero (x : Desc) (hi lo : Nat) : Bool := x.arg hi lo == 0

/-- Whether the arguments of a ring-0 command are in range (R378, R379, R392, R596); none for an opcode that is not
listed. -/
def argOk0 (x : Desc) : Option Bool :=
  match x.op with
  | 0x0001 => some (x.zero 63 12)
  | 0x0002 => some (x.zero 15 14 && (x.arg 13 12 &&& 0xB00E) == 0 && bit (x.arg 13 12) 0)
  | 0x0003 => some (x.zero 63 12)
  | 0x0004 => some (x.zero 63 12)
  | 0x0005 => some (x.zero 63 12)
  | 0x0010 => some (decide (x.arg 12 12 ≤ 4) && x.zero 63 13)
  | 0x0011 => some (x.zero 63 12)
  | 0x0020 => some (decide (x.arg 12 12 ≤ 1) && x.zero 63 13)
  | 0x0030 => some (decide (x.arg 14 14 ≤ 5) && x.zero 15 15 && x.zero 63 20)
  | 0x0031 => some (x.zero 63 14)
  | 0x0110 => some (x.zero 63 16)
  | 0x0111 => some (x.zero 63 12)
  | 0x0112 => some (x.zero 63 20)
  | _ => none

/-- The status with which a descriptor is rejected, none where it is accepted (R379). -/
def rejected (x : Desc) : Option Nat :=
  let hdr := byteAt x.body 2 ≤ 1 && (x.ring == 0 || !x.relay) && byteAt x.body 3 == 0 && x.zero 11 10 &&
    decide (fieldLE x.body 9 8 < 4096) && (x.relay || fieldLE x.body 9 8 == 0)
  let args : Option Bool :=
    if x.ring = 0 then argOk0 x
    else if x.ring = 14 then
      if x.op = 0x0300 then some (decide (x.arg 12 12 ≤ 31) && decide (x.arg 13 13 ≤ 1) && x.zero 15 14 && x.arg 23 16 % 16 == 0 && x.zero 63 24) else none
    else if x.op = 0x0200 then some (x.zero 15 12 && x.zero 63 28) else none
  match args with
  | none => some stBAD_OPCODE
  | some ok => if hdr && ok then none else some stBAD_ARG

/-- Send a ring-0 descriptor with RELAY = 1 to its target (R383, R518): PTYPE 0x20 on VL2, four flits, the relay number in
ARG. -/
def Dev.relayOut (d : Dev) (x : Desc) : Dev :=
  let num := d.host.nextRelay
  let r : Relay := { num, desc := x, sentAt := d.clk.up }
  let d := { d with host := { d.host with relays := d.host.relays ++ [r], nextRelay := (num + 1) % 2 ^ 16 } }
  d.kSend { vl := 2, plen := 4, dst := x.target, src := d.id, ptype := 0x20, arg := num, payload := padTo 64 x.body }

/-- A descriptor enters the queue of its ring, or is rejected or relayed (R374, R379, R383). -/
def Dev.enqueue (d : Dev) (x : Desc) : Dev :=
  match rejected x with
  | some st => d.reject x st
  | none =>
    if x.ring = 0 then
      if x.relay then d.relayOut x else { d with host := { d.host with q0 := d.host.q0 ++ [x] } }
    else if x.ring = 14 then { d with host := { d.host with q14 := d.host.q14 ++ [x] } }
    else d.updPortion (x.ring - 4) fun p => { p with waiting := p.waiting ++ [x] }

/-- Whether the next descriptor of ring n is fetched only to be retired (R127, R400). -/
def Dev.retiring (d : Dev) (n : Nat) : Bool := !(d.ringSt n).retOld.isEmpty || decide (0 < nth d.host.retireN n 0)

/-- The count of the next descriptor that ring n fetches. -/
def Dev.nextCount (d : Dev) (n : Nat) : Nat :=
  match (d.ringSt n).retOld with
  | (k, _) :: _ => k
  | [] => d.rd (Reg.RING_n_CONS n)

/-- The descriptor of that count has been fetched. -/
def Dev.countOn (d : Dev) (n : Nat) : Dev :=
  match (d.ringSt n).retOld with
  | (k, m) :: r => d.setRing n fun x => { x with retOld := if m ≤ 1 then r else ((k + 1) % 2 ^ 32, m - 1) :: r }
  | [] =>
    let d := d.wr (Reg.RING_n_CONS n) (d.rd (Reg.RING_n_CONS n) + 1)
    { d with host := { d.host with retireN := put 16 0 d.host.retireN n (· - 1) } }

/-- Whether ring n may fetch now: enabled, bound, announced, with no error, and with room on ring 1 (R374, R402). -/
def Dev.mayFetch (d : Dev) (n : Nat) : Bool :=
  d.linkUp && d.host.bme && isSubmit n &&
    (d.retiring n || (d.rd (Reg.RING_n_PROD n) != d.rd (Reg.RING_n_CONS n) && d.ringEn n && (n == 0 || d.bound n))) &&
    !((n == 0 || n == 14) && d.flag (Reg.RING_n_STAT n) Fd.RING_n_STAT_FETCH_ERR)

/-- A descriptor x of ring n has been fetched: its completion space is held, the count advances, and it is queued or
retired (R374, R400, R402). -/
def Dev.fetched (d : Dev) (n k : Nat) (x : Desc) : Dev :=
  let d := { d with host := { d.host with resv1 := d.host.resv1 + entriesOf x.op } }
  let gone := d.retiring n
  let d := d.countOn n
  let d := d.setRing n fun r => { r with outs := r.outs ++ [k] }
  let d := (d.pmc 11 none 0 64).ringTrace (n + 16) (toLE 4 k ++ toLE 2 x.op)
  if gone then d.reject x stRETIRED else d.enqueue x

/-- The fetch of a descriptor of ring n ends in a completion error or poisoned data (R374, R402). -/
def Dev.fetchFailed (d : Dev) (n k : Nat) : Dev :=
  if n = 0 ∨ n = 14 then
    ((d.set (Reg.RING_n_STAT n) Fd.RING_n_STAT_FETCH_ERR 1).event 0x1008 (toLE 1 n ++ toLE 4 k)).msix n
  else
    let p := d.portion (n - 4)
    if p.stopped then d
    else
      let st := p.stripes.getLast?
      d.malformed (n - 4) 0x3102 ⟨0, k % 65536, 0⟩ (match st with | some s => s.sseq | none => p.sSeen)
        (match p.lastStart with | some l => l.toNat / 64 | none => 0) st.isNone true

/-- DESCRIPTOR_FETCH (R374, R402): the next descriptor of submit ring n is fetched; `bytes` is none where the fetch ends
in a completion error or poisoned data. A relayed command waits for the commands before it. -/
def descriptorFetch (n : Nat) (bytes : Option (List Byte)) (dt : Nat) (d : Dev) : Dev :=
  let d := d.after dt
  if !d.mayFetch n then d
  else
    let k := d.nextCount n
    match bytes with
    | none => d.fetchFailed n k
    | some b =>
      let x : Desc := { ring := n, count := k, body := padTo 64 b }
      let busy := n == 0 && x.relay && (!d.host.q0.isEmpty || d.host.begun.isSome || !d.host.relays.isEmpty)
      if d.ringFree 1 < d.host.resv1 + entriesOf x.op ∨ (busy ∧ !d.retiring n) then d else d.fetched n k x

/-- FETCH_ERR_CLEAR (R402): FETCH_ERR is written 1. -/
def fetchErrClear (n dt : Nat) (d : Dev) : Dev :=
  let d := d.after dt
  if d.linkUp ∧ n < 15 then d.set (Reg.RING_n_STAT n) Fd.RING_n_STAT_FETCH_ERR 0 else d

/-! ### Enabling and disabling rings (R369, R370, R400, R407) -/

/-- A write of RING_n_CTL other than its EN bit: IRQ fields always, LOG2SIZE only while EN is 0 (R369). -/
def Dev.ringFields (d : Dev) (n v : Nat) : Dev :=
  let a := Reg.RING_n_CTL n
  let d := (d.set a Fd.RING_n_CTL_IRQ_US (bits v 31 16)).set a Fd.RING_n_CTL_IRQ_CNT (bits v 15 8)
  if d.ringEn n then d else d.set a Fd.RING_n_CTL_LOG2SIZE (bits v 4 0)

/-- A write of RING_n_CTL with EN = 1 (R370, R401): both counts become 0, whatever EN was. Announced descriptors that are
still to be retired go on being so under their own counts (R400). -/
def Dev.ringEnable (d : Dev) (n v : Nat) : Dev :=
  if 15 ≤ n then d
  else
    let d := d.ringFields n v
    let d := (d.wr (Reg.RING_n_RETIRE_IDX n) 0).wr (Reg.RING_n_RETIRE_CNT n) 0
    let k := d.rd (Reg.RING_n_CONS n)
    let left := nth d.host.retireN n 0
    let d := { d with host := { d.host with retireN := put 16 0 d.host.retireN n fun _ => 0 } }
    let d := d.set (Reg.RING_n_CTL n) Fd.RING_n_CTL_EN 1
    let d := (d.wr (Reg.RING_n_PROD n) 0).wr (Reg.RING_n_CONS n) 0
    d.setRing n fun r => { r with unsig := 0, dataOfs := 0, items := [], retOld := r.retOld ++ (if left = 0 then [] else [(k, left)]) }

/-- RING_ENABLE (R370): RING_n_CTL is written with EN = 1. -/
def ringEnable (n v dt : Nat) (d : Dev) : Dev :=
  let d := d.after dt
  if d.linkUp then d.ringEnable n v else d

/-- The descriptors of ring n fetched and not begun complete with RETIRED_UNEXECUTED in count order, and those announced
do so as they are fetched (R400). -/
def Dev.retireRing (d : Dev) (n : Nat) : Dev :=
  let (mine, d) :=
    if n = 0 then
      (d.host.q0.filter (·.origin.isNone), { d with host := { d.host with q0 := d.host.q0.filter (·.origin.isSome) } })
    else if n = 14 then (d.host.q14, { d with host := { d.host with q14 := [] } })
    else
      let p := d.portion (n - 4)
      ((p.segs.filter (!·.begun)).map (·.desc) ++ p.waiting, d.updPortion (n - 4) fun p => { p with segs := p.segs.filter (·.begun), waiting := [] })
  let d := mine.foldl (fun (d : Dev) (x : Desc) => d.reject x stRETIRED) d
  let left := (d.rd (Reg.RING_n_PROD n) + 2 ^ 32 - d.rd (Reg.RING_n_CONS n)) % 2 ^ 32
  { d with host := { d.host with retireN := put 16 0 d.host.retireN n fun _ => left } }

/-- Whether any descriptor is outstanding: not completed, or its completion not yet written (R365, R400). -/
def Dev.outstanding (d : Dev) : Bool :=
  d.host.rings.any (fun r => !r.outs.isEmpty) || d.host.waitOut.any (Out.isEntryOf 1)

/-- Entries of ring n that wait to be written are dropped. -/
def Dev.dropEntries (d : Dev) (n : Nat) : Dev :=
  { d with host := { d.host with waitOut := d.host.waitOut.filter fun o => !Out.isEntryOf n o } }

/-- A write of RING_n_CTL with EN = 0 (R400). -/
def Dev.ringDisable (d : Dev) (n v : Nat) : Dev :=
  if 15 ≤ n then d
  else if !d.ringEn n then d.ringFields n v
  else
    let off := fun (d : Dev) => (d.ringFields n v).set (Reg.RING_n_CTL n) Fd.RING_n_CTL_EN 0
    let refused := d.event 0x1007 (toLE 1 n ++ toLE 1 d.top.mode.code)
    if n = 0 then off (d.retireRing 0)
    else if isSubmit n then
      if d.top.mode = .dormant ∨ d.top.mode = .configure then off (d.retireRing n) else refused
    else if n = 1 then (if d.outstanding ∨ d.host.layerResv ≠ 0 then refused else off d)
    else if n = 13 then off d
    else
      off ((d.bumpBy (Reg.RING_n_LOST n) (d.host.waitOut.filter (Out.isEntryOf n)).length).dropEntries n)

/-- RING_DISABLE (R400): RING_n_CTL is written with EN = 0. -/
def ringDisable (n v dt : Nat) (d : Dev) : Dev :=
  let d := d.after dt
  if d.linkUp then d.ringDisable n v else d

/-! ### Interrupts and bus mastering (R365, R404) -/

/-- IRQ_DELAY_EXPIRY (R404): IRQ_US µs have passed since the first unsignalled entry of ring n was written. -/
def irqDelayExpiry (n : Nat) (d : Dev) : Dev :=
  let us := d.get (Reg.RING_n_CTL n) Fd.RING_n_CTL_IRQ_US
  let r := d.ringSt n
  if !d.up ∨ 15 ≤ n ∨ us = 0 ∨ r.unsig = 0 then d
  else ((d.reachUp (r.firstUnsig + 1250 * us)).setRing n fun r => { r with unsig := 0 }).msix n

/-- BUS_MASTER_ENABLE (R365, R404): the host writes the Bus Master Enable bit, and with it the MSI-X Enable and Function
Mask bits of the configuration space. Writes that waited go out in order, and pending vectors no longer masked are
signalled. -/
def busMasterEnable (on msixEn msixMask : Bool) (dt : Nat) (d : Dev) : Dev :=
  let d := d.after dt
  if !d.host.perst then d
  else
    let d := { d with host := { d.host with bme := on, msixEn, msixMask } }
    let d := if on && !d.host.d3hot then d.sendWaiting else d
    (List.range 64).foldl (fun (d : Dev) v => d.msixRelease v) d

/-! ### Sessions (R391 to R395) -/

/-- Ring-0 opcodes that need a session (R378). -/
def needsSession (op : Nat) : Bool := !(op == 1 || op == 2 || op == 5)

/-- The session ends (R54, R395); `why` is the reason of event 0x1002. -/
def Dev.endSession (d : Dev) (why : Nat) : Dev :=
  if d.host.session.isNone then d
  else
    let d := { d with host := { d.host with session := none } }
    let d := d.event 0x1002 (toLE 1 why)
    let flushed := d.host.q0.filter fun x => needsSession x.op
    let d := { d with host := { d.host with q0 := d.host.q0.filter fun x => !needsSession x.op } }
    let d := flushed.foldl (fun (d : Dev) (x : Desc) => d.reject x stNO_SESSION) d
    match d.top.mode with
    | .configure => d.trigger .sessionEnded
    | .calibrate => d.calDropReqs stNO_SESSION
    | .expose => d.trigger (.hold 0x0D)
    | _ => d

/-- SESSION_OPEN (R52, R69, R392 to R394). -/
def sessionOpen (dt : Nat) (d : Dev) : Dev :=
  (d.after dt).cmd0 0x0001 false fun (d : Dev) (x : Desc) =>
    if d.host.session.isSome then d.reject x stBUSY
    else if !d.flag Reg.TOP_BIST Fd.TOP_BIST_PASS then d.reject x stBAD_MODE
    else
      match d.host.lockAt with
      | some a => d.complete x stLOCKED (toLE 4 ((a + 75000000000 - d.clk.up + 1249999) / 1250000))
      | none =>
        let (k, d) := d.draw
        let d := { d with host := { d.host with chal := some (k, d.clk.up), chalOrigin := x.origin.map Prod.fst } }
        d.complete x stCHALLENGE (toLE 32 (Config.challenge k).toNat)

/-- The MAC that opens a session (R392): HMAC-SHA-256 over challenge, nonce and ring set. -/
def sessionMac (key : List Byte) (k : Nat) (nonce : List Byte) (rs : Nat) : List Byte :=
  hmacSha256 key (toLE 32 (Config.challenge k).toNat ++ padTo 16 nonce ++ toLE 2 rs)

/-- A session opens (R392): rings are bound and the keepalive timer starts. -/
def Dev.openSession (d : Dev) (rs : Nat) (origin : Option Nat) : Dev :=
  { d with host := { d.host with session := some { rings := rs, origin, keepAt := d.clk.up }, fails := 0 } }

/-- The completion of SESSION_AUTH and event 0x1001 (R392, R405). -/
def Dev.authDone (d : Dev) (x : Desc) : Dev :=
  let rs := x.arg 13 12
  let d := d.endCmd x stOK (toLE 2 rs)
  d.event 0x1001 (toLE 2 rs ++ toLE 1 (b2n x.origin.isSome) ++ toLE 2 (match x.origin with | some (dev, _) => dev | none => 0))

/-- SESSION_AUTH (R392 to R394). -/
def sessionAuth (dt : Nat) (d : Dev) : Dev :=
  (d.after dt).cmd0 0x0002 false fun (d : Dev) (x : Desc) =>
    match d.host.chal with
    | none => d.complete x stAUTH_FAILED (toLE 1 d.host.fails)
    | some (k, _) =>
      if d.host.chalOrigin ≠ x.origin.map Prod.fst ∨ d.host.session.isSome then d.complete x stAUTH_FAILED (toLE 1 d.host.fails)
      else
        let d := { d with host := { d.host with chal := none } }
        let rs := x.arg 13 12
        if sessionMac d.top.otpKey k ((x.body.drop 16).take 16) rs = (x.body.drop 32).take 32 then
          let d := d.openSession rs (x.origin.map Prod.fst)
          if d.top.mode = .dormant then (d.holdCmd x).trigger .sessionOpened else d.authDone x
        else
          let n := min 5 (d.host.fails + 1)
          let d := { d with host := { d.host with fails := n } }
          let d := (d.complete x stAUTH_FAILED (toLE 1 n)).event 0x1003 (toLE 1 n)
          if n = 5 then ({ d with host := { d.host with lockAt := some d.clk.up } }).event 0x1004 [] else d

/-- SESSION_CLOSE (R54, R395): it completes when the transition that the end of the session causes has taken effect. -/
def sessionClose (dt : Nat) (d : Dev) : Dev :=
  (d.after dt).cmd0 0x0003 true fun (d : Dev) (x : Desc) =>
    let d := d.endSession 0
    match d.top.mode with
    | .hold => d.complete x stOK d.modeDetail
    | .safe => d.complete x stOK d.modeDetail
    | .dormant => d.complete x stOK d.modeDetail
    | _ => d.holdCmd x

/-- SESSION_KEEPALIVE (R395). -/
def sessionKeepalive (dt : Nat) (d : Dev) : Dev :=
  (d.after dt).cmd0 0x0004 true fun (d : Dev) (x : Desc) =>
    let f := fun (s : Session) => { s with keepAt := d.clk.up }
    ({ d with host := { d.host with session := d.host.session.map f } }).complete x stOK []

/-- NOP (R378). -/
def nop (dt : Nat) (d : Dev) : Dev := (d.after dt).cmd0 0x0005 false fun (d : Dev) (x : Desc) => d.complete x stOK []

/-- SESSION_TIMEOUT (R395): 10 s without a keepalive. -/
def sessionTimeout (d : Dev) : Dev :=
  match d.host.session with
  | some s => if d.up then (d.reachUp (s.keepAt + 12500000000)).endSession 1 else d
  | none => d

/-- CHALLENGE_EXPIRY (R393): the outstanding challenge is 1 s old. -/
def challengeExpiry (d : Dev) : Dev :=
  match d.host.chal with
  | some (_, a) =>
    let d := d.reachUp (a + 1250000000)
    { d with host := { d.host with chal := none } }
  | none => d

/-- SESSION_LOCKOUT_END (R394): 60 s have passed; it runs through every reset but the main power-on reset. -/
def sessionLockoutEnd (d : Dev) : Dev :=
  match d.host.lockAt with
  | some a =>
    let d := d.reachUp (a + 75000000000)
    { d with host := { d.host with lockAt := none, fails := 0 } }
  | none => d

/-- RELAY_TIMEOUT (R383): 100 ms without the completion of the oldest relayed command. -/
def relayTimeout (d : Dev) : Dev :=
  match d.host.relays with
  | r :: rest =>
    if !d.up then d
    else
      let d := d.reachUp (r.sentAt + 125000000)
      ({ d with host := { d.host with relays := rest } }).reject r.desc stRELAY_FAILED
  | [] => d

/-! ### Commands that change the mode (R52, R61) and LIB_VALIDATE (R108) -/

/-- MODE_SET (R52, R60, R61): the transition is registered; it takes effect, or the command fails, at a tick edge. -/
def modeSet (dt : Nat) (d : Dev) : Dev :=
  (d.after dt).cmd0 0x0010 true fun (d : Dev) (x : Desc) =>
    match Mode.ofCode (x.arg 12 12) with
    | some m => (d.holdCmd x).trigger (.modeSet m)
    | none => d.reject x stBAD_ARG

/-- RESUME (R57, R61). -/
def resume (dt : Nat) (d : Dev) : Dev := (d.after dt).cmd0 0x0011 true fun (d : Dev) (x : Desc) => (d.holdCmd x).trigger .resume

/-- LIB_VALIDATE (R108, R164): the spare Thresher is asked to check a library, with the base and limit as last written. -/
def libValidate (dt : Nat) (d : Dev) : Dev :=
  (d.after dt).cmd0 0x0020 true fun (d : Dev) (x : Desc) =>
    if !d.spareEn then d.reject x stBAD_MODE
    else
      let i := x.arg 12 12
      let p := nth d.sheaf.libInForce i (0, 0)
      let v : LibCheck := { desc := x, base := p.1 + 2 ^ 32 * p.2, lib := i, limit := d.get Reg.THR_LIB_LIMIT Fd.THR_LIB_LIMIT_LIMIT }
      (({ d with sheaf := { d.sheaf with lib := some v } }).holdCmd x)

end Sys2Proof.Machine
end

