-- ==== Sys2Proof/Machine/Krypel.lean ====
section
/-!
DEFINITION. The Krypel fabric (chapter 16): links, credits and replay, routing, enumeration, and what frames bring to
this device.
-/
namespace Sys2Proof.Machine

/-- A fabric port. -/
def Dev.port (d : Dev) (p : Nat) : KPort := nth d.kry.ports p {}

/-- Change a fabric port. -/
def Dev.setPort (d : Dev) (p : Nat) (f : KPort → KPort) : Dev := { d with kry := { d.kry with ports := put 4 {} d.kry.ports p f } }

/-- Receive buffer B_v of a virtual lane, in flits (R511). -/
def bufOf (v : Nat) : Nat := match v with | 0 => 64 | 1 => 64 | 2 => 256 | _ => 512

/-- The ports UP or DEGRADED, as a mask (R505). -/
def Dev.liveMask (d : Dev) : Nat := sumN ((List.range 4).map fun p => if (d.port p).st.live then 2 ^ p else 0)

/-- The ports quarantined, as a mask (R505). -/
def Dev.quarMask (d : Dev) : Nat := sumN ((List.range 4).map fun p => if (d.port p).st == .quarantined then 2 ^ p else 0)

/-- Whether the map is confirmed (R506). -/
def Dev.confirmed (d : Dev) : Bool := d.flag Reg.KRY_ID Fd.KRY_ID_CONFIRMED

/-- Whether this device's ID is assigned. -/
def Dev.idValid (d : Dev) : Bool := d.flag Reg.KRY_ID Fd.KRY_ID_VALID

/-- The enumeration generation. -/
def Dev.gen (d : Dev) : Nat := d.get Reg.KRY_ID Fd.KRY_ID_GEN

/-! ### Control flits (R489, R490, R496 to R499) -/

/-- The 16 bytes of a control flit whose bits [95:0] are v: CHK follows (R490). -/
def mkFlit (v : Nat) : List Byte := let b := toLE 12 v; b ++ toLE 4 (crc32 b)

/-- Whether a received control flit has this FTYPE, no bit of `resv` set and the right CHK (R490). -/
def flitOk (w ftype resv : Nat) : Bool := w % 256 == ftype && w &&& resv == 0 && (w >>> 96) % 2 ^ 32 == crc32 (toLE 12 w)

/-- Send a control flit on a port. -/
def Dev.flitOut (d : Dev) (p v : Nat) : Dev := (d.send (.flit p (v % 256) (mkFlit v))).pmc 13 (some p) 4 1

/-- A control flit that fails its check, or a frame with a wrong CRC, is discarded and counted (R490, R493). -/
def Dev.badFlit (d : Dev) (p : Nat) : Dev :=
  (d.bump (Reg.KRY_p_CRCERR p)).setPort p fun x => { x with errs := (d.clk.up :: x.errs).take 17 }

/-- Whether more than 16 errors have occurred within the last 1 ms (R493). -/
def KPort.noisy (x : KPort) (now : Nat) : Bool := x.errs.length == 17 && x.errs.all fun e => decide (now ≤ e + 1250000)

/-- Send TRAIN at a speed (R491): all speeds are supported. -/
def Dev.sendTrain (d : Dev) (p speed : Nat) (ready : Bool) : Dev :=
  d.flitOut p (0xC3 + speed * 2 ^ 8 + b2n ready * 2 ^ 10 + 7 * 2 ^ 12)

/-- Send HELLO (R497). -/
def Dev.sendHello (d : Dev) (p : Nat) : Dev :=
  d.flitOut p (0x3C + b2n d.isRoot * 2 ^ 8 + b2n d.isMaster * 2 ^ 9 + p * 2 ^ 10 + b2n (d.port p).fresh * 2 ^ 12 +
    d.top.otpSerial % 2 ^ 64 * 2 ^ 32)

/-- Send ENUM with this device's ID (R498). -/
def Dev.sendEnum (d : Dev) (p : Nat) (confirm : Bool) : Dev :=
  d.flitOut p (0x66 + d.id * 2 ^ 8 + d.gen * 2 ^ 20 + b2n confirm * 2 ^ 28 + d.kry.rootSerial % 2 ^ 64 * 2 ^ 32)

/-- Send ENUM on every UP or DEGRADED port but one (R504). -/
def Dev.floodEnum (d : Dev) (except_ : Nat) (confirm : Bool) : Dev :=
  (List.range 4).foldl (fun (d : Dev) p => if p ≠ except_ ∧ (d.port p).st.live then d.sendEnum p confirm else d) d

/-- Send the next IDLE (R496): it carries ACK, NAK and the counters of one pair of virtual lanes. -/
def Dev.sendIdle (d : Dev) (p : Nat) (nak : Bool) : Dev :=
  let x := d.port p
  let v := if x.pair then 2 else 0
  let d := d.setPort p fun x => { x with pair := !x.pair }
  d.flitOut p (0x0F + b2n x.pair * 2 ^ 8 + b2n nak * 2 ^ 9 + x.fseqRx * 2 ^ 16 + d.rd (Reg.KRY_p_ADV_v p v) * 2 ^ 32 +
    d.rd (Reg.KRY_p_ADV_v p (v + 1)) * 2 ^ 64)

/-! ### The map at the ROOT (R505) -/

/-- The ROOT writes a report of the present generation into its map entry and counts it (R505). -/
def Dev.mapTake (d : Dev) (b : List Byte) : Dev :=
  let id := fieldLE b 9 8 % 4096
  let info := Reg.KRY_MAP_d_INFO id
  let fresh := !d.flag info Fd.KRY_MAP_d_INFO_VALID
  let f := byteAt b 10
  let l := byteAt b 11
  let d := (d.wr (Reg.KRY_MAP_d_SER_LO id) (fieldLE b 3 0)).wr (Reg.KRY_MAP_d_SER_HI id) (fieldLE b 7 4)
  let d := d.wr info (2 ^ 31 + bits f 2 2 * 2 ^ 30 + bits f 0 0 * 2 ^ 29 + bits f 1 1 * 2 ^ 28 + l % 16 * 2 ^ 24 + l / 16 % 16 * 2 ^ 20)
  let any := d.rf.any fun e => decide (0xD10000 ≤ e.1) && decide (e.1 < 0xD20000) && e.1 % 16 == 8 && bit e.2.toNat 30
  let d := d.set Reg.KRY_MAP_COUNT Fd.KRY_MAP_COUNT_ANY_CONFLICT (b2n any)
  if fresh then d.set Reg.KRY_MAP_COUNT Fd.KRY_MAP_COUNT_COUNT (d.get Reg.KRY_MAP_COUNT Fd.KRY_MAP_COUNT_COUNT + 1) else d

/-- The payload of a MAP_REPORT (R505). -/
def Dev.reportBytes (d : Dev) : List Byte :=
  toLE 8 d.top.otpSerial ++ toLE 2 d.id ++
    toLE 1 (b2n d.isRoot + 2 * b2n d.isMaster + 4 * d.get Reg.KRY_ID Fd.KRY_ID_CONFLICT) ++
    toLE 1 (d.liveMask + 16 * d.quarMask) ++ toLE 4 0

/-- A device whose ID is assigned reports when its conflict state or its links change (R505). -/
def Dev.mapReport (d : Dev) : Dev :=
  let now := (d.get Reg.KRY_ID Fd.KRY_ID_CONFLICT, d.liveMask + 16 * d.quarMask)
  if !d.idValid ∨ d.kry.reported = some now then d
  else
    let d := { d with kry := { d.kry with reported := some now } }
    if d.isRoot then d.mapTake d.reportBytes
    else d.kSend { vl := 2, plen := 1, dst := 0, src := d.id, ptype := 0x22, arg := d.gen, payload := d.reportBytes }

/-! ### Routing and sending (R494, R509 to R514, R516, R529) -/

/-- The set of links that carry traffic may have changed (R505, R526). -/
def Dev.linksChanged (d : Dev) : Dev := d.timeRole.mapReport

/-- The answer of the routing function of R509: a port, or none for this device. -/
def Dev.kRoute (d : Dev) (dst : Nat) : Option Nat :=
  let me := d.id
  let hit := fun (e : Nat) => bit e 31 && (dst &&& bits e 27 16) == (bits e 11 0 &&& bits e 27 16)
  if dst = me then none
  else
    match d.kry.route.find? hit with
    | some e => some (bits e 29 28)
    | none =>
      if me % 64 < dst % 64 then some 1 else if dst % 64 < me % 64 then some 3
      else if me / 64 < dst / 64 then some 2 else some 0

/-- Discard a frame (R516, R522): reasons 0 format, 1 no route, 2 hops, 3 unconfirmed, 4 refused. -/
def Dev.kDiscard (d : Dev) (reason : Nat) (f : KFrame) : Dev :=
  (d.bump Reg.KRY_DISCARD).eventLim 0 0xD108 (toLE 1 reason ++ toLE 1 f.vl ++ toLE 2 f.dst ++ toLE 2 f.src ++ toLE 1 f.ptype)

/-- Flits leave the receive buffer of a port: its advertised counter advances (R514). -/
def Dev.freeBuf (d : Dev) (p : Nat) (f : KFrame) : Dev :=
  d.wr (Reg.KRY_p_ADV_v p f.vl) (d.rd (Reg.KRY_p_ADV_v p f.vl) + f.flits)

/-- Whether the consumer of a frame in this device refuses it (R502, R505, R517). -/
def Dev.kRefuses (d : Dev) (f : KFrame) : Bool :=
  match f.ptype with
  | 0x10 => !(f.src / 64 == d.id / 64 && (f.src % 64 + 1 == d.id % 64 || d.id % 64 + 1 == f.src % 64))
  | 0x20 => f.poison
  | 0x21 => f.poison
  | 0x22 => !d.isRoot
  | 0x30 => f.poison
  | 0x31 => f.poison
  | _ => false

/-- Deliver a frame to this device's consumers, or refuse it (R516). -/
def Dev.kDeliver (d : Dev) (p : Nat) (f : KFrame) : Dev :=
  if d.kRefuses f then d.kDiscard 4 f
  else
    let k : KIn := { port := p, frame := f, ns := d.ns, sTick := d.ra.sTick, at_ := d.clk.now }
    { d with kin := d.kin ++ [k] }

/-- Whether a link in this state loses the frames routed to it (R494). -/
def KSt.dead : KSt → Bool
  | .down => true | .disabled => true | .quarantined => true | _ => false

/-- The 16-byte chunks of a payload as flits, n of them. -/
def payloadFlits : Nat → List Byte → List (BitVec 128)
  | 0, _ => []
  | n + 1, b => BitVec.ofNat 128 (fieldLE b 15 0) :: payloadFlits n (b.drop 16)

/-- Bits [127:0] of the SOF flit of a frame (R500). -/
def KFrame.sof (f : KFrame) : Nat :=
  0xA5 + f.vl % 4 * 2 ^ 8 + b2n f.bcast * 2 ^ 10 + b2n f.poison * 2 ^ 11 + f.plen % 32 * 2 ^ 12 + f.dst % 4096 * 2 ^ 20 +
    f.src % 4096 * 2 ^ 32 + f.hops % 128 * 2 ^ 44 + f.ptype % 256 * 2 ^ 56 + f.arg % 2 ^ 64 * 2 ^ 64

/-- The flits of a frame as it goes out with an FSEQ (R500, R501): SOF, the payload, and EOF with its CRC. -/
def frameFlits (f : KFrame) (fseq : Nat) : List (BitVec 128) :=
  let body := padTo (16 * f.plen) f.payload
  let e := 0x5A + fseq % 65536 * 2 ^ 8
  let crc := crc32 (toLE 16 f.sof ++ body ++ toLE 3 e)
  BitVec.ofNat 128 f.sof :: payloadFlits f.plen body ++ [BitVec.ofNat 128 (e + crc * 2 ^ 24)]

/-- Send a frame on a port. -/
def Dev.frameOut (d : Dev) (p fseq : Nat) (f : KFrame) : Dev := (d.send (.frame p fseq f (frameFlits f fseq))).pmc 13 (some p) 4 f.flits

/-- A waiting copy of a frame leaves; with the last copy its flits leave the receive buffer. -/
def Dev.kLeaves (d : Dev) (x : KOut) : Dev :=
  let d := { d with kq := d.kq.erase x }
  match x.inp with
  | some q => if d.kq.any (·.key == x.key) then d else d.freeBuf q x.frame
  | none => d

/-- The copies of broadcasts that wait for a port whose link goes down are discarded (R521). -/
def Dev.kDropCopies (d : Dev) (p : Nat) : Dev :=
  (d.kq.filter fun x => x.out == p && x.frame.bcast).foldl (fun (d : Dev) x => d.kLeaves x) d

/-- The frame as it departs now: a time message of this device carries the departure, one passed on its residence time and
the delay of the link it came by (R528, R529). -/
def Dev.departing (d : Dev) (x : KOut) : KFrame :=
  if x.frame.ptype ≠ 0x02 then x.frame
  else
    let b := x.frame.payload
    match x.inp with
    | none => { x.frame with payload := toLE 8 d.ns ++ toLE 4 d.clk.now ++ b.drop 12 }
    | some q =>
      let corr := toS 64 (fieldLE b 19 12) + (((d.clk.now - x.at_) / 65536 : Nat) : Int) + d.rd (Reg.KRY_p_LINKDLY q) * 4096
      { x.frame with payload := b.take 12 ++ toLES 8 corr ++ b.drop 20 }

/-- Send one waiting frame on port p (R501, R512, R514). -/
def Dev.kEmit (d : Dev) (p : Nat) (x : KOut) : Dev :=
  let f := d.departing x
  let y := d.port p
  let d := d.wr (Reg.KRY_p_SENT_v p f.vl) (d.rd (Reg.KRY_p_SENT_v p f.vl) + f.flits)
  let waits := fun (v : Nat) => d.kq.any fun z => z.out == p && z.frame.vl == v
  let starve := y.starve.mapIdx fun v n => if v = f.vl then 0 else if f.vl < v && waits v then n + 1 else n
  let d := d.setPort p fun y => { y with
    fseqTx := (y.fseqTx + 1) % 65536, replay := y.replay ++ [(y.fseqTx, f)], starve
    ackAt := if y.replay.isEmpty then d.clk.up else y.ackAt }
  (d.frameOut p y.fseqTx f).kLeaves x

/-- Whether port p may send this frame now: credit and replay space (R512, R514). -/
def Dev.mayEmit (d : Dev) (p : Nat) (f : KFrame) : Bool :=
  let c := d.rd (Reg.KRY_p_LIMIT_v p f.vl)
  let s := d.rd (Reg.KRY_p_SENT_v p f.vl)
  decide (f.flits ≤ (c + 2 ^ 32 - s) % 2 ^ 32) && decide (sumN ((d.port p).replay.map fun x => x.2.flits) + f.flits ≤ 1024)

/-- The frame port p sends next: the first of the lowest virtual lane that may send, but one that has waited while 32
frames of higher lanes were sent goes before (R511). -/
def Dev.kNext (d : Dev) (p : Nat) : Option KOut :=
  let heads := (List.range 4).filterMap fun v => d.kq.find? fun x => x.out == p && x.frame.vl == v
  let able := heads.filter fun x => d.mayEmit p x.frame
  match able.find? fun x => decide (32 ≤ nth (d.port p).starve x.frame.vl 0) with
  | some x => some x
  | none => able.head?

/-- Send what port p can send; `n` bounds the frames. The credits of R515 are kept by the two counts; the delays of
R520 are not. -/
def Dev.kPumpPort (d : Dev) (p : Nat) : Nat → Dev
  | 0 => d
  | n + 1 =>
    if !(d.port p).st.live then d
    else
      match d.kNext p with
      | some x => (d.kEmit p x).kPumpPort p n
      | none => d

/-- Copies of a broadcast for the ports of a mask whose links are UP or DEGRADED (R510). -/
def Dev.kCopies (d : Dev) (mask : Nat) (x : KOut) : List KOut :=
  ((List.range 4).filter fun p => bit mask p && (d.port p).st.live).map fun p => { x with out := p }

/-- Route one frame that waits unrouted; a device that is not confirmed sends MAP_REPORT only (R505, R509, R510). -/
def Dev.kRouteOwn (d : Dev) (x : KOut) : Dev :=
  if x.frame.ptype ≠ 0x22 ∧ !d.confirmed then d
  else if x.frame.bcast then { d with kq := d.kq ++ d.kCopies (d.get Reg.KRY_BCAST Fd.KRY_BCAST_ORIGIN) x }
  else
    match d.kRoute x.frame.dst with
    | none => d.kDeliver 4 x.frame
    | some q => if (d.port q).st.dead then d.kDiscard 1 x.frame else { d with kq := d.kq ++ [{ x with out := q }] }

/-- The fabric takes this device's own frames and sends what the links allow. -/
def Dev.kPump (d : Dev) : Dev :=
  let own := d.kq.filter (·.out == 4)
  let d := { d with kq := d.kq.filter (·.out != 4) }
  let d := own.foldl (fun (d : Dev) x => d.kRouteOwn x) d
  [0, 1, 2, 3].foldl (fun (d : Dev) p => d.kPumpPort p d.kq.length) d

/-! ### Link bring-up and retrain (R491 to R494) -/

/-- The rate a step trains, as its SPEED code in TRAIN. -/
def stepSpeed (step : Nat) : Nat := match step with | 3 => 1 | 4 => 2 | _ => 0

/-- The step that a fast retrain repeats: that of the rate last trained (R493). -/
def KPort.again (x : KPort) : Nat := match x.rate with | 3 => 4 | 2 => 3 | _ => 1

/-- A bring-up step begins; it sends TRAIN or HELLO. The HELLO exchange of a fast retrain falls within that one's limit
(R493). -/
def Dev.kStep (d : Dev) (p step : Nat) : Dev :=
  let d := d.setPort p fun x => { x with step, stepAt := if step = 5 then x.stepAt else d.clk.up }
  if step = 2 ∨ step = 5 then d.sendHello p else d.sendTrain p (stepSpeed step) false

/-- Bring-up begins at step 1 (R491). -/
def Dev.kBringup (d : Dev) (p : Nat) : Dev :=
  (d.setPort p fun x => { x with st := .training, fails := 0, rate := 0, speeds := 0 }).kStep p 1

/-- The link is UP or DEGRADED at the last rate trained (R491, R492): ENUM and MAP_REPORT follow (R504, R505). -/
def Dev.kLive (d : Dev) (p : Nat) : Dev :=
  let d := d.setPort p fun x => { x with
    st := if x.rate = 3 then .up else .degraded, step := 0, fails := 0, fresh := false, idleAt := d.clk.up, ackAt := d.clk.up }
  d.linksChanged

/-- Step 5 of bring-up (R491): event 0xD101, and the unacknowledged frames are replayed. -/
def Dev.kUp (d : Dev) (p : Nat) : Dev :=
  let d := d.kLive p
  let d := (d.event 0xD101 (toLE 1 p ++ toLE 1 (d.port p).rate)).msix 59
  let d := (d.port p).replay.foldl (fun (d : Dev) x =>
    (d.bump (Reg.KRY_p_REPLAY p)).frameOut p x.1 x.2) d
  if d.idValid then d.sendEnum p false else d

/-- Whether MAXSPEED and the SPEEDS of the far end allow a rate (R491). -/
def Dev.kCan (d : Dev) (p speed : Nat) : Bool :=
  decide (speed ≤ min 2 (d.port p).maxNow) && bit (d.port p).speeds speed

/-- The step after HELLO or after a rate has been trained. -/
def Dev.kAdvance (d : Dev) (p step : Nat) : Dev :=
  let d := d.setPort p fun x => { x with fails := 0 }
  if step < 3 ∧ d.kCan p 1 then d.kStep p 3 else if step < 4 ∧ d.kCan p 2 then d.kStep p 4 else d.kUp p

/-- KRY_PORT_ENABLE (R491): a port with EN = 1 whose link is down begins bring-up. -/
def kryPortEnable (p dt : Nat) (d : Dev) : Dev :=
  let d := d.after dt
  let x := d.port p
  if d.up ∧ p < 4 ∧ x.enNow ∧ (x.st = .down ∨ x.st = .disabled) then d.kBringup p else d

/-- The replay buffer of a port is discarded and counted (R494, R497). -/
def Dev.kDropReplay (d : Dev) (p : Nat) : Nat × Dev :=
  let n := (d.port p).replay.length
  (n, (d.bumpBy (Reg.KRY_p_DROP p) n).setPort p fun x => { x with replay := [], replays := 0 })

/-- A link enters fast retrain (R493); an eye scan in progress ends without a result (R521). -/
def Dev.kRetrain (d : Dev) (p reason : Nat) : Dev :=
  if !(d.port p).st.live then d
  else
    let d := d.setPort p fun x => { x with st := .retraining, fails := 0, eye := none, replays := 0 }
    let d := (d.set (Reg.KRY_p_EYE_CTL p) Fd.KRY_p_EYE_CTL_BUSY 0).bump (Reg.KRY_p_RETRAIN p)
    let d := d.event 0xD103 (toLE 1 p ++ toLE 1 reason)
    (d.kStep p (d.port p).again).linksChanged

/-- What KRY_p_CTL was written with comes into force at a tick edge (R523). -/
def Dev.kryEdge (d : Dev) : Dev :=
  (List.range 4).foldl (fun (d : Dev) p =>
    let x := d.port p
    if !x.ctlPend && !x.rtPend then d
    else
      let en := d.flag (Reg.KRY_p_CTL p) Fd.KRY_p_CTL_EN
      let top := d.get (Reg.KRY_p_CTL p) Fd.KRY_p_CTL_MAXSPEED
      let d := d.setPort p fun x => { x with ctlPend := false, rtPend := false, enNow := en, maxNow := top }
      if !en ∧ x.st ≠ .disabled then
        (((d.kDropReplay p).2.setPort p fun x => { x with st := .disabled, step := 0 }).kDropCopies p).linksChanged
      else if en ∧ x.rtPend then d.kRetrain p 4 else d) d

/-- A write of KRY_p_CTL (R523, R524). -/
def Dev.kryCtl (d : Dev) (p v : Nat) : Dev :=
  let d := (d.set (Reg.KRY_p_CTL p) Fd.KRY_p_CTL_MAXSPEED (bits v 3 2)).set (Reg.KRY_p_CTL p) Fd.KRY_p_CTL_EN (bits v 0 0)
  d.setPort p fun x => { x with ctlPend := true, rtPend := x.rtPend || bit v 1 }

/-- KRY_PORT_DISABLE (R494): KRY_p_CTL is written with EN = 0, in force at the next tick edge. -/
def kryPortDisable (p v dt : Nat) (d : Dev) : Dev :=
  let d := d.after dt
  if d.hostOk ∧ p < 4 ∧ !bit v 0 then d.kryCtl p v else d

/-- KRY_RETRAIN (R493): KRY_p_CTL is written with RETRAIN = 1, in force at the next tick edge. -/
def kryRetrain (p v dt : Nat) (d : Dev) : Dev :=
  let d := d.after dt
  if d.hostOk ∧ p < 4 ∧ bit v 1 then d.kryCtl p v else d

/-- FAST_RETRAIN (R493): block lock is lost (reason 0) or errors exceed 16 in 1 ms (reason 1). -/
def fastRetrain (p reason dt : Nat) (d : Dev) : Dev :=
  let d := d.after dt
  if d.up ∧ p < 4 ∧ (reason = 0 ∨ (reason = 1 ∧ (d.port p).noisy d.clk.up)) then d.kRetrain p reason else d

/-- KRY_IDLE_TIMEOUT (R493): no valid IDLE for 10 µs. -/
def kryIdleTimeout (p : Nat) (d : Dev) : Dev :=
  let x := d.port p
  if d.up ∧ p < 4 ∧ x.st.live then (d.reachUp (x.idleAt + 12500)).kRetrain p 3 else d

/-- The limit of a bring-up step, in core cycles (R491, R493). -/
def stepLimit (x : KPort) : Nat :=
  if x.st = .retraining then 125000 else match x.step with | 1 => 1250000 | 2 => 1250000 | 3 => 6250000 | _ => 25000000

/-- KRY_BRINGUP_STEP_TIMEOUT (R492, R493): a step, or a fast retrain, misses its limit and is repeated; the third failure leaves the link at the
last rate trained or DOWN, and after fast retrain restarts bring-up. -/
def kryBringupStepTimeout (p : Nat) (d : Dev) : Dev :=
  let x := d.port p
  if !d.up ∨ 4 ≤ p ∨ x.step = 0 then d
  else
    let d := d.reachUp (x.stepAt + stepLimit x)
    if x.fails < 2 then
      (d.setPort p fun x => { x with fails := x.fails + 1 }).kStep p (if x.st = .retraining then x.again else x.step)
    else if x.st = .retraining then d.kBringup p
    else
      let d := if x.rate = 0 then (d.setPort p fun x => { x with st := .down, step := 0, fails := 0 }).kDropCopies p else d.kLive p
      (d.event 0xD102 (toLE 1 p ++ toLE 1 x.step ++ toLE 1 x.rate)).msix 59

/-- TRAIN (R491): a TRAIN flit arrives; `mine` says that this device's receivers are ready. A step ends when both ends have
sent READY at its speed. -/
def train (p w : Nat) (mine : Bool) (dt : Nat) (d : Dev) : Dev :=
  let d := d.after dt
  let x := d.port p
  if !d.up ∨ 4 ≤ p ∨ !(x.step = 1 ∨ x.step = 3 ∨ x.step = 4) then d
  else if !flitOk w 0xC3 (2 ^ 96 - 2 ^ 15 + 0x0800) then d.badFlit p
  else
    let d := d.sendTrain p (stepSpeed x.step) mine
    let d := if x.step = 1 then d.setPort p fun x => { x with speeds := bits w 14 12 } else d
    if bits w 9 8 ≠ stepSpeed x.step ∨ !bit w 10 ∨ !mine then d
    else
      let d := d.setPort p fun x => { x with rate := stepSpeed x.step + 1, fails := 0 }
      if x.st = .retraining then d.kStep p 5
      else if x.step = 1 then d.kStep p 2
      else d.kAdvance p x.step

/-- A link is quarantined (R497, R507). -/
def Dev.kQuarantine (d : Dev) (p why serial : Nat) : Dev :=
  let d := d.setPort p fun x => { x with st := .quarantined, step := 0 }
  ((d.event 0xD104 (toLE 1 p ++ toLE 1 why ++ toLE 8 serial)).msix 59).linksChanged

/-- A new link epoch (R497): every counter returns to its initial value and the replay buffer is discarded. -/
def Dev.kEpoch (d : Dev) (p : Nat) : Dev :=
  let (n, d) := d.kDropReplay p
  let d := d.setPort p fun x => { x with fseqTx := 0, fseqRx := 65535 }
  let d := (List.range 4).foldl (fun (d : Dev) v =>
    ((d.wr (Reg.KRY_p_SENT_v p v) 0).wr (Reg.KRY_p_LIMIT_v p v) (bufOf v)).wr (Reg.KRY_p_ADV_v p v) (bufOf v)) d
  let d := { d with kq := d.kq.map fun x => if x.inp = some p then { x with inp := none } else x }
  if n = 0 then d else d.event 0xD105 (toLE 1 p ++ toLE 2 n)

/-- Whether a received flit is a sound HELLO (R496, R497). -/
def helloOk (w : Nat) : Bool := flitOk w 0x3C (2 ^ 32 - 2 ^ 13)

/-- Whether a neighbour starts with a new epoch: it says so, or it is another device (R497). -/
def newNeighbour (x : KPort) (w serial : Nat) : Bool :=
  bit w 12 || (match x.nbr with | some (s, _) => s != serial | none => true)

/-- A neighbour of an identity that may stand at this port (R497, R507); x is the port before the flit. -/
def Dev.helloKnown (d : Dev) (p : Nat) (x : KPort) (serial : Nat) : Dev :=
  if d.confirmed ∧ x.conf.isNone then d.kQuarantine p 2 serial
  else if d.confirmed ∧ x.conf ≠ some serial then d.kQuarantine p 1 serial
  else if x.step = 2 then d.kAdvance p 2
  else (d.kLive p).kPump

/-- The neighbour that a HELLO names (R497). -/
def Dev.helloFrom (d : Dev) (p w serial : Nat) : Dev :=
  ((d.setPort p fun x => { x with nbr := some (serial, bit w 8, bit w 9) }).wr (Reg.KRY_p_NBR_LO p) serial).wr (Reg.KRY_p_NBR_HI p) (serial / 2 ^ 32)

/-- A sound HELLO: the neighbour's identity is checked (R497, R507). -/
def Dev.helloIn (d : Dev) (p w serial : Nat) : Dev :=
  let x := d.port p
  let d := d.helloFrom p w serial
  if bits w 11 10 ≠ (p + 2) % 4 then d.kQuarantine p 0 serial
  else (if newNeighbour x w serial then d.kEpoch p else d).helloKnown p x serial

/-- HELLO (R497, R507): the neighbour's identity is checked. -/
def hello (p w dt : Nat) (d : Dev) : Dev :=
  let d := d.after dt
  if !d.up ∨ 4 ≤ p ∨ !((d.port p).step = 2 ∨ (d.port p).step = 5) then d
  else if !helloOk w then d.badFlit p
  else d.helloIn p w (bits w 95 32)

/-! ### Acknowledgement and replay (R512, R513) -/

/-- Every unacknowledged frame is replayed in order; the eighth replay of a frame sends the link into fast retrain (R493,
R513). -/
def Dev.kReplay (d : Dev) (p : Nat) : Dev :=
  let x := d.port p
  if x.replay.isEmpty then d
  else
    let d := x.replay.foldl (fun (d : Dev) y =>
      (d.bump (Reg.KRY_p_REPLAY p)).frameOut p y.1 y.2) d
    let d := d.setPort p fun x => { x with replays := x.replays + 1, ackAt := d.clk.up }
    if 8 ≤ x.replays + 1 then d.kRetrain p 2 else d

/-- IDLE (R496, R513, R514): ACK, NAK and the credit counters of the neighbour. -/
def idle (p w dt : Nat) (d : Dev) : Dev :=
  let d := d.after dt
  let x := d.port p
  if !d.up ∨ 4 ≤ p ∨ !x.st.linked then d
  else if !flitOk w 0x0F (2 ^ 16 - 2 ^ 10) then d.badFlit p
  else
    let v := if bit w 8 then 2 else 0
    let d := (d.wr (Reg.KRY_p_LIMIT_v p v) (bits w 63 32)).wr (Reg.KRY_p_LIMIT_v p (v + 1)) (bits w 95 64)
    let ack := bits w 31 16
    let left := x.replay.filter fun y => !decide ((ack + 65536 - y.1) % 65536 < 32768)
    let moved := left.length != x.replay.length
    let d := d.setPort p fun x => { x with
      idleAt := d.clk.up, replay := left, ackAt := if moved then d.clk.up else x.ackAt, replays := if moved then 0 else x.replays }
    (if bit w 9 && x.st.live then d.kReplay p else d).kPump

/-- KRY_ACK_TIMEOUT (R513): ACK has not advanced for 2 µs with frames unacknowledged. -/
def kryAckTimeout (p : Nat) (d : Dev) : Dev :=
  let x := d.port p
  if d.up ∧ p < 4 ∧ x.st.live ∧ !x.replay.isEmpty then (d.reachUp (x.ackAt + 2500)).kReplay p else d

/-! ### Frames (R500 to R502, R509, R510, R513, R516) -/

/-- The frame a list of flits spells, SOF first and EOF last: the frame, FSEQ, and whether a reserved bit is set; none
where the length or the CRC is wrong (R500, R501). -/
def frameOf (flits : List (BitVec 128)) : Option (KFrame × Nat × Bool) :=
  match flits.head?, flits.getLast? with
  | some s, some e =>
    let s := s.toNat
    let e := e.toNat
    let plen := bits s 16 12
    let body := ((flits.drop 1).take plen).flatMap fun x => toLE 16 x.toNat
    if flits.length ≠ plen + 2 ∨ s % 256 ≠ 0xA5 ∨ e % 256 ≠ 0x5A then none
    else if crc32 (toLE 16 s ++ body ++ toLE 3 e) ≠ bits e 55 24 then none
    else
      some ({ vl := bits s 9 8, bcast := bit s 10, poison := bit s 11, plen, dst := bits s 31 20, src := bits s 43 32
              hops := bits s 50 44, ptype := bits s 63 56, arg := bits s 127 64, payload := body },
            bits e 23 8, bits s 19 17 != 0 || bits s 55 51 != 0 || bits e 127 56 != 0)
  | _, _ => none

/-- Whether PTYPE, VL, BCAST and PLEN match a row of R502, and a broadcast has DST 0 (R500). -/
def KFrame.formatOk (f : KFrame) : Bool :=
  let row := fun (vl : Nat) (bc : Bool) (plen : Nat) => f.vl == vl && f.bcast == bc && f.plen == plen && (!bc || f.dst == 0)
  match f.ptype with
  | 0x01 => row 0 true 2
  | 0x02 => row 0 true 2
  | 0x10 => row 1 false 2
  | 0x20 => row 2 false 4
  | 0x21 => row 2 false 4
  | 0x22 => row 2 false 1
  | 0x30 => row 3 false 4
  | 0x31 => row 3 false 4
  | _ => false

/-- The ports a broadcast that arrived on port p goes on to (R510). -/
def Dev.bcastMask (d : Dev) (p : Nat) : Nat := bits (d.rd Reg.KRY_BCAST) (4 * p + 7) (4 * p + 4)

/-- An accepted frame is routed (R494, R509, R510, R516). HOPS counts the links crossed and would exceed 127 on the next
one only: a frame that has arrived is delivered. -/
def Dev.kTake (d : Dev) (p : Nat) (f : KFrame) (resv : Bool) : Dev :=
  let drop := fun (d : Dev) (reason : Nat) => (d.freeBuf p f).kDiscard reason f
  if resv || !f.formatOk then drop d 0
  else if f.ptype ≠ 0x22 ∧ !d.confirmed then drop d 3
  else
    let g := { f with hops := f.hops + 1 }
    let x : KOut := { out := 4, frame := g, inp := some p, key := d.kry.nextKey, at_ := d.clk.now }
    let d := { d with kry := { d.kry with nextKey := d.kry.nextKey + 1 } }
    if f.bcast then
      let copies := d.kCopies (d.bcastMask p) x
      let far := decide (127 < g.hops)
      let d := if copies.isEmpty || far then d.freeBuf p f else d
      let d := if !copies.isEmpty && far then d.kDiscard 2 f else d
      ({ d with kq := if far then d.kq else d.kq ++ copies }).kDeliver p f
    else
      match d.kRoute f.dst with
      | none => (d.freeBuf p f).kDeliver p f
      | some q =>
        if q = p ∨ (d.port q).st.dead then drop d 1
        else if 127 < g.hops then drop d 2
        else { d with kq := d.kq ++ [{ x with out := q }] }

/-- FRAME_FORWARD (R501, R513): a routed frame has arrived whole on port p. -/
def frameForward (p : Nat) (flits : List (BitVec 128)) (dt : Nat) (d : Dev) : Dev :=
  let d := d.after dt
  let x := d.port p
  if !d.up ∨ 4 ≤ p ∨ !x.st.live then d
  else
    let d := d.pmc 14 (some p) 4 flits.length
    match frameOf flits with
    | none => (d.badFlit p).sendIdle p true
    | some (f, fseq, resv) =>
      let next := (x.fseqRx + 1) % 65536
      if fseq = next then
        let d := d.setPort p fun x => { x with fseqRx := fseq }
        ((d.kTake p f resv).sendIdle p false).kPump
      else d.sendIdle p (!decide ((x.fseqRx + 65536 - fseq) % 65536 < 32768))

/-! ### Link delay and eye scans (R495, R499) -/

/-- DLY requests go out now (R499). -/
def Dev.dlyNow (d : Dev) : Dev := { d with kry := { d.kry with dlyLast := d.clk.up } }

/-- DLY_PERIOD (R499): 1 ms after the last ones, a DLY request goes out on every live port. -/
def dlyPeriod (dt : Nat) (d : Dev) : Dev :=
  let d := d.after dt
  if !d.up then d
  else
    let d := (d.reachUp (d.kry.dlyLast + 1250000)).dlyNow
    (List.range 4).foldl (fun (d : Dev) p =>
      let x := d.port p
      if !x.st.live then d
      else
        let d := d.flitOut p (0x99 + x.dlySeq * 2 ^ 16)
        d.setPort p fun x => { x with dlySeq := (x.dlySeq + 1) % 65536
                                      dlyAt := ((x.dlySeq, d.clk.now / 2 ^ 28) :: x.dlyAt).take 16 }) d

/-- DLY (R499): a request is answered `turn` core cycles later; a response gives the link's delay, the mean of the last 16. -/
def dly (p w turn dt : Nat) (d : Dev) : Dev :=
  let d := d.after dt
  let x := d.port p
  let seq := bits w 31 16
  if !d.up ∨ 4 ≤ p ∨ !x.st.linked then d
  else if !flitOk w 0x99 (2 ^ 16 - 2 ^ 9 + (2 ^ 96 - 2 ^ 64)) then d.badFlit p
  else if !bit w 8 then
    let t0 := d.clk.now
    let d := d.after turn
    d.flitOut p (0x99 + 2 ^ 8 + seq * 2 ^ 16 + (d.clk.now - t0) / 2 ^ 28 % 2 ^ 32 * 2 ^ 32)
  else
    match getKey seq x.dlyAt with
    | none => d
    | some t1 =>
      let e : Int := ((d.clk.now / 2 ^ 28 - t1 : Nat) : Int) - (bits w 63 32 : Nat)
      let l := (e :: x.dly).take 16
      let sum := l.foldl (· + ·) 0
      let mean := Int.fdiv (sum + l.length) (2 * l.length)
      (d.setPort p fun x => { x with dly := l, dlyAt := x.dlyAt.filter (·.1 != seq) }).wr (Reg.KRY_p_LINKDLY p) mean.toNat

/-- KRY_EYE_SCAN_START (R495). -/
def kryEyeScanStart (p v dt : Nat) (d : Dev) : Dev :=
  let d := d.after dt
  if !d.hostOk ∨ 4 ≤ p ∨ !bit v 0 then d
  else
    let a := Reg.KRY_p_EYE_CTL p
    let d := (d.set a Fd.KRY_p_EYE_CTL_DWELL (bits v 5 3)).set a Fd.KRY_p_EYE_CTL_LANE (bits v 1 1)
    if (d.port p).st ≠ .up ∨ (d.port p).eye.isSome then d
    else (d.setPort p fun x => { x with eye := some (bits v 1 1, d.clk.up) }).set a Fd.KRY_p_EYE_CTL_BUSY 1

/-- KRY_EYE_SCAN_DONE (R495): the scan ends with these margins within 100 ms. -/
def kryEyeScanDone (p : Nat) (margins : List Nat) (dt : Nat) (d : Dev) : Dev :=
  match (d.port p).eye with
  | none => d
  | some (lane, at0) =>
    if !d.up ∨ 4 ≤ p then d
    else
      let d := d.after (min dt (at0 + 125000000 - d.clk.up))
      let g := fun i => nth margins i 0 % 256
      let d := (d.setPort p fun x => { x with eye := none }).set (Reg.KRY_p_EYE_CTL p) Fd.KRY_p_EYE_CTL_BUSY 0
      let d := d.wr (Reg.KRY_p_EYE_l p lane) (g 0 * 2 ^ 24 + g 1 * 2 ^ 16 + g 2 * 256 + g 3)
      d.event 0xD109 (toLE 1 p ++ toLE 1 lane ++ (List.range 4).flatMap fun i => toLE 1 (g i))

/-! ### Enumeration and confirmation (R503 to R508) -/

/-- The map entries of an earlier generation are gone. -/
def Dev.clearMap (d : Dev) : Dev :=
  { (d.wr Reg.KRY_MAP_COUNT 0) with rf := (d.wr Reg.KRY_MAP_COUNT 0).rf.filter fun e => decide (e.1 < 0xD10000) || decide (0xD20000 ≤ e.1) }

/-- A new generation: ID, CONFIRMED, CONFLICT and quarantine are cleared (R507). -/
def Dev.newGen (d : Dev) (gen rootSerial : Nat) : Dev :=
  let d := d.wr Reg.KRY_ID (2 ^ 29 * b2n d.isRoot + 2 ^ 20 * (gen % 256))
  let free := fun (x : KPort) => { x with conf := none, st := if x.st = .quarantined then .down else x.st }
  ({ d with kry := { d.kry with rootSerial, reported := none, ports := d.kry.ports.map free } }).clearMap

/-- This device takes an ID, tells its neighbours and reports (R504, R505). -/
def Dev.takeId (d : Dev) (id except_ : Nat) : Dev :=
  let d := (d.set Reg.KRY_ID Fd.KRY_ID_ID id).set Reg.KRY_ID Fd.KRY_ID_VALID 1
  (d.floodEnum except_ false).mapReport

/-- An enumeration conflict (R504). -/
def Dev.kConflict (d : Dev) (p offered : Nat) : Dev :=
  let d := d.set Reg.KRY_ID Fd.KRY_ID_CONFLICT 1
  (d.event 0xD106 (toLE 2 d.id ++ toLE 2 offered ++ toLE 1 0 ++ toLE 1 p)).mapReport

/-- The ID a neighbour at `id` offers to the device that receives on port p, none outside the mesh (R504). -/
def offeredId (id p : Nat) : Option Nat :=
  let r : Int := (id / 64 : Nat)
  let c : Int := (id % 64 : Nat)
  let (r, c) := match p with | 0 => (r + 1, c) | 3 => (r, c + 1) | 2 => (r - 1, c) | _ => (r, c - 1)
  if 0 ≤ r ∧ r < 64 ∧ 0 ≤ c ∧ c < 64 then some ((64 * r + c).toNat) else none

/-- The map is confirmed here: the neighbours' serials are recorded and the confirmation passes on (R506). -/
def Dev.kConfirm (d : Dev) (except_ : Nat) : Dev :=
  let d := d.set Reg.KRY_ID Fd.KRY_ID_CONFIRMED 1
  let mark := fun (x : KPort) => { x with conf := if x.st.live || x.st == .retraining then x.nbr.map (·.1) else none }
  ({ d with kry := { d.kry with ports := d.kry.ports.map mark } }).floodEnum except_ true

/-- Whether a received flit is a sound ENUM (R496, R504). -/
def enumOk (w : Nat) : Bool := flitOk w 0x66 (2 ^ 32 - 2 ^ 29)

/-- An ENUM that confirms, from generation gen of a ROOT's serial number (R506). -/
def Dev.enumConfirm (d : Dev) (p gen serial : Nat) : Dev :=
  if d.idValid ∧ d.gen = gen ∧ serial = d.kry.rootSerial ∧ !d.confirmed then (d.kConfirm p).kPump else d

/-- An ENUM of another generation makes the device leave what it had (R504, R507). -/
def Dev.enumGen (d : Dev) (gen serial : Nat) : Dev := if d.gen = gen then d else d.newGen gen serial

/-- An ENUM that offers an ID (R504, R507). -/
def Dev.enumOffer (d : Dev) (p gen serial : Nat) (offer : Option Nat) : Dev :=
  let d := d.enumGen gen serial
  match offer with
  | none => (d.kConflict p 0xFFFF).kPump
  | some me =>
    if serial ≠ d.kry.rootSerial then (d.kConflict p me).kPump
    else if !d.idValid then (d.takeId me p).kPump
    else if me ≠ d.id then (d.kConflict p me).kPump
    else d

/-- A sound ENUM (R504, R506, R507): id is the sender's. -/
def Dev.enumIn (d : Dev) (p id gen serial : Nat) (confirm : Bool) : Dev :=
  let d := d.setPort p fun x => { x with nbrId := id }
  if confirm then d.enumConfirm p gen serial
  else if d.isRoot then (d.kConflict p ((offeredId id p).getD 0xFFFF)).kPump
  else d.enumOffer p gen serial (offeredId id p)

/-- ENUM (R504, R506, R507). -/
def enum_ (p w dt : Nat) (d : Dev) : Dev :=
  let d := d.after dt
  if !d.up ∨ 4 ≤ p ∨ !(d.port p).st.linked then d
  else if !enumOk w then d.badFlit p
  else d.enumIn p (bits w 19 8) (bits w 27 20) (bits w 95 32) (bit w 28)

/-- ROOT_ENUM_START (R504, R508): the ROOT takes ID 0x000 in generation 1 after its first HELLO, or 200 ms after Dormant. -/
def rootEnumStart (dt : Nat) (d : Dev) : Dev :=
  let d := d.after dt
  if !d.up ∨ !d.isRoot ∨ d.idValid ∨ !(d.kry.ports.any (·.nbr.isSome) || decide (d.kry.dormantAt + 250000000 ≤ d.clk.up)) then d
  else ((d.newGen 1 d.top.otpSerial).takeId 0 4).kPump

/-- A delivered report is written into the map if it is of this generation (R505). -/
def Dev.mapIn (d : Dev) (k : KIn) : Dev :=
  if d.isRoot ∧ k.frame.arg % 256 = d.gen ∧ !k.frame.poison then d.mapTake k.frame.payload else d

/-- MAP_REPORT (R505): the oldest delivered report. -/
def mapReport (dt : Nat) (d : Dev) : Dev :=
  match (d.after dt).takeIn 0x22 with
  | none => d.after dt
  | some (k, d) => d.mapIn k

/-- Every delivered report is applied; `n` bounds them. -/
def Dev.mapAll (d : Dev) : (n : Nat) → Dev
  | 0 => d
  | n + 1 => match d.takeIn 0x22 with | none => d | some (k, d) => (d.mapIn k).mapAll n

/-- KRY_CONFIRM (R506, R521): KRY_ENUM is written with CONFIRM = 1 and COUNT; reports that have arrived are applied
first. -/
def kryConfirm (v dt : Nat) (d : Dev) : Dev :=
  let d := d.after dt
  if !d.hostOk ∨ !bit v 31 then d
  else
    let d := d.mapAll d.kin.length
    let d := d.set Reg.KRY_ENUM Fd.KRY_ENUM_COUNT (bits v 12 0)
    let n := d.get Reg.KRY_MAP_COUNT Fd.KRY_MAP_COUNT_COUNT
    if !d.isRoot ∨ !(d.top.mode = .dormant ∨ d.top.mode = .configure) then d
    else if bits v 12 0 = n ∧ !d.flag Reg.KRY_MAP_COUNT Fd.KRY_MAP_COUNT_ANY_CONFLICT ∧ d.idValid then
      ((d.kConfirm 4).event 0xD107 (toLE 2 n ++ toLE 1 d.gen)).kPump
    else d.event 0xD106 (toLE 2 d.id ++ toLE 2 0 ++ toLE 1 1)

/-- KRY_REENUM (R507): KRY_ENUM is written with REENUM = 1 at the ROOT in Dormant or Configure. -/
def kryReenum (v dt : Nat) (d : Dev) : Dev :=
  let d := d.after dt
  if !d.hostOk ∨ !bit v 30 then d
  else
    let d := d.set Reg.KRY_ENUM Fd.KRY_ENUM_COUNT (bits v 12 0)
    if !d.isRoot ∨ !(d.top.mode = .dormant ∨ d.top.mode = .configure) then d
    else
      let g := (d.gen + 1) % 256
      ((d.newGen (if g = 0 then 1 else g) d.top.otpSerial).takeId 0 4).kPump

/-- KRY_ROUTE_COMMIT (R523): the shadow table comes into force. -/
def kryRouteCommit (dt : Nat) (d : Dev) : Dev :=
  let d := d.after dt
  if d.hostOk then { d with kry := { d.kry with route := (List.range 64).map fun i => d.rd (Reg.KRY_ROUTE_i i) } } else d

/-! ### Relay (R383, R517 to R519) -/

/-- RELAY_CMD (R383, R518): the oldest delivered command enters this device's ring-0 commands, or is rejected. -/
def relayCmd (dt : Nat) (d : Dev) : Dev :=
  match (d.after dt).takeIn 0x20 with
  | none => d.after dt
  | some (k, d) =>
    let x : Desc := { ring := 0, count := 0, body := k.frame.payload, origin := some (k.frame.src, k.frame.arg % 65536) }
    match rejected x with
    | some st => (d.complete x st []).kPump
    | none => { d with host := { d.host with q0 := d.host.q0 ++ [x] } }

/-- The entry the origin writes for a relayed command's reply (R383): its own count, RELAYED set, the target's device ID. -/
def relayedEntry (x : Desc) (b : List Byte) (ph : Nat) : List Byte :=
  b.take 17 ++ toLE 1 (ph + byteAt b 17 / 2 * 2 % 8 + 8) ++ (b.drop 18).take 1 ++ toLE 1 0 ++ toLE 2 x.count ++ toLE 2 x.target ++
    (if bit (byteAt b 17) 1 then b.drop 24 else toLE 4 x.tag ++ b.drop 28)

/-- RELAY_CPL (R383, R518): the oldest delivered completion is written on ring 1; one that is not awaited is discarded. -/
def relayCpl (dt : Nat) (d : Dev) : Dev :=
  match (d.after dt).takeIn 0x21 with
  | none => d.after dt
  | some (k, d) =>
    match d.host.relays.find? fun r => r.num == k.frame.arg % 65536 && r.desc.target == k.frame.src with
    | none => d.kDiscard 4 k.frame
    | some r =>
      let x := r.desc
      let b := k.frame.payload
      let n := entriesOf x.op
      if n = 2 ∧ r.first.isNone then
        let hold := fun (y : Relay) => if y.num = r.num then { y with first := some b } else y
        { d with host := { d.host with relays := d.host.relays.map hold } }
      else
        let d := { d with host := { d.host with relays := d.host.relays.erase r, resv1 := d.host.resv1 - n } }
        let d := d.setRing 0 fun q => { q with outs := q.outs.erase x.count }
        let b0 := r.first.getD b
        let d := d.putEntry 1 x.op (byteAt b0 18) (relayedEntry x b0)
        if n = 2 then d.putEntry 1 x.op (byteAt b0 18) (relayedEntry x b) else d

/-- A relayed entry with the sender's device ID and this ring's PHASE (R519). -/
def copiedEntry (src : Nat) (b : List Byte) (ph : Nat) : List Byte :=
  b.take 17 ++ toLE 1 ph ++ (b.drop 18).take 2 ++ toLE 2 src ++ b.drop 22

/-- RELAYED_EVENT (R519): the oldest delivered event entry is written to ring 2, or dropped. -/
def relayedEvent (dt : Nat) (d : Dev) : Dev :=
  match (d.after dt).takeIn 0x30 with
  | none => d.after dt
  | some (k, d) =>
    let d := d.flushLost
    if 0 < d.ringFree 2 then d.putEntry 2 0 0 (copiedEntry k.frame.src k.frame.payload)
    else (d.bump (Reg.RING_n_LOST 2)).setRing 2 fun r => { r with lostPend := sat 32 (r.lostPend + 1) }

/-- RELAYED_TELEMETRY (R519): the oldest delivered telemetry entry is written to ring 3, or dropped. -/
def relayedTelemetry (dt : Nat) (d : Dev) : Dev :=
  match (d.after dt).takeIn 0x31 with
  | none => d.after dt
  | some (k, d) => d.putOrLose 3 (copiedEntry k.frame.src k.frame.payload)

end Sys2Proof.Machine
end

