-- ==== Sys2Proof/Machine/ExecHost.lean ====
section
/-!
DEFINITION. The meanings of the commands of the host interface (chapter 12).
-/
namespace Sys2Proof.Machine

/-- BUS_MASTER_ENABLE (R365): Bus Master Enable is set, and fetches and writes that were waiting proceed. -/
def execBusMasterEnable (on msixEn msixMask : Bool) (dt : Nat) (s : State) : Result :=
  s.run (busMasterEnable on msixEn msixMask dt)

/-- SESSION_OPEN (R392): The device draws a challenge and completes with CHALLENGE, or with BUSY, BAD_MODE or LOCKED.
-/
def execSessionOpen (dt : Nat) (s : State) : Result :=
  s.run (sessionOpen dt)

/-- SESSION_AUTH (R392): The device checks the HMAC over challenge, nonce and ring set, and on a match binds the rings
and enters Configure from Dormant. -/
def execSessionAuth (dt : Nat) (s : State) : Result :=
  s.run (sessionAuth dt)

/-- SESSION_CLOSE (R395): The session ends, rings are unbound and R54 applies. -/
def execSessionClose (dt : Nat) (s : State) : Result :=
  s.run (sessionClose dt)

/-- SESSION_KEEPALIVE (R395): The 10 s keepalive timer of the session restarts. -/
def execSessionKeepalive (dt : Nat) (s : State) : Result :=
  s.run (sessionKeepalive dt)

/-- NOP (R378): The command completes with no effect. -/
def execNop (dt : Nat) (s : State) : Result :=
  s.run (nop dt)

/-- MODE_SET (R52): The device requests a mode transition that takes effect at a tick edge if its preconditions hold,
otherwise it completes with BAD_MODE. -/
def execModeSet (dt : Nat) (s : State) : Result :=
  s.run (modeSet dt)

/-- RESUME (R57): All command hold causes present are released, and FAULTED or failed blocks are rebuilt again. -/
def execResume (dt : Nat) (s : State) : Result :=
  s.run (resume dt)

/-- LIB_VALIDATE (R108): The spare Thresher is requested to check a whole cell library at service class 3. -/
def execLibValidate (dt : Nat) (s : State) : Result :=
  s.run (libValidate dt)

/-- SESSION_TIMEOUT (R395): 10 s pass without a keepalive and the session ends. -/
def execSessionTimeout (s : State) : Result :=
  s.run sessionTimeout

/-- CHALLENGE_EXPIRY (R393): An outstanding challenge becomes invalid 1 s after its completion was written. -/
def execChallengeExpiry (s : State) : Result :=
  s.run challengeExpiry

/-- SESSION_LOCKOUT_END (R394): The 60 s lockout of session opening ends. -/
def execSessionLockoutEnd (s : State) : Result :=
  s.run sessionLockoutEnd

/-- RELAY_TIMEOUT (R383): No completion of a relayed command returns within 100 ms, so the origin completes with
RELAY_FAILED. -/
def execRelayTimeout (s : State) : Result :=
  s.run relayTimeout

/-- DOORBELL (R372): A ring doorbell value is checked and becomes the new PROD or CONS, or is refused with DBERR. -/
def execDoorbell (o len v dt : Nat) (s : State) : Result :=
  s.run (doorbell o len v dt)

/-- DESCRIPTOR_FETCH (R374): The device reserves completion space on ring 1 and fetches the next descriptor of a
submit ring. -/
def execDescriptorFetch (n : Nat) (bytes : Option (List Byte)) (dt : Nat) (s : State) : Result :=
  s.run fun d => ((descriptorFetch n bytes dt) d).kPump

/-- RING_ENABLE (R370): A write of EN = 1 enables a ring and sets PROD and CONS to 0. -/
def execRingEnable (n v dt : Nat) (s : State) : Result :=
  s.run (ringEnable n v dt)

/-- RING_DISABLE (R400): A write of EN = 0 disables a ring where the mode and outstanding work allow, retiring
unexecuted descriptors. -/
def execRingDisable (n v dt : Nat) (s : State) : Result :=
  s.run (ringDisable n v dt)

/-- FETCH_ERR_CLEAR (R402): A write of 1 to FETCH_ERR clears it and fetching resumes at the same count. -/
def execFetchErrClear (n dt : Nat) (s : State) : Result :=
  s.run (fetchErrClear n dt)

/-- IRQ_DELAY_EXPIRY (R404): IRQ_US µs pass since the first unsignalled entry and the ring's vector is signalled. -/
def execIrqDelayExpiry (n : Nat) (s : State) : Result :=
  s.run (irqDelayExpiry n)

end Sys2Proof.Machine
end

