-- ==== Sys2Proof/Machine/Time.lean ====
section
/-!
DEFINITION. Device time, the servo over the fabric, and the Ethernet port (chapter 17).
-/
namespace Sys2Proof.Machine

/-! ### Rate, slew and holdover (R526, R539) -/

/-- A write of TIME_RATE or TIME_SLEW ends holdover (R539). -/
def Dev.refWritten (d : Dev) : Dev :=
  let was := d.tim.holdover
  let d := d.setTim fun t => { t with holdover := false, wroteAt := d.clk.up, disciplined := true }
  let d := d.setRate d.refRate
  if was then d.event 0xE105 [] else d

/-- TIME_RATE_WRITE (R526, R539): only on a time reference. -/
def timeRateWrite (v dt : Nat) (d : Dev) : Dev :=
  let d := d.after dt
  if !d.hostOk ∨ !d.timeRef then d
  else (d.setTim fun t => { t with refRate := clampI (-2147483) 2147483 (toS 32 v) }).refWritten

/-- TIME_SLEW_WRITE (R526, R539): the value is added to the remaining slew. -/
def timeSlewWrite (v dt : Nat) (d : Dev) : Dev :=
  let d := d.after dt
  if !d.hostOk ∨ !d.timeRef then d
  else
    let left := d.tim.slewLeft d.clk.up
    (d.setTim fun t => { t with slew := left + toS 32 v * (2 ^ 32 : Nat), slewAt := d.clk.up }).refWritten

/-- SLEW_COMPLETE (R526): the remaining slew reaches 0. -/
def slewComplete (d : Dev) : Dev :=
  if !d.up ∨ d.tim.slew = 0 then d
  else
    let n := (d.tim.slew.natAbs * 5 + 4 * 429497 - 1) / (4 * 429497)
    let d := (d.reachUp (d.tim.slewAt + n)).setTim fun t => { t with slew := 0 }
    if d.timeRef then d.setRate d.refRate else d

/-- The device enters holdover (R539). -/
def Dev.enterHoldover (d : Dev) (why : Nat) : Dev :=
  if !d.timeRef ∨ d.tim.holdover then d else (d.setTim fun t => { t with holdover := true }).event 0xE104 (toLE 1 why)

/-- HOLDOVER_ENTER (R539): TIME_CTL is written with HOLDOVER = 1. -/
def holdoverEnter (v dt : Nat) (d : Dev) : Dev :=
  let d := d.after dt
  if !d.hostOk ∨ !bit v 0 then d else (d.set Reg.TIME_CTL Fd.TIME_CTL_SYNC_EN (bits v 1 1)).enterHoldover 0

/-- HOLDOVER_TIMEOUT (R539, R543): GM_TMO ms without a write of TIME_RATE or TIME_SLEW; a write in the core cycle of the
timeout prevails, so that cycle is over. -/
def holdoverTimeout (d : Dev) : Dev :=
  let tmo := d.get Reg.TIME_SYNC Fd.TIME_SYNC_GM_TMO
  if !d.up ∨ tmo = 0 ∨ !d.timeRef ∨ d.tim.holdover then d else (d.reachUp (d.tim.wroteAt + 1250000 * tmo + 1)).enterHoldover 1

/-! ### Steps (R527, R531) -/

/-- The modes in which device time may step (R527). -/
def Dev.maySteps (d : Dev) : Bool := d.top.mode == .dormant || d.top.mode == .configure

/-- TIME_STEP_ARM (R527): TIME_STEP_HI is written; the step waits for the next tick edge. -/
def timeStepArm (v dt : Nat) (d : Dev) : Dev :=
  let d := d.after dt
  if !d.hostOk then d
  else
    let d := d.wr Reg.TIME_STEP_HI v
    if d.maySteps then d.setTim fun t => { t with stepArm := some (toS 64 (d.rd64 Reg.TIME_STEP_LO Reg.TIME_STEP_HI), false) } else d

/-- A step armed takes effect at a tick edge (R527, R531). -/
def Dev.timeEdge (d : Dev) : Dev :=
  match d.tim.stepArm with
  | none => d
  | some (s, fabric) =>
    let d := d.setTim fun t => { t with stepArm := none }
    if !d.maySteps then d
    else
      let d := { d with clk := { d.clk with v := ((d.clk.now : Int) + s * (2 ^ 32 : Nat)).toNat, j := 0 } }
      let d := d.setTim fun t => { t with epoch := if d.isRoot then (t.epoch + 1) % 256 else t.epoch }
      d.event 0xE101 (toLES 8 s ++ toLE 1 (b2n fabric) ++ toLE 1 (if d.isRoot then d.tim.epoch else d.tim.lastEpoch.getD 0))

/-! ### Time messages (R528 to R532) -/

/-- The message interval: 2^SYNC_LOG2 µs. -/
def Dev.syncLog (d : Dev) : Nat := clampN 4 10 (d.get Reg.TIME_SYNC Fd.TIME_SYNC_SYNC_LOG2)

/-- TIME_MESSAGE_SEND (R528): the ROOT broadcasts its time; T_NS and T_FRAC are inserted at departure. -/
def timeMessageSend (d : Dev) : Dev :=
  if !d.up ∨ !d.isRoot ∨ !d.confirmed ∨ !d.flag Reg.TIME_CTL Fd.TIME_CTL_SYNC_EN then d
  else
    let d := match d.tim.sentAt with | some a => d.reachUp (a + 1250 * 2 ^ d.syncLog) | none => d
    let t := d.tim
    let b := toLE 8 0 ++ toLE 4 0 ++ toLE 8 0 ++ toLE 2 t.seqOut ++ toLE 1 (b2n t.holdover + 2 * b2n t.disciplined) ++ toLE 1 t.epoch ++
      toLE 8 (d.rd64 Reg.TIME_PTP_OFS_LO Reg.TIME_PTP_OFS_HI)
    let d := d.setTim fun t => { t with sentAt := some d.clk.up, seqOut := (t.seqOut + 1) % 65536 }
    (d.kSend { vl := 0, bcast := true, plen := 2, dst := 0, src := d.id, ptype := 0x02, payload := b }).kPump

/-- Lock is lost (R532, R544). -/
def Dev.loseLock (d : Dev) (o : Int) (seq why : Nat) : Dev :=
  let was := d.tim.locked
  let d := d.setTim fun t => { t with locked := false, good := 0 }
  if was then d.event 0xE103 (toLES 4 o ++ toLE 2 seq ++ toLE 1 why) else d

/-- One message counts towards lock (R532). -/
def Dev.lockStep (d : Dev) (o : Int) (seq : Nat) : Dev :=
  if 65536 < o.natAbs then d.loseLock o seq 0
  else
    let good := if o.natAbs ≤ 32768 then d.tim.good + 1 else 0
    let d := d.setTim fun t => { t with good }
    if 16 ≤ good ∧ !d.tim.locked then (d.setTim fun t => { t with locked := true }).event 0xE102 (toLES 4 o ++ toLE 2 seq) else d

/-- The servo takes a message that arrived at `a` (2^-32 ns) on a port (R530, R531). -/
def Dev.servo (d : Dev) (a port : Nat) (b : List Byte) : Dev :=
  let corr := toS 64 (fieldLE b 19 12)
  let o : Int := (a / 65536 : Nat) - (((fieldLE b 7 0 * 65536 + fieldLE b 11 8 / 65536 : Nat) : Int) + corr +
    ((d.rd (Reg.KRY_p_LINKDLY port) * 4096 : Nat) : Int))
  let seq := fieldLE b 21 20
  let epoch := byteAt b 23
  let ts : Int := (1000 * 2 ^ d.syncLog : Nat)
  let p : Int := -(tdiv (o * 65536) ts)
  let lim := clampI (-2147483) 2147483
  let freq := lim (d.tim.freq + asr p (d.get Reg.TIME_SYNC Fd.TIME_SYNC_KSHIFT))
  let mustStep := decide (65536000 < o.natAbs) || (match d.tim.lastEpoch with | some e => e != epoch | none => false)
  let d := (d.wr Reg.TIME_PTP_OFS_LO (fieldLE b 27 24)).wr Reg.TIME_PTP_OFS_HI (fieldLE b 31 28)
  let d := d.wr Reg.TIME_OFFSET (ofS 32 (clampI (-2147483648) 2147483647 o))
  let d := d.setTim fun t => { t with lastO := o, lastSeq := some seq, seqs := (seq :: t.seqs).take 32768, msgAt := d.clk.up, missed := 0 }
  if mustStep && d.maySteps then
    let s := Int.fdiv (-o + 32768) 65536
    let d := d.setTim fun t => { t with stepArm := some (s, true), freq := 0, lastEpoch := some epoch }
    (d.setRate 0).loseLock o seq 0
  else
    let d := (d.setTim fun t => { t with freq }).setRate (lim (freq + p))
    if mustStep then d.loseLock o seq 0
    else (d.setTim fun t => { t with lastEpoch := some epoch }).lockStep o seq

/-- TIME_MESSAGE (R530 to R532, R538): the oldest delivered time message; a poisoned one counts as not received, and so does
a later copy of one SEQ. -/
def timeMessage (dt : Nat) (d : Dev) : Dev :=
  match (d.after dt).takeIn 0x02 with
  | none => d.after dt
  | some (k, d) =>
    if d.timeRef ∨ k.frame.poison ∨ d.tim.seqs.contains (fieldLE k.frame.payload 21 20) then d
    else d.servo k.at_ k.port k.frame.payload

/-- SERVO_INTERVAL_EXPIRY (R530, R532): one interval more without a message. -/
def servoIntervalExpiry (d : Dev) : Dev :=
  if !d.up ∨ d.timeRef ∨ d.tim.lastSeq.isNone then d
  else
    let n := d.tim.missed + 1
    let d := (d.reachUp (d.tim.msgAt + n * 1250 * 2 ^ d.syncLog)).setTim fun t => { t with missed := n }
    let d := d.setRate (clampI (-2147483) 2147483 d.tim.freq)
    if n = 16 then d.loseLock d.tim.lastO (d.tim.lastSeq.getD 0) 1 else d

/-! ### The Ethernet port (R534 to R537) -/

/-- A big-endian field of a frame. -/
def fieldBE (b : List Byte) (ofs n : Nat) : Nat := ofLE ((b.drop ofs).take n).reverse

/-- Replace n bytes of a frame by a big-endian value. -/
def putBE (b : List Byte) (ofs n v : Nat) : List Byte := b.take ofs ++ (toLE n v).reverse ++ b.drop (ofs + n)

/-- Where the PTP header of a frame begins, and where its UDP header over IPv4 begins: none for a frame that is not PTP
(R534, R537). -/
def ptpAt (b : List Byte) : Option (Nat × Option Nat × Bool) :=
  let port := fun (u : Nat) => fieldBE b (u + 2) 2 == 319 || fieldBE b (u + 2) 2 == 320
  match fieldBE b 12 2 with
  | 0x88F7 => some (14, none, false)
  | 0x0800 =>
    let u := 14 + 4 * (byteAt b 14 % 16)
    if byteAt b 23 = 17 ∧ port u then some (u + 8, some u, false) else none
  | 0x86DD => if byteAt b 20 = 17 ∧ port 54 then some (62, none, true) else none
  | _ => none

/-- One-step insertion at the timestamp point `ts`, 2^-32 ns (R534). -/
def Dev.oneStep (d : Dev) (b : List Byte) (ts : Nat) : List Byte :=
  match ptpAt b with
  | none => b
  | some (h, udp, v6) =>
    let corr := fieldBE b (h + 8) 8
    let fix := fun (b : List Byte) => match udp with | some u => putBE b (u + 6) 2 0 | none => b
    if v6 then b
    else
      match byteAt b h % 16 with
      | 0 =>
        let ptp := (((ts / 2 ^ 32 : Nat) : Int) + toS 64 (d.rd64 Reg.TIME_PTP_OFS_LO Reg.TIME_PTP_OFS_HI)).toNat
        let b := putBE (putBE b (h + 34) 6 (ptp / 1000000000)) (h + 40) 4 (ptp % 1000000000)
        fix (putBE b (h + 8) 8 (corr + ts % 2 ^ 32 / 65536))
      | 3 =>
        match d.tim.pdelay.find? fun q => q.1 == (b.drop (h + 44)).take 10 && q.2.1 == fieldBE b (h + 30) 2 with
        | some (_, _, at_) => fix (putBE b (h + 8) 8 (corr + (ts - at_) / 65536))
        | none => b
      | _ => b

/-- A transmit slot. -/
def Dev.txSlot (d : Dev) (s : Nat) : TxSlot := nth d.tim.slots s {}

/-- Change a transmit slot. -/
def Dev.setTx (d : Dev) (s : Nat) (f : TxSlot → TxSlot) : Dev := d.setTim fun t => { t with slots := put 8 {} t.slots s f }

/-- Put an entry into the transmit timestamp queue (R536). -/
def Dev.putTs (d : Dev) (e : TxTs) : Dev :=
  if 16 ≤ d.tim.txq.length then (d.bump Reg.TIME_TXQ_OVF).event 0xE106 (toLE 2 e.seqId ++ toLE 1 e.msgType)
  else
    let was := d.tim.txq.isEmpty
    let d := d.setTim fun t => { t with txq := t.txq ++ [e] }
    if was then d.msix 60 else d

/-- Send the frame of a slot now (R535, R536). -/
def Dev.ethSend (d : Dev) (s : Nat) (late : Bool) : Dev :=
  let ctl := d.rd (Reg.TIME_TXD_s_CTL s)
  let len := clampN 60 2044 (bits ctl 10 0)
  let mem := (d.txSlot s).mem
  let raw := (List.range ((len + 3) / 4)).flatMap fun i => toLE 4 (((getKey i mem).getD 0).toNat)
  let ts := d.clk.now + d.get Reg.TIME_ETH_LAT Fd.TIME_ETH_LAT_TXLAT * 2 ^ 28
  let one := bit ctl 28 && d.flag Reg.TIME_ETH_CTL Fd.TIME_ETH_CTL_ONESTEP
  let b := if one then d.oneStep (raw.take len) ts else raw.take len
  let d := (d.setTx s fun x => { x with busy := false }).send (.eth (b ++ toLE 4 (crc32 b)) (ts / 2 ^ 32) (ts % 2 ^ 32))
  let d := d.set (Reg.TIME_TXD_s_CTL s) Fd.TIME_TXD_s_CTL_BUSY 0
  if !bit ctl 29 then d
  else
    match ptpAt b with
    | some (h, _, _) => d.putTs { seqId := fieldBE b (h + 30) 2, msgType := byteAt b h % 16, late, at_ := ts }
    | none => d.putTs { seqId := s, msgType := 0xF, late, at_ := ts }

/-- The launch time of a slot, ns. -/
def Dev.launchAt (d : Dev) (s : Nat) : Nat := d.rd64 (Reg.TIME_TXD_s_LAUNCH_LO s) (Reg.TIME_TXD_s_LAUNCH_HI s)

/-- ETH_TX_GO (R535): TIME_TXD_s_CTL is written with GO = 1. -/
def ethTxGo (s v dt : Nat) (d : Dev) : Dev :=
  let d := d.after dt
  if !d.hostOk ∨ 8 ≤ s ∨ !bit v 31 ∨ (d.txSlot s).busy ∨ !d.flag Reg.TIME_ETH_CTL Fd.TIME_ETH_CTL_EN then d
  else
    let d := d.wr (Reg.TIME_TXD_s_CTL s) (bits v 29 27 * 2 ^ 27 + bits v 10 0)
    if !bit v 27 then d.ethSend s false
    else if nsT (d.launchAt s) ≤ d.clk.now then
      let d := (d.bumpF Reg.TIME_LATE Fd.TIME_LATE_LATE).event 0xE107 (toLE 1 s ++ toLE 8 (d.ns - d.launchAt s))
      d.ethSend s true
    else
      let d := d.setTx s fun x => { x with busy := true, order := d.tim.nextOrder }
      (d.setTim fun t => { t with nextOrder := t.nextOrder + 1 }).set (Reg.TIME_TXD_s_CTL s) Fd.TIME_TXD_s_CTL_BUSY 1

/-- ETH_LAUNCH (R535): the launch time of a waiting slot arrives; slots go in order of launch time. -/
def ethLaunch (s : Nat) (d : Dev) : Dev :=
  let earlier := fun (r : Nat) => (d.txSlot r).busy && (decide (d.launchAt r < d.launchAt s) ||
    (d.launchAt r == d.launchAt s && decide ((d.txSlot r).order < (d.txSlot s).order)))
  if !d.up ∨ 8 ≤ s ∨ !(d.txSlot s).busy ∨ (List.range 8).any earlier then d
  else (d.reach (nsT (d.launchAt s))).ethSend s false

/-- Answer a register read. -/
def Dev.answer (d : Dev) (a v : Nat) : Dev := d.send (.readValue a (BitVec.ofNat 32 v))

/-- A read of TIME_TXQ_HDR pops the head entry into HDR, TS_LO, TS_HI and TS_FRAC (R536): its value. -/
def Dev.txqTake (d : Dev) : Nat × Dev :=
  match d.tim.txq with
  | [] => (0, d.wr Reg.TIME_TXQ_HDR 0)
  | e :: rest =>
    let v := 2 ^ 31 + b2n e.late * 2 ^ 30 + e.msgType * 2 ^ 24 + rest.length * 2 ^ 16 + e.seqId % 65536
    let d := d.setTim fun t => { t with txq := rest }
    let d := ((d.wr Reg.TIME_TXQ_HDR v).wr Reg.TIME_TXQ_TS_LO (e.at_ / 2 ^ 32)).wr Reg.TIME_TXQ_TS_HI (e.at_ / 2 ^ 64)
    (v, d.wr Reg.TIME_TXQ_TS_FRAC e.at_)

/-- TXQ_POP (R536): TIME_TXQ_HDR is read. -/
def txqPop (dt : Nat) (d : Dev) : Dev :=
  let d := d.after dt
  if !d.linkUp then d else let (v, d) := d.txqTake; d.answer Reg.TIME_TXQ_HDR v

/-- PTP_FRAME_RECEIVE (R537): a frame, without FCS, arrives; a PTP frame takes the lowest free slot with its arrival. -/
def ptpFrameReceive (b : List Byte) (dt : Nat) (d : Dev) : Dev :=
  let d := d.after dt
  match ptpAt b with
  | none => d
  | some (h, _, _) =>
    if !d.up ∨ !d.flag Reg.TIME_ETH_CTL Fd.TIME_ETH_CTL_EN then d
    else
      match firstIdx 16 fun r => (nth d.tim.rx r none).isNone with
      | none => d.bumpF Reg.TIME_LATE Fd.TIME_LATE_RX_DROP
      | some r =>
        let ts := d.clk.now - d.get Reg.TIME_ETH_LAT Fd.TIME_ETH_LAT_RXLAT * 2 ^ 28
        let req := ((b.drop (h + 20)).take 10, fieldBE b (h + 30) 2, ts)
        let d := d.setTim fun t => { t with
          rx := put 16 none t.rx r fun _ => some { bytes := b, at_ := ts }
          pdelay := if byteAt b h % 16 = 2 then (req :: t.pdelay).take 16 else t.pdelay }
        let d := d.wr (Reg.TIME_RXD_r_STAT r) (2 ^ 31 + b.length % 2048)
        let d := (d.wr (Reg.TIME_RXD_r_TS_LO r) (ts / 2 ^ 32)).wr (Reg.TIME_RXD_r_TS_HI r) (ts / 2 ^ 64)
        (d.wr (Reg.TIME_RXD_r_TS_FRAC r) ts).event 0xE108 (toLE 1 r ++ toLE 2 b.length)

/-- A receive slot is freed. -/
def Dev.rxFree (d : Dev) (r : Nat) : Dev :=
  (d.setTim fun t => { t with rx := put 16 none t.rx r fun _ => none }).set (Reg.TIME_RXD_r_STAT r) Fd.TIME_RXD_r_STAT_VALID 0

/-- RX_SLOT_FREE (R537): 1 is written to TIME_RXD_r_STAT.VALID. -/
def rxSlotFree (r dt : Nat) (d : Dev) : Dev :=
  let d := d.after dt
  if d.hostOk ∧ r < 16 then d.rxFree r else d

end Sys2Proof.Machine
end

