-- ==== Sys2Proof/Machine/Panel.lean ====
section
/-!
DEFINITION. The operator panel (chapter 21), the Glean port and the performance counters (chapter 22).
-/
namespace Sys2Proof.Machine

/-! ### Keys (R623 to R626, R629) -/

/-- What an accepted press of key k does (R624). -/
def Dev.keyDo (d : Dev) (k func : Nat) : Dev :=
  match func with
  | 1 => if d.expoOrHold then d.trigger (.hold 0x06) else d
  | 2 =>
    if d.top.mode = .hold then d.trigger (.resumeKey k)
    else d.pnlEvent 0xF403 (toLE 1 k ++ toLE 1 d.top.mode.code ++ toLE 1 d.top.holdCause)
  | 3 => if d.met.on then { d with met := { d.met with showAt := some d.clk.up, devTime := d.ns } } else d
  | _ => d

/-- A press of key k, configured as cfg, is accepted and recorded (R623). -/
def Dev.keyDown (d : Dev) (k cfg : Nat) : Dev :=
  let d := { d with pnl := { d.pnl with keys := d.pnl.keys ||| 2 ^ k } }
  let d := d.wr Reg.PNL_PRESSED (d.rd Reg.PNL_PRESSED ||| 2 ^ k)
  d.pnlEvent 0xF401 (toLE 1 k ++ toLE 1 (bits cfg 2 0) ++ toLE 1 (bits cfg 15 8) ++ toLE 1 d.top.mode.code)

/-- KEY_PRESS (R623, R624): the press of key k is accepted and performs its function. What coincides is ordered as
R630 says: Dev.takeTrigs. -/
def keyPress (k dt : Nat) (d : Dev) : Dev :=
  let d := d.after dt
  if !d.up ∨ 8 ≤ k ∨ bit d.pnl.keys k then d
  else
    let cfg := nth d.pnl.cfg k 0
    (d.keyDown k cfg).keyDo k (bits cfg 2 0)

/-- KEY_RELEASE (R623, R629). -/
def keyRelease (k dt : Nat) (d : Dev) : Dev :=
  let d := d.after dt
  if !d.up ∨ 8 ≤ k ∨ !bit d.pnl.keys k then d
  else ({ d with pnl := { d.pnl with keys := d.pnl.keys - 2 ^ k } }).pnlEvent 0xF402 (toLE 1 k)

/-- Panel settings written take effect at a tick edge (R631). -/
def Dev.pnlEdge (d : Dev) : Dev :=
  { d with pnl := { d.pnl with cfg := (List.range 8).map fun k => d.rd (Reg.PNL_KEY_CFG_k k)
                               led := (List.range 8).map fun k => d.rd (Reg.PNL_LED_k k) } }

/-- Whether a lamp is lit now (R627). -/
def Dev.lamp (d : Dev) (k : Nat) : Bool :=
  let v := nth d.pnl.led k 0
  let blink := fun (per : Nat) => decide (d.ns % per < per / 2)
  match bits v 3 2 with
  | 1 => d.saf.safe && blink 250000000
  | 2 => d.top.mode == .hold && blink 1000000000
  | 3 => d.top.mode == .expose
  | _ => match bits v 1 0 with
    | 0 => false
    | 1 => true
    | 2 => blink 1000000000
    | _ => blink 250000000

/-! ### Glean port (R634 to R638) -/

/-- Send n IDLE records from the next boundary on (R635, R636). -/
def Dev.glnIdle (d : Dev) : Nat → Dev
  | 0 => d
  | n + 1 =>
    let at_ := (d.clk.cycles (d.gln.nextAt - d.clk.up)).now
    let st : Stamp := { ns := at_ >>> 32, frac := at_ % 2 ^ 32, tick := d.top.tick }
    let d := d.send (.trace (glnBytes d.id 0 false { source := 0, type := 0, code := 0, det := [], stamp := st }))
    ({ d with gln := { d.gln with nextAt := d.gln.nextAt + d.glnRecord } }).glnIdle n

/-- A write of GLN_CTL (R634, R635, R638). -/
def Dev.glnCtl (d : Dev) (v : Nat) : Dev :=
  let d := d.glnDrain
  let old := d.rd Reg.GLN_CTL
  let d := d.wr Reg.GLN_CTL (bits v 9 4 * 16 + bits v 0 0)
  if !bit v 0 then { d with gln := { d.gln with buf := [] } }
  else if !bit old 0 then
    ({ d with gln := { d.gln with seq := 0, buf := [], lostMark := false, nextAt := d.clk.up } }).glnIdle 16
  else if bits old 9 8 ≠ bits v 9 8 then
    ({ d with gln := { d.gln with nextAt := max d.gln.nextAt d.clk.up } }).glnIdle 16
  else d

/-- GLEAN_ENABLE (R635): GLN_CTL is written with EN = 1. -/
def gleanEnable (v dt : Nat) (d : Dev) : Dev :=
  let d := d.after dt
  if d.linkUp ∧ bit v 0 then d.glnCtl v else d

/-- GLEAN_DISABLE (R638): GLN_CTL is written with EN = 0. -/
def gleanDisable (v dt : Nat) (d : Dev) : Dev :=
  let d := d.after dt
  if d.linkUp ∧ !bit v 0 then d.glnCtl v else d

/-- GLEAN_PERIODIC_SAMPLE (R637): the samples of the tick edge that is present. -/
def gleanPeriodicSample (d : Dev) : Dev :=
  if !d.up ∨ !d.onEdge ∨ d.gln.sampledAt = some d.top.tick then d
  else
    let due := fun (n : Nat) => n != 0 && d.top.tick % (64 * n) == 0
    let arb := due (d.get Reg.GLN_PERIOD Fd.GLN_PERIOD_ARB)
    let ldg := due (d.get Reg.GLN_PERIOD Fd.GLN_PERIOD_LDG) && d.flag Reg.GLN_CTL Fd.GLN_CTL_LDG_EN
    let d := { d with gln := { d.gln with sampledAt := some d.top.tick } }
    let d := if arb && d.flag Reg.GLN_CTL Fd.GLN_CTL_ARB_EN then
        (List.range 20).foldl (fun (d : Dev) a =>
          let x := d.hbmc.arbs.getD a {}
          d.traceOwn 0xB 0x04 a (toLE 4 (sat 32 x.grants) ++ toLE 2 (sat 16 x.promos) ++ toLE 2 (sat 16 x.cuts))) d
      else d
    let zero := fun (x : Arb) => { x with grants := 0, promos := 0, cuts := 0 }
    let d := if arb then { d with hbmc := { d.hbmc with arbs := d.hbmc.arbs.map zero } } else d
    if !ldg then d
    else
      (List.range 4).foldl (fun (d : Dev) k =>
        let s := d.slot k
        if s.st ≠ .opened then d
        else (List.range 6).foldl (fun (d : Dev) i => d.traceOwn 0xF 0x05 (k + 4 * i) (toLE 8 (nth s.cnt i 0) ++ toLE 4 s.layer)) d) d

/-! ### Performance counters (R639) -/

/-- A write of GLN_PMC_CTL (R639, R640). -/
def Dev.pmcCtl (d : Dev) (v : Nat) : Dev :=
  let d := d.wr Reg.GLN_PMC_CTL (bits v 0 0)
  let d := if bit v 2 then
      (List.range 8).foldl (fun (d : Dev) k =>
        let x := nth d.gln.pmc k 0
        (d.wr (Reg.GLN_PMC_k_LO k) x).wr (Reg.GLN_PMC_k_HI k) (x / 2 ^ 32)) d
    else d
  if bit v 1 then { d with gln := { d.gln with pmc := List.replicate 8 0 } } else d

/-- PMC_SNAP (R639): GLN_PMC_CTL is written with SNAP = 1. -/
def pmcSnap (v dt : Nat) (d : Dev) : Dev :=
  let d := d.after dt
  if d.linkUp ∧ bit v 2 then d.pmcCtl v else d

/-- PMC_CLEAR (R639): GLN_PMC_CTL is written with CLEAR = 1. -/
def pmcClear (v dt : Nat) (d : Dev) : Dev :=
  let d := d.after dt
  if d.linkUp ∧ bit v 1 then d.pmcCtl v else d

end Sys2Proof.Machine
end

