-- ==== Sys2Proof/Machine/Modes.lean ====
section
/-!
DEFINITION. Operating modes (chapter 02): transitions, hold causes, the steps of the retreat sequence that fall on tick
edges (R183 to R186), and the commands and triggers that take effect there.
-/
namespace Sys2Proof.Machine

/-! ### What is due -/

/-- Change the run-ahead control. -/
def Dev.setRa (d : Dev) (f : RunAhead → RunAhead) : Dev := { d with ra := f d.ra }

/-- Change the tick generator. -/
def Dev.setTop (d : Dev) (f : Top → Top) : Dev := { d with top := f d.top }

/-- The stroke to strike next, and its stroke tick: the resume tick, the next tick of the stroke in progress, or tick 0
of the next stroke (R183, R666). -/
def Dev.due (d : Dev) : Option (Stroke × Nat) :=
  match d.ra.cur.bind d.stroke? with
  | some s => some (s, d.ra.resume.getD d.ra.nextTick)
  | none => d.nextStroke.map fun s => (s, d.ra.resume.getD 0)

/-- The specific hold cause of a line of a band (R175): 0x08 for a FAULTED or MALFORMED block, 0x0B for a failed rebuild
or a poisoned input, 0x0A for a headroom failure. -/
def Dev.lineCause (d : Dev) (sseq band line : Nat) (e : Option Entry) : Option Nat :=
  let b := d.block? sseq band (line / 64)
  if d.malformedBlock sseq band (line / 64) || b.any (·.st == .faulted) then some 0x08
  else if b.any fun b => b.susp && (b.badLines.isEmpty || b.badLines.contains line) then some 0x0B
  else match e with
    | some e => if e.poison then some 0x0B else if e.failed then some 0x0A else none
    | none => none

/-- The state of a line-pass in the strike map; NONE where its line has not entered it. -/
def Dev.lpAt (d : Dev) (t k sseq line : Nat) : LP :=
  match d.mapLine? t sseq line with | some m => nth m.lp k .none | none => .none

/-- Whether a column meets the four conditions of R175 for the line-pass due at the resume tick. -/
def Dev.colClears (d : Dev) (s : Stroke) (tick c : Nat) : Bool :=
  let t := c / 8
  match d.lineAt t (c % 8) s.n tick with
  | none => true
  | some line =>
    if !(d.col c).en then true
    else
      let e := d.entryAt c s.sseq tick
      match d.lpAt t (c % 8) s.sseq line, e with
      | .sent, none => true
      | .struck, none => true
      | .lost, none => true
      | .squashed, none => true
      | _, none => false
      | _, some _ =>
        d.strikable s.sseq t line &&
          !d.sheaf.rebuilds.any (fun r => r.sseq == s.sseq && r.band == t && r.row == line / 64) &&
          match d.lineCause s.sseq t line e with
          | some k => !d.top.causes.any fun x => x.code == k && !x.done
          | none => true

/-- Whether hold cause 0x01 clears (R175). -/
def Dev.dataReady (d : Dev) : Bool :=
  match d.due with
  | none => false
  | some (s, tick) => (List.range 128).all fun c => d.colClears s tick c

/-! ### Mode changes (R50, R77, R254, R403, R637) -/

/-- The device enters a mode. -/
def Dev.setMode (d : Dev) (m : Mode) (cause : Nat) : Dev :=
  let old := d.top.mode
  let d := d.setTop fun t => { t with mode := m, prevMode := old.code, holdCause := cause }
  let d := if old = .configure ∨ old = .hold then d.set Reg.HEAT_CTL Fd.HEAT_CTL_HOSTWR 0 else d
  let d := if d.flag Reg.GLN_CTL Fd.GLN_CTL_MODE_EN then d.traceOwn 0x0 0x02 (m.code + 16 * old.code) (toLE 1 cause) else d
  d.msix 62

/-- Causes that no event of their own announces: the others are logged by what raised them (0x03, 0x05, 0x06, 0x08, 0x09,
0x0B, 0x0C, 0x0D and 0x0E). -/
def bareCause (c : Nat) : Bool := c == 0x01 || c == 0x02 || c == 0x04 || c == 0x07 || c == 0x0A

/-- A cause is logged on the event ring (R57, R60). The manual names no event for a cause that begins no Hold; the model
logs 0x4C01 with the cause, s_r and the level of RETREAT_REQ (log 142; DESIGN CHOICE). -/
def Dev.logCause (d : Dev) (c : Nat) : Dev :=
  if bareCause c then d.event 0x4C01 (toLE 4 (d.ra.resume.getD 0) ++ toLE 1 c ++ toLE 1 (b2n d.stg.retreat)) else d

/-- One cause that arises during a Hold, or in Safe (R57, R60): one that is present already is not added again. -/
def Dev.addCause (d : Dev) (c : Nat) : Dev :=
  if d.top.causes.any fun x => x.code == c && !x.done then d
  else (d.setTop fun t => { t with causes := t.causes.filter (fun x => x.code != c) ++ [({ code := c } : Cause)] })

/-- Whether a cause is present and has neither cleared nor been released. -/
def Dev.hasCause (d : Dev) (c : Nat) : Bool := d.top.causes.any fun x => x.code == c && !x.done

/-- Causes that arise and are logged, each once (R57, R60). -/
def Dev.addCauses (d : Dev) (cs : List Nat) : Dev :=
  cs.foldl (fun (d : Dev) c => if d.hasCause c then d else (d.addCause c).logCause c) d

/-- Causes whose stage request is not RETREAT_REQ (R55). -/
def noRetreat (c : Nat) : Bool := c == 0x05 || c == 0x0C

/-- Step 1 of R184 at a boundary: STRIKE_OK low, RETREAT_REQ where `ask` says that the cause asks for it and RETREAT_EN is
1 (R56), event 0x4C01, and the count. -/
def Dev.stepOne (d : Dev) (cause : Nat) (ask : Bool) : Dev :=
  let ask := ask && d.ra.holdEn
  let up := d.clk.up
  let d := d.setStg fun s => { s with strikeOk := false, retreat := s.retreat || ask }
  let d := d.setRa fun r => { r with armed := false, back := false, stepAt := up, prep := none, step := if ask then 1 else 3 }
  (d.bump Reg.TIL_RETREAT_CNT).event 0x4C01 (toLE 4 (d.ra.resume.getD 0) ++ toLE 1 cause ++ toLE 1 (b2n ask))

/-- The resume tick is recorded (R183), with RETREAT_EN and D as the Hold begins with them (R362). -/
def Dev.recordResume (d : Dev) (s : Nat) : Dev :=
  let d := d.wr Reg.TIL_RESUME_TICK s
  d.setRa fun r => { r with resume := some s, resumeSseq := r.cur, holdAt := d.clk.up, holdEn := bit d.stg.ctl 1, holdD := max 512 d.stg.reentry }

/-- The hold causes of one boundary, the more specific ones of R175 (0x08, 0x0A, 0x0B) before the 0x01 of the failed
check. -/
def specificFirst (cs : List Nat) : List Nat :=
  let spec := fun (c : Nat) => c == 0x08 || c == 0x0A || c == 0x0B
  let pre := cs.takeWhile (· != 0x01)
  let rest := cs.drop pre.length
  pre ++ rest.filter spec ++ rest.filter (!spec ·)

/-- Entry into Hold from Expose at a line boundary (R55, R183, R184); `want` is the stroke tick that was due there and
`early` says that the stage has reached tick 0 of a stroke before arming or its replay (R185, R667). Where several causes
take effect at one boundary, the first of them gives HOLD_CAUSE and alone decides whether RETREAT_REQ rises: the manual
leaves open what a second cause with another stage request does (log 143; DESIGN CHOICE). -/
def Dev.enterHold (d : Dev) (want : Option Nat) (early : Bool) (cs : List Nat) : Dev :=
  let cs := specificFirst cs
  let c := cs.head?.getD 0x01
  let s := want.getD (if d.ra.cur.isSome then d.ra.nextTick else 0)
  let d := (d.setMode .hold c).setTop fun t => { t with causes := [] }
  let d := ((d.recordResume s).stepOne c (!noRetreat c)).addCause c
  let d := d.addCauses cs
  if early then d.event 0x4C07 (toLE 4 s) else d

/-- The sequence restarts at step 1 with the same s_r (R185, R194): the causes are new ones of this Hold. RETREAT_REQ
rises where any of them asks for it (R185: the Hold is one of cause 0x01). -/
def Dev.restartHold (d : Dev) (cs : List Nat) (stageReached : Bool) : Dev :=
  let c := cs.head?.getD 0x01
  let fresh := d.causesDone
  let d := if fresh then d.setTop fun t => { t with holdCause := c } else d
  let d := ((d.stepOne c (cs.any fun c => !noRetreat c)).addCause c).addCauses cs
  if stageReached then d.event 0x4C07 (toLE 4 (d.ra.resume.getD 0)) else d

/-- The causes of a new Hold or Safe, and no others. -/
def Dev.freshCauses (d : Dev) (cs : List Nat) : Dev := (d.setTop fun t => { t with causes := [] }).addCauses cs

/-- On the way from Expose to Safe s_r is recorded (R183): the stroke tick that was due, or the one a cut lost. -/
def Dev.safeFromExpose (d : Dev) (want : Option Nat) (cut : Bool) (cs : List Nat) : Dev :=
  let s := if cut then d.ra.nextTick - 1 else want.getD (if d.ra.cur.isSome then d.ra.nextTick else 0)
  let d := d.setRa fun r => { r with nextTick := if cut then s else r.nextTick }
  ((d.recordResume s).stepOne 0xFF true).freshCauses cs

/-- On the way from Hold to Safe an arming ends (R183). -/
def Dev.safeFromHold (d : Dev) (cs : List Nat) : Dev :=
  let d := d.addCauses cs
  let up := d.clk.up
  if d.ra.armed then
    let d := d.setRa fun r => { r with armed := false, back := false, stepAt := up, step := 1 }
    d.setStg fun s => { s with strikeOk := false, retreat := s.retreat || d.ra.holdEn }
  else d.setStg fun s => { s with strikeOk := false }

/-- Entry into Safe at a tick edge (R59, R183): s_r is recorded on the way from Expose; `want` is the stroke tick that was
due at this edge, `cut` that a cut was recorded in the tick that ends. -/
def Dev.enterSafe (d : Dev) (want : Option Nat) (cut : Bool) (cs : List Nat) : Dev :=
  let from_ := d.top.mode
  let d := d.calAbandon.setMode .safe 0
  match from_ with
  | .expose => d.safeFromExpose want cut cs
  | .hold => d.safeFromHold cs
  | .calibrate => d.freshCauses cs
  | _ => d

/-- Release from Safe (R52, R60): Hold with cause 0x0E; the causes that arose in Safe are carried into it. -/
def Dev.releaseToHold (d : Dev) : Dev := (d.setMode .hold 0x0E).addCauses [0x0E]

/-- Automatic causes that clear at this edge (R55, R175). -/
def Dev.clearCauses (d : Dev) : Dev :=
  let clears := fun (c : Nat) => match c with
    | 0x01 => d.dataReady
    | 0x02 => true
    | 0x03 => !d.saf.soft
    | 0x04 => true
    | 0x05 => !d.stg.holdReq || !bit d.stg.ctl 2
    | _ => false
  let f := fun (x : Cause) => if !x.done && clears x.code then { x with done := true } else x
  if d.top.causes.any fun x => !x.done && clears x.code then d.setTop fun t => { t with causes := t.causes.map f } else d

/-! ### Commanded transitions (R52, R57, R61, R319, R330) -/

/-- Tiles that are UP. -/
def Dev.tilesUp (d : Dev) : Nat := (d.head.tiles.filter fun t => t.st == .up).length

/-- The preconditions of MODE_SET(CALIBRATE) and MODE_SET(EXPOSE) (R52, R53, R319, R354); a failed set point is
logged. -/
def Dev.mayEnter (d : Dev) (expose : Bool) : Bool × Dev :=
  match d.badSetPoints with
  | some t => (false, d.event 0x8A07 (toLE 1 t))
  | none =>
    let common := !d.saf.safe && d.samplesOk
    let tiles := if expose then d.tilesUp == 16 && d.head.tiles.all (·.hasCal) && d.flag Reg.STG_CTL Fd.STG_CTL_READY
      else decide (0 < d.tilesUp)
    (common && tiles, d)

/-- What entry to Expose from Configure takes into force and starts afresh (R52, R142, R167, R253, R268, R338). -/
def Dev.freshExpose (d : Dev) : Dev :=
  let next := d.sheaf.nextSseq
  let up := d.clk.up
  let rows := rowsCap (d.rd Reg.HEAT_ROWS)
  let d := { d with sheaf := { d.sheaf with nextQ := 0, rabBase := d.sheaf.rabPair, bandNext := List.replicate 16 (next, 0) } }
  let d := { d with heat := { d.heat with base := d.heat.basePair, rows := rows } }
  let d := { d with cal := { d.cal with base := d.cal.basePair, closed := false, turnDone := false } }
  let d := { d with cams := d.cams.map fun (c : Camera) => { c with fsAt := up } }
  let d := d.setStg fun s => { s with firstLayer := true }
  let fresh := fun (c : Column) => { c with queue := [], nextLine := (next, 0), hrFail := false }
  let d := d.endRun.setRa fun r => { r with sTick := none, resume := none, resumeSseq := none }
  d.setRa fun r => { r with prep := none, armed := false, back := false, cols := r.cols.map fresh }

/-- An asserted HOLD_REQ holds (R357). -/
def Dev.holdReqLevel (d : Dev) : Dev := if d.stg.holdReq && bit d.stg.ctl 2 then d.triggerNext (.hold 0x05) else d

/-- Entry to Expose from Configure (R52, R207, R355). -/
def Dev.enterExpose (d : Dev) : Dev := ((d.setMode .expose 0).freshExpose.loadAllHealth).holdReqLevel

/-- Entry to Calibrate (R52, R207, R338). -/
def Dev.enterCalibrate (d : Dev) : Dev :=
  let d := d.setMode .calibrate 0
  let d := { d with cal := { d.cal with base := d.cal.basePair } }
  d.loadAllHealth

/-- Entry to Configure (R52, R63, R335, R336, R356): from Hold the stroke is aborted, from Calibrate a run is abandoned. -/
def Dev.enterConfigure (d : Dev) : Dev :=
  let d := match d.top.mode with
    | .hold => d.calAbandon.abortStroke true
    | .calibrate => d.calAbandon.calDropReqs stBAD_MODE
    | _ => d
  let d := { d with host := { d.host with modeBlock := false } }
  let d := (d.setMode .configure 0).setTop fun t => { t with causes := [] }
  (d.setStg fun s => { s with retreat := false, strikeOk := false }).calConfigure

/-- MODE_SET to a mode (R52): whether the transition took place. -/
def Dev.tryMode (d : Dev) (m : Mode) : Bool × Dev :=
  match d.top.mode, m with
  | .configure, .dormant => (true, d.setMode .dormant 0)
  | .configure, .calibrate => let (ok, d) := d.mayEnter false; (ok, if ok then d.enterCalibrate else d)
  | .configure, .expose => let (ok, d) := d.mayEnter true; (ok, if ok then d.enterExpose else d)
  | .calibrate, .configure => (true, d.enterConfigure)
  | .hold, .configure => (true, d.enterConfigure)
  | _, _ => (false, d)

/-- Whether a command cause that RESUME cannot release is present: 0x0D needs a session (R55, R624). -/
def Dev.resumeBars (d : Dev) : Bool := !d.hasSession && d.top.causes.any fun x => x.code == 0x0D && !x.done

/-- RESUME takes effect (R57, R153, R157, R401): every command cause present is released. -/
def Dev.tryResume (d : Dev) (key : Bool) : Bool × Dev :=
  let bars := if key then d.top.causes.any fun x => x.code == 0x0D && !x.done else d.resumeBars
  if d.top.mode ≠ .hold ∨ d.host.modeBlock ∨ bars then (false, d)
  else
    let f := fun (x : Cause) => if 0x06 ≤ x.code then { x with done := true } else x
    (true, (d.setTop fun t => { t with causes := t.causes.map f }).resumeBlocks)

/-- The ring-0 command in progress, where it has this opcode, completes (R61, R386). -/
def Dev.endHeld (d : Dev) (op : Nat) (ok : Bool) : Dev :=
  match d.host.begun with
  | some x => if x.op = op then d.endCmd x (if ok then stOK else stBAD_MODE) d.modeDetail else d
  | none => d

/-- A RESUME press is refused (R626). -/
def Dev.keyRefused (d : Dev) (k : Nat) : Dev :=
  d.pnlEvent 0xF403 (toLE 1 k ++ toLE 1 d.top.mode.code ++ toLE 1 d.top.holdCause)

/-- One trigger other than a hold cause takes effect (R52, R61, R392, R624). -/
def Dev.command (d : Dev) (w : Want) : Dev :=
  match w with
  | .hold _ => d
  | .modeSet m => let (ok, d) := d.tryMode m; d.endHeld 0x0010 ok
  | .resume => let (ok, d) := d.tryResume false; d.endHeld 0x0011 ok
  | .resumeKey k => let (ok, d) := d.tryResume true; if ok then d else d.keyRefused k
  | .sessionOpened =>
    let d := if d.top.mode = .dormant then d.setMode .configure 0 else d
    match d.host.begun with
    | some x => if x.op = 0x0002 then d.authDone x else d
    | none => d
  | .sessionEnded => if d.top.mode = .configure ∧ !d.hasSession then d.setMode .dormant 0 else d

/-- One trigger loses to Safe or to Hold (R60): a command completes with BAD_MODE, but a MODE_SET(HOLD) that the Hold
answers with OK. -/
def Dev.loses (d : Dev) (held : Bool) (w : Want) : Dev :=
  match w with
  | .hold _ => d
  | .modeSet m => d.endHeld 0x0010 (held && m == .hold)
  | .resume => d.endHeld 0x0011 false
  | .resumeKey k => d.keyRefused k
  | w => d.command w

/-- The triggers that take effect at this edge; the others wait for the next (R58). -/
def Dev.takeTrigs (d : Dev) : List Want × Dev :=
  ((d.top.trigs.filter (!·.late)).map (·.want),
    d.setTop fun t => { t with trigs := (t.trigs.filter (·.late)).map fun (x : Trig) => { x with late := false } })

/-- The hold causes among triggers, in the order of their registration; MODE_SET(HOLD) is cause 0x07 (R55). -/
def holdsOf (ws : List Want) (expose : Bool) : List Nat :=
  ws.filterMap fun w => match w with
    | .hold c => some c
    | .modeSet .hold => if expose then some 0x07 else none
    | _ => none

/-- SESSION_CLOSE completes once the transition that the session's end causes has taken effect (R61, R395). -/
def Dev.endClose (d : Dev) : Dev :=
  match d.host.begun, d.top.mode with
  | some x, .dormant => if x.op = 0x0003 then d.endCmd x stOK d.modeDetail else d
  | some x, .hold => if x.op = 0x0003 then d.endCmd x stOK d.modeDetail else d
  | some x, .safe => if x.op = 0x0003 then d.endCmd x stOK d.modeDetail else d
  | some x, .configure => if x.op = 0x0003 ∧ d.hasSession then d.endCmd x stOK d.modeDetail else d
  | _, _ => d

/-- A host-interface or function-level reset that retired layout descriptors while a stroke was in progress aborts it at
this edge (R401): the mode becomes or stays Hold with cause 0x0D, and RESUME is barred. The entry from Expose is one at a
line boundary, so that it records s_r and takes step 1 of R184 (R55, R183). -/
def Dev.hostAbort (d : Dev) : Dev :=
  if !d.top.abortPend then d
  else
    let d := d.setTop fun t => { t with abortPend := false }
    let mark := fun (l : Layer) => { l with abandoned := l.abandoned || l.closedAt.isNone }
    let d := { d with sheaf := { d.sheaf with layers := d.sheaf.layers.map mark } }
    let s := d.ra.nextTick
    let d := d.abortStroke false
    let d := { d with host := { d.host with modeBlock := true } }
    let d := d.setStg fun s => { s with strikeOk := false }
    match d.top.mode with
    | .expose => (((d.setMode .hold 0x0D).setTop fun t => { t with causes := [] }).recordResume s).stepOne 0x0D true |>.addCauses [0x0D]
    | .hold => (d.addCauses [0x0D]).setTop fun t => { t with holdCause := 0x0D }
    | _ => d.addCauses [0x0D]

/-- Whether the stage has reached the strike instant of s_r with no arming (R185). -/
def Dev.reachedUnarmed (d : Dev) : Bool :=
  match d.ra.resume, d.posAt d.ns (d.top.edgeAt >>> 32) with
  | some r, some y => !d.ra.armed && d.ra.back && decide (d.tickTarget r ≤ y)
  | _, _ => false

/-- The stroke resumes at s_r (R184 step 7). A column disabled in Hold has been shared anew before it (R192). -/
def Dev.resumeStroke (d : Dev) : Dev :=
  let s := d.ra.resume.getD 0
  let us := (d.clk.up - d.ra.holdAt) / 1250
  let d := (d.setMode .expose 0).setTop fun t => { t with causes := [] }
  let d := d.setRa fun r => { r with resume := none, resumeSseq := none, armed := false, back := false, step := 0 }
  d.event 0x4C02 (toLE 4 s ++ toLE 4 (sat 32 us))

/-- Whether the arming replay is complete: no entry that arming made stale is stale still (R185). -/
def Dev.replayDone (d : Dev) : Bool := !d.ra.cols.any fun c => c.queue.any fun e => e.stale && e.rearm

/-- A loss of samples cancels the arming; the sequence goes on at step 4 after RESUME (R360). -/
def Dev.disarm (d : Dev) : Dev :=
  let up := d.clk.up
  d.setRa fun r => { r with armed := false, back := false, stepAt := up, step := 3 }

/-- The mode part of the strike decision in Hold (R57, R184, R185, R194, R360). `refused`: the commit point refused the
tick. A command that reaches the very edge at which the stroke resumes finds the transition to Expose in its way and
completes with BAD_MODE, as one that loses to a Hold does; R60 ranks Safe and Hold only (log 23; DEDUCED). -/
def Dev.holdEdge (d : Dev) (want : Option Nat) (refused : Bool) (ws : List Want) (cs : List Nat) : Bool × Dev :=
  let d := d.clearCauses
  match want with
  | some _ =>
    let ready := cs.isEmpty && d.causesDone && d.stg.strikeOk && d.ra.dueOk && d.ra.armed && d.replayDone && !refused
    let d := ws.foldl (fun (d : Dev) w => d.loses false w) d
    if ready then (true, d.resumeStroke)
    else if cs.contains 0x0C then (false, (d.addCauses cs).disarm)
    else if refused then (false, d.restartHold cs false)
    else (false, d.restartHold (cs.filter (· != 0x01) ++ [0x01]) true)
  | none =>
    let d := d.addCauses cs
    let d := if cs.contains 0x0C && d.ra.armed then d.disarm else d
    let d := if cs.isEmpty then ws.foldl Dev.command d else ws.foldl (fun (d : Dev) w => d.loses false w) d
    if d.top.mode == .hold && d.reachedUnarmed then (false, d.restartHold [0x01] true) else (false, d)

/-- Calibrate ends when no run is queued or in progress (R330); a session that has ended takes the device on to Dormant
at the edge after (R54). -/
def Dev.calibrateEnds (d : Dev) : Dev :=
  if d.cal.run.isSome ∨ d.cal.reqs.any (·.calib) then d
  else
    let d := d.enterConfigure
    if d.hasSession then d else d.triggerNext .sessionEnded

/-- Modes and hold causes at a tick edge (R58 to R60): whether the edge strikes as far as they are concerned, and the
device. `want` is the stroke tick due at this edge. A stroke's first tick needs STRIKE_OK (R355) and the arming before it
(R667, R185). -/
def Dev.modeEdge (d : Dev) (want : Option Nat) (refused cut : Bool) : Bool × Dev :=
  let (ws, d) := d.takeTrigs
  let safe := d.saf.safe || d.saf.edge
  let d := d.setSaf fun s => { s with edge := false }
  let lose := fun (held : Bool) (d : Dev) => ws.foldl (fun (d : Dev) w => d.loses held w) d
  let toSafe := fun (d : Dev) => (false, lose false (d.enterSafe want cut (holdsOf ws false)))
  match d.top.mode with
  | .dormant => (false, ws.foldl Dev.command d)
  | .configure => (false, ws.foldl Dev.command d)
  | .calibrate =>
    if safe then toSafe d
    else
      let d := ws.foldl Dev.command d
      (false, if d.top.mode = .calibrate then d.calibrateEnds else d)
  | .expose =>
    if safe then toSafe d
    else
      let cs := holdsOf ws true
      let first : Bool := want = some 0 ∧ d.ra.cur.isNone
      let cs := if cs.isEmpty ∧ first ∧ (!d.stg.strikeOk ∨ !d.ra.armed) then [0x01] else cs
      if cs.isEmpty then (want.isSome && d.ra.dueOk && !refused, ws.foldl Dev.command d)
      else (false, lose true (d.enterHold want (first && (d.ra.dueStale || !d.ra.armed)) cs))
  | .hold => if safe then toSafe d else d.holdEdge want refused ws (holdsOf ws false)
  | .safe =>
    let d := lose false (d.addCauses (holdsOf ws false))
    (false, if safe then d else d.releaseToHold)

end Sys2Proof.Machine
end

