-- ==== Sys2Proof/Machine/Strike.lean ====
section
/-!
DEFINITION. Due points, strikes and the designation of the next edge (chapters 01, 05, 09): what the frames sent at an
edge hold, and what a strike does.
-/
namespace Sys2Proof.Machine

/-! ### Due points (R174 to R176, R188, R218) -/

/-- The due-point check of one column: what its part of the frame holds, whether it passes, a specific cause, whether a
stale entry is at fault, and the line of a line-pass that would be struck twice (R176). -/
structure ColDue where
  pass : Option SentPass := none
  ok : Bool := true
  cause : Option Nat := none
  stale : Bool := false
  twice : Option Nat := none
  deriving DecidableEq, Repr

/-- Whether an entry is ready and verified for its line-pass (R174). -/
def Dev.entryGood (d : Dev) (t : Nat) (e : Entry) (line : Nat) : Bool :=
  e.codes.length == 2048 && !e.stale && !e.poison && !e.failed && !e.left && e.epoch == d.ra.epoch && e.line == line &&
    d.strikable e.sseq t line

/-- A line-pass's part of a frame: all its codes, or those of the not-started beams of a PARTIAL one (R188, R290). -/
def Dev.sentPass (d : Dev) (t k : Nat) (e : Entry) (part : Bool) : SentPass :=
  let mask := match d.ra.parts.find? fun q => q.tile == t && q.pass == k && q.sseq == e.sseq && q.line == e.line with
    | some q => q.notStarted
    | none => []
  let fired := if part then List.zipWith (fun c m => c != 0 && m) e.codes mask else e.codes.map (· != 0)
  { pass := k, entry := e, fired, restrike := part }

/-- The check of column c for stroke tick `tick` (R174 to R176). A line-pass of a tile that is not there cannot be struck
(R309). -/
def Dev.colDue (d : Dev) (s : Stroke) (tick c : Nat) : ColDue :=
  let t := c / 8
  let k := c % 8
  match d.lineAt t k s.n tick with
  | none => {}
  | some line =>
    if !(d.col c).en then {}
    else
      let lp := d.lpAt t k s.sseq line
      let open_ := lp == .none || lp == .part
      match d.entryAt c s.sseq tick with
      | none => if open_ then { ok := false, cause := d.lineCause s.sseq t line none } else {}
      | some e =>
        if !open_ then { ok := false, twice := some line }
        else if !(d.tile t).present then { ok := false }
        else if d.entryGood t e line then { pass := some (d.sentPass t k e (lp == .part)) }
        else { ok := false, cause := d.lineCause s.sseq t line (some e), stale := e.stale }

/-- A line-pass is sent: its map entry and its ledger change (R178, R193, R203, R608). -/
def Dev.passSent (d : Dev) (t : Nat) (p : SentPass) : Dev :=
  let e := p.entry
  let d := d.updMap t e.sseq e.line fun m =>
    { m with lp := upd m.lp p.pass fun _ => .sent, maskOf := upd m.maskOf p.pass fun _ => some e.mask }
  if p.restrike then d
  else (d.ldgStroke e.sseq cWIT (weightOf e fun i => e.isGeo i)).ldgStroke e.sseq cUNC (weightOf e fun i => !e.isGeo i)

/-- The line-passes of tile t due at stroke tick `tick` whose strike-map state, or as PARTIAL whose not-started mask, is
read poisoned at the due point (R300, R475). -/
def Dev.lostPasses (d : Dev) (s : Stroke) (tick t : Nat) (ups : List Upset) : List SentPass :=
  (List.range 8).filterMap fun k =>
    match d.lineAt t k s.n tick, d.entryAt (8 * t + k) s.sseq tick with
    | some line, some e =>
      let lp := d.lpAt t k s.sseq line
      let hit := ((lp == .none || lp == .part) && poisonedIn ups (.state (8 * t + k))) || (lp == .part && poisonedIn ups (.mask (8 * t + k)))
      if (d.col (8 * t + k)).en && hit then some (d.sentPass t k e (lp == .part)) else none
    | _, _ => none

/-- Line-passes of tile t whose state or mask arrived poisoned are treated as SENT (R300, R475): no re-strike and no
entry waits any more, and their dose stays unconfirmed until a matching record of the coming tick, or is withheld when
the late window ends (R182, R299). -/
def Dev.losePasses (d : Dev) (t : Nat) (ps : List SentPass) : Dev :=
  if ps.isEmpty then d
  else
    let d := ps.foldl (fun (d : Dev) p =>
      let e := p.entry
      let d := d.passSent t p
      let d := { d with ra := { d.ra with parts := d.ra.parts.filter fun q =>
        !(q.tile == t && q.pass == p.pass && q.sseq == e.sseq && q.line == e.line) } }
      d.setCol (8 * t + p.pass) fun c => { c with queue := c.queue.filter fun q => !(q.sseq == e.sseq && q.line == e.line) }) d
    let x : Strike := { tile := t, tick := d.top.tick + 1, at_ := d.top.edgeAt, fcrc := 0, delays := [], passes := ps, held := true
                        expect := d.head.expect, late := max d.head.expect (1000 * d.head.late) }
    { d with ra := { d.ra with strikes := d.ra.strikes ++ [x] } }

/-- The check of column c where its strike-map state may arrive poisoned: that holds with cause 0x0B (R475). -/
def Dev.colCheck (d : Dev) (s : Stroke) (tick : Nat) (ups : List Upset) (c : Nat) : ColDue :=
  if poisonedIn ups (.state c) && (d.lineAt (c / 8) (c % 8) s.n tick).isSome && (d.col c).en then { ok := false, cause := some 0x0B }
  else d.colDue s tick c

/-- The due point of edge T + 1, designated for stroke tick `tick` (R174, R175): every column is checked, and the frames
are sent, with codes where all pass and IDLE otherwise (R289, R290). A queue entry that arrives poisoned while its frame
is sent inverts the frame's FCRC and fails the check (R475). -/
def Dev.dueCheck (d : Dev) (s : Stroke) (tick : Nat) (ups : List Upset) : Dev :=
  let d := (List.range 16).foldl (fun (d : Dev) t => d.losePasses t (d.lostPasses s tick t ups)) d
  let cols := (List.range 128).map fun c => d.colCheck s tick ups c
  let framed := cols.all (·.ok)
  let torn := cols.mapIdx fun c x => framed && x.pass.isSome && poisonedIn ups (.queue c)
  let ok := framed && torn.all (!·)
  let d := (cols.mapIdx fun c x => (c, x.twice)).foldl (fun (d : Dev) x => match x.2 with
    | some line => d.event 0x4C06 (toLE 1 x.1 ++ toLE 3 0 ++ toLE 4 line)
    | none => d) d
  let sent := (List.range 16).map fun t => ((cols.drop (8 * t)).take 8).filterMap (·.pass)
  let d := d.setRa fun r => { r with dueOk := ok, dueStale := cols.any (·.stale), sent := if ok then sent else [] }
  let causes := (cols.filterMap (·.cause)).foldl (fun l c => if l.contains c then l else l ++ [c]) []
  let d := if ok then d else (causes ++ [0x01]).foldl (fun (d : Dev) c => d.triggerNext (.hold c)) d
  (List.range 16).foldl (fun (d : Dev) t =>
    d.sendFrame t (d.top.tick + 1) false (if framed then frameCodes (nth sent t []) else []) (((torn.drop (8 * t)).take 8).any (·))) d

/-- IDLE frames for edge T + 1 (R290). -/
def Dev.sendIdleFrames (d : Dev) : Dev :=
  (List.range 16).foldl (fun (d : Dev) t => d.sendFrame t (d.top.tick + 1) false [] false) d

/-! ### The strike (R20, R38, R178, R181, R193, R203, R239, R249, R298, R608) -/

/-- The strokes that came into progress and may still be the one of a camera frame's t_f: TOFS reaches back less than
2^32 ns (R264, R269). -/
def pruneRuns (ns : Nat) (l : List StrokeRun) : List StrokeRun :=
  l.filter fun r => match r.upto with | none => true | some e => decide (ns < e + 2 ^ 32)

/-- Stroke tick 0 of a stroke (R22, R49, R253, R275, R358, R388, R568): it becomes the stroke in progress. -/
def Dev.beginStroke (d : Dev) (s : Stroke) : Dev :=
  let ns := d.top.edgeAt >>> 32
  let run : StrokeRun := { sseq := s.sseq, layer := s.layer, stroke := s.stroke, n := s.n, y0 := s.y0, since := ns }
  let d := d.setRa fun r => { r with cur := some s.sseq, runs := run :: pruneRuns ns r.runs }
  let d := d.setSaf fun x => { x with expTick := 0 }
  let d := d.setStg fun x => { x with firstLayer := false, syncSeen := if s.stroke = 0 then false else x.syncSeen }
  let e := d.flag Reg.HEAT_CTL Fd.HEAT_CTL_XCHG_E
  let w := d.flag Reg.HEAT_CTL Fd.HEAT_CTL_XCHG_W
  let d := { d with heat := { d.heat with xchgE := e, xchgW := w, seamGot := [], seamMissed := [false, false], strikeAt := [] } }
  let en := d.cams.mapIdx fun (c : Nat) (x : Camera) => { x with enAtStroke := d.flag (Reg.CAM_c_CTL c) Fd.CAM_c_CTL_EN }
  let d := { d with cams := en, cal := { d.cal with turnDone := false, closed := false } }
  let d := if s.winnow then d else d.updLayer s.lseq fun l => { l with winnowOff := l.winnowOff + 1, firstOff := if l.winnowOff = 0 then s.stroke else l.firstOff }
  (d.wr Reg.TOP_STROKE_LINES s.n).wr Reg.TOP_LAYER (s.layer % 2 ^ 24 * 256 + s.stroke)

/-- One line-pass is sent at its strike edge: its map entry, its ledger change and its deposit. -/
def Dev.strikePass (d : Dev) (t : Nat) (p : SentPass) : Dev :=
  let e := p.entry
  let d := d.passSent t p
  let dep : Deposit := { tick := d.top.tick, tile := t, pass := p.pass, sseq := e.sseq, line := e.line
                         time := heatTime (d.top.edgeAt >>> 32), es := e.es, fired := p.fired }
  let d := { d with heat := { d.heat with deps := d.heat.deps ++ [dep] } }
  d.setCol (8 * t + p.pass) fun x => { x with queue := x.queue.filter fun q => !(q.sseq == e.sseq && q.line == e.line) }

/-- The due line-passes of disabled columns fire nothing and are over (R208, R218). -/
def Dev.skipDisabled (d : Dev) (s : Stroke) (tick : Nat) : Dev :=
  (List.range 128).foldl (fun (d : Dev) c =>
    match d.lineAt (c / 8) (c % 8) s.n tick with
    | none => d
    | some line =>
      if (d.col c).en then d
      else d.updMap (c / 8) s.sseq line fun m => { m with lp := upd m.lp (c % 8) fun l => if l == .none then .squashed else l }) d

/-- Lines struck while pass 0 strikes and a camera that takes part is out count as thermally degraded (R275, R389). -/
def Dev.noteThermal (d : Dev) (s : Stroke) (tick : Nat) : Dev :=
  if d.thermDegraded && decide (tick < s.n) then d.updLayer s.lseq fun l => { l with thermDeg := true, degLines := l.degLines + 1 } else d

/-- The strike of stroke tick `tick` at the present edge. -/
def Dev.strike (d : Dev) (s : Stroke) (tick : Nat) : Dev :=
  let d := if d.ra.cur.isNone then d.beginStroke s else d
  let sent := d.ra.sent
  let ns := d.top.edgeAt >>> 32
  let d := (List.range 16).foldl (fun (d : Dev) t =>
    let ps := nth sent t []
    (ps.foldl (fun (d : Dev) p => d.strikePass t p) d).recordStrike t false ps) d
  let d := (d.skipDisabled s tick).noteThermal s tick
  let d := { d with heat := { d.heat with strikeAt := (tick, heatTime ns, ns) :: d.heat.strikeAt.take 63 } }
  let d := d.seamSends s tick
  let d := d.setRa fun r => { r with sTick := some tick, nextTick := tick + 1, cfgStruck := List.replicate 16 true, prep := none, armed := false, back := false }
  let d := (d.setTop fun x => { x with isStrike := true }).wr Reg.TOP_STROKE_TICK tick
  let d := d.setSaf fun x => { x with expTick := tick + 1 }
  d.strobeRise.2

/-- The stroke in progress ends once its last stroke tick has passed (R22). -/
def Dev.endStroke (d : Dev) : Dev :=
  match d.ra.cur.bind d.stroke? with
  | none => d
  | some s =>
    if d.ra.nextTick ≤ d.lastTick s.n then d
    else (d.updStroke s.sseq fun x => { x with ended := true }).endRun

/-! ### Designation (R34, R36, R666) -/

/-- Whether the predicted instant of a stroke tick lies before the next idle edge plus 5,000 ns (R666). One that is past
already is designated too, and is overspeed at its first evaluation (R352). -/
def Dev.comesDue (d : Dev) (s : Nat) : Bool :=
  match d.predict s with
  | some t => decide (t * 2 ^ 32 < ((d.top.nextIdle + nsT 5000 : Nat) : Int))
  | none => false

/-- The stroke tick for which edge T + 1 is designated, with its stroke (R666). In Expose tick 0 of the next stroke is its
next stroke tick once the stage has been found before it: a stage that still runs out of the stroke behind it reaches
nothing, and the mode stays Expose (R51, log 19; DEDUCED). -/
def Dev.nextStrike (d : Dev) (struck : Bool) : Option (Stroke × Nat) :=
  match d.due with
  | none => none
  | some (s, tick) =>
    if struck then (if d.ra.cur.isSome ∧ tick ≤ d.lastTick s.n then some (s, tick) else none)
    else
      let may := match d.top.mode with
        | .expose => d.ra.cur.isSome || d.ra.back
        | .hold => d.ra.armed && d.ra.resume.isSome
        | _ => false
      if may && d.comesDue tick then some (s, tick) else none

/-- At edge T the device decides what edge T + 1 is (R666), checks due points and sends the frames (R289, R290). -/
def Dev.designate (d : Dev) (struck : Bool) (ups : List Upset) : Dev :=
  let d := d.setTop fun x => { x with nextIdle := x.edgeAt + nsT x.idlePeriod, desig := .idle, committed := none, overspeed := false
                                      stallNext := false, sealOpen := false }
  let d := d.setRa fun r => { r with dueOk := false, dueStale := false, sent := [] }
  let (cal, d) := d.calDesignate
  if cal then
    let per := match d.cal.run with | some r => r.period | none => 5000
    d.setTop fun x => { x with desig := .calStrike, nextIdle := x.edgeAt + nsT per }
  else
    match d.nextStrike struck with
    | some (s, tick) => (d.setTop fun x => { x with desig := .strike tick, tPrev := x.edgeAt }).dueCheck s tick ups
    | none => d.sendIdleFrames

end Sys2Proof.Machine
end

