-- ==== Sys2Proof/Machine/Tick.lean ====
section
/-!
DEFINITION. The tick (chapter 01) and the stage handshake's edges (chapter 11): commit points, the seal window, the stall
timeout, tick edges in the order of R39, arming and STRIKE_OK.
-/
namespace Sys2Proof.Machine

/-! ### Commit points (R36, R37, R352) -/

/-- The instant, in ns, to which device time moves on towards the commit point of stroke tick s: that point, or the
first instant before it at which another record becomes usable and the prediction is evaluated anew (R352). -/
def Dev.nextLook (d : Dev) (s : Nat) : Option Nat :=
  match d.predict s, d.nextUsable with
  | none, u => u
  | some t, none => some (t.toNat - 1024)
  | some t, some u => some (if d.clk.now < nsT (t.toNat - 1024) then min (t.toNat - 1024) u else t.toNat - 1024)

/-- Device time approaches the commit point of stroke tick s, the prediction being evaluated with the records usable at
each instant (R352); it stops at `lim` ns. -/
def Dev.approach (d : Dev) (s lim : Nat) : (fuel : Nat) → Dev
  | 0 => d
  | fuel + 1 =>
    match d.nextLook s with
    | none => d
    | some c => if d.clk.now < nsT c ∧ c ≤ lim then (d.reach (nsT c)).approach s lim fuel else d

/-- The latest instant, in ns, at which a strike instant may be committed for edge T + 1 (R37). -/
def Dev.commitLimit (d : Dev) : Nat := (d.top.tPrev >>> 32) + 1000000

/-- What the commit point of stroke tick s finds at the present instant: t*, where it is due for its test. -/
def Dev.commitNow (d : Dev) (s : Nat) : Option Int :=
  match d.predict s with
  | some t => if t * 2 ^ 32 ≤ ((d.clk.now + nsT 1024 : Nat) : Int) ∧ d.clk.now ≤ nsT d.commitLimit then some t else none
  | none => none

/-- The shortest strike-tick period, in ns: that of the safety partition's maximum strike rate (R37). -/
def Dev.minPeriod (d : Dev) : Nat := max 5000 (d.get Reg.SAF_MINPER Fd.SAF_MINPER_MIN)

/-- STG_PERIOD at a commit point: P, or NEVER (R363). -/
def Dev.setPeriod (d : Dev) (p : Option Int) : Dev :=
  let ns := match p with | some p => min p.toNat 0xFFFFF | none => 0xFFFFF
  let stall := match p with | some p => decide (1000000 < p) | none => true
  (d.setStg fun s => { s with stall, period := ns }).wr Reg.STG_PERIOD (b2n stall * 2 ^ 31 + ns)

/-- The tests of a commit point at which t* is evaluated (R37, R352, R353, R360). A t* less than 1,024 ns ahead is not
committed. -/
def Dev.commitTest (d : Dev) (s : Nat) (t : Int) : Dev :=
  let d := d.lossCheck d.ns
  if t * 2 ^ 32 < ((d.clk.now + nsT 1024 : Nat) : Int) then
    (d.setTop fun x => { x with overspeed := true }).triggerNext (.hold 0x02)
  else
    let p := (d.predict (s + 1)).map (· - t)
    let d := d.setPeriod p
    let early := decide (t.toNat * 2 ^ 32 < d.top.edgeAt + nsT 5000)
    let fast := early || (match p with | some p => decide (p < (d.minPeriod : Int)) | none => false)
    let d := d.setTop fun x => { x with committed := some (max (nsT t.toNat) (x.edgeAt + nsT 5000)), overspeed := x.overspeed || fast
                                        stallNext := !fast && d.stg.stall }
    if fast then d.triggerNext (.hold 0x02) else if d.stg.stall then d.triggerNext (.hold 0x04) else d

/-- COMMIT_POINT (R36, R37, R352, R353): 1,024 ns before the predicted strike instant of the designated edge. -/
def commitPoint (dt : Nat) (d : Dev) : Dev :=
  let d := d.after dt
  match d.top.desig, d.top.committed with
  | .strike s, none =>
    if !d.up then d
    else
      let d' := d.approach s d.commitLimit 200
      match d'.commitNow s with
      | some t => d'.commitTest s t
      | none => d
  | _, _ => d

/-- STALL_TIMEOUT (R37): no strike instant is committed by t_prev + 1,000,000 ns; an idle edge is placed exactly there. -/
def stallTimeout (d : Dev) : Dev :=
  match d.top.desig, d.top.committed with
  | .strike s, none =>
    let ahead : Bool := match (d.approach s d.commitLimit 200).commitNow s with
      | some t => decide (((d.approach s d.commitLimit 200).clk.now + nsT 1024 : Nat) ≤ t * 2 ^ 32)
      | none => false
    if !d.up ∨ ahead then d
    else
      let at_ := d.top.tPrev + nsT 1000000
      let d := d.reach at_
      let d := (d.setStg fun x => { x with stall := true }).set Reg.STG_PERIOD Fd.STG_PERIOD_STALL 1
      (d.setTop fun x => { x with committed := some at_, stallNext := true }).triggerNext (.hold 0x04)
  | _, _ => d

/-! ### The seal window (R40, R288) -/

/-- SEAL_WINDOW_OPEN (R40, R288): 256 ns before the next edge; the delays of that edge are sent. -/
def sealWindowOpen (d : Dev) : Dev :=
  match d.nextEdge with
  | some t =>
    if !d.up ∨ d.top.sealOpen then d
    else ((d.reach (t - nsT 256)).setTop fun x => { x with sealOpen := true }).sendDly
  | none => d

/-! ### The tick edge (R33 to R40) -/

/-- The period of a tick that ends at instant t, in ns (R47). -/
def Dev.tickPeriod (d : Dev) (t : Nat) : Nat := min 0xFFFFF ((t - d.top.edgeAt) >>> 32)

/-- Tick n begins (R33). -/
def Dev.tickIs (d : Dev) (n : Nat) : Dev :=
  let d := { d with top := { d.top with tick := n, slots := [] }, gln := { d.gln with slots := [] } }
  (d.wr Reg.TOP_TICK_IDX_LO n).wr Reg.TOP_TICK_IDX_HI (n / 2 ^ 32)

/-- The tick that ends: its period and kind (R35, R47), and the next tick index (R33). -/
def Dev.newTick (d : Dev) (t : Nat) : Dev :=
  ((d.wr Reg.TOP_TICK_PERIOD (b2n d.top.isStrike * 2 ^ 31 + d.tickPeriod t)).pmc (if d.top.isStrike then 2 else 3) none 0 1).tickIs
    ((d.top.tick + 1) % 2 ^ 64)

/-- Register fields that come into force at every tick edge (R253, R299, R362, R494, R631). -/
def Dev.edgeRegs (d : Dev) : Dev :=
  let ack := d.get Reg.HEAD_ACK_EXPECT Fd.HEAD_ACK_EXPECT_NS
  let late := d.get Reg.HEAD_ACK_LATE Fd.HEAD_ACK_LATE_US
  let d := { d with head := { d.head with expect := ack, late := late } }
  let tol := d.get Reg.HEAT_TOL Fd.HEAT_TOL_TOL
  let wts := (List.range 4).map fun c => d.get (Reg.HEAT_CAM_W_c c) Fd.HEAT_CAM_W_c_W
  let d := { d with heat := { d.heat with tol := tol, wts := wts } }
  let ctl := d.rd Reg.STG_CTL
  let re := d.get Reg.STG_REENTRY Fd.STG_REENTRY_D
  let d := d.setStg fun s => { s with ctl := ctl, reentry := re }
  d.kryEdge.pnlEdge

/-- IDLE_PERIOD comes into force at an idle edge (R46): one at which nothing strikes, a designated one among them
(R666). -/
def Dev.idleEdge (d : Dev) : Dev :=
  d.setTop fun x => { x with idlePeriod := clampN 5000 1000000 (d.get Reg.TOP_TICK_CTL Fd.TOP_TICK_CTL_IDLE_PERIOD) }

/-- Step 1 of R39: shadows are handed over, at every edge, and the latched temperature comes to apply (R212). -/
def Dev.handOverAll (d : Dev) : Dev := ((List.range 128).foldl (fun (d : Dev) c => d.handOver c) d).applyLatch

/-- Writes of TIL_n_CTL.EN take effect (R190, R191, R208): whether share() fails somewhere, and the device. -/
def Dev.enableEdge (d : Dev) : Bool × Dev :=
  (List.range 16).foldl (fun (x : Bool × Dev) t =>
    let cs := (List.range 8).map (· + 8 * t)
    let pick := fun (en : Bool) => cs.filter fun c => (x.2.col c).enPend == some en && (x.2.col c).en != en
    let off := pick false
    let on := pick true
    let clear := fun (d : Dev) => cs.foldl (fun (d : Dev) c => d.setCol c fun y => { y with enPend := none }) d
    if off.isEmpty && on.isEmpty then (x.1, clear x.2)
    else
      let (f, d) := x.2.maskChange t off on
      (x.1 || f, clear d)) (false, d)

/-- Whether any write of TIL_n_CTL.EN waits. -/
def Dev.enPending (d : Dev) : Bool := d.ra.cols.any (·.enPend.isSome)

/-- Pending parameter changes of the heat memory apply at the edge (R253), and then the deposits of the strike edge before
the last (R239, R256). -/
def Dev.depositEdge (d : Dev) : Dev :=
  let d := if d.heatFree then d.applyHeat else d
  let due := d.heat.deps.filter fun x => decide (x.tick + 2 ≤ d.top.tick)
  if due.isEmpty then d
  else
    let d := { d with heat := { d.heat with deps := d.heat.deps.filter fun x => !decide (x.tick + 2 ≤ d.top.tick) } }
    (due.foldl (fun (d : Dev) x => d.applyDeposit x) d).heatActed 1

/-- The lowest fill of any width-code queue (R197). -/
def Dev.depth (d : Dev) : Nat := d.ra.cols.foldl (fun m c => min m c.queue.length) 64

/-- Whether STRIKE_OK may be high (R355). -/
def Dev.okCond (d : Dev) : Bool :=
  match d.top.mode with
  | .expose => d.mayStart d.calIdle
  | .hold => d.ra.resume.isSome && d.causesDone && d.mayStart d.calIdle
  | _ => false

/-- Whether the stage stands before the strike instant to come: of s_r, at an edge after the one of the latest step 1
(R185), or of the next stroke's tick 0 in Expose (R666). -/
def Dev.beforeStart (d : Dev) (ns : Nat) : Bool :=
  match d.posAt d.ns ns with
  | none => false
  | some y =>
    match d.ra.resume with
    | some r => decide (d.ra.stepAt < d.clk.up) && decide (y < d.tickTarget r)
    | none => d.ra.cur.isNone && d.nextStroke.isSome && decide (y < d.tickTarget 0)

/-- What the stage port does at an edge (R353 to R355, R363): y, the loss check in Hold, LOST, and STRIKE_OK where a
condition of R355 has failed. -/
def Dev.stageEdge (d : Dev) : Dev :=
  let ns := d.top.edgeAt >>> 32
  let d := match d.posAt d.ns ns with
    | some y => ((d.setStg fun s => { s with pos := y }).wr Reg.STG_POS_LO (ofS 64 y)).wr Reg.STG_POS_HI (ofS 64 y / 2 ^ 32)
    | none => d
  let d := d.lossClear
  let d := match d.top.mode with
    | .hold => d.lossCheck ns
    | .expose => d
    | .calibrate => d
    | _ => d.noteMissing ns
  let d := if d.stg.strikeOk && !d.okCond then d.setStg fun s => { s with strikeOk := false } else d
  if d.beforeStart ns then d.setRa fun x => { x with back := true } else d

/-- The lowest queue fill seen while strokes run ahead, in Expose and Hold (R198). -/
def Dev.noteDepth (d : Dev) : Dev :=
  if d.expoOrHold then d.wr Reg.TIL_RA_MIN (min (d.rd Reg.TIL_RA_MIN) d.depth) else d

/-- The strike decision and the strike (R39 steps 2 and 3): whether the edge strikes. A disable that cannot be re-shared
holds at this edge; otherwise the line-passes sent for it strike before the disable acts (R190, R191). -/
def Dev.decideEdge (d : Dev) (want : Option Nat) (refused cut : Bool) : Bool × Dev :=
  let (fails, d1) := d.enableEdge
  let d := if d.enPending ∧ fails then d1.triggerNext (.hold 0x0A) else d
  let (go, d) := d.modeEdge want refused cut
  let (go, d) := match go, d.due with
    | true, some (s, tick) => (true, d.strike s tick)
    | _, _ => (false, (d.setRa fun r => { r with sTick := none }).wr Reg.TOP_STROKE_TICK 0xFFFFFFFF)
  (go, d.enableEdge.2)

/-- Hold cause 0x08 for a failed row of a stroke that is never accepted: registered at the first edge in Expose or Hold at
which no stroke accepted before it has still to be struck (R124). -/
def Dev.headerHold (d : Dev) : Dev :=
  let due := fun (f : FailRow) => f.header && !f.raised && d.sheaf.strokes.all fun s => s.ended || decide (f.sseq ≤ s.sseq)
  if d.expoOrHold && d.sheaf.fails.any due then
    ({ d with sheaf := { d.sheaf with fails := d.sheaf.fails.map fun (f : FailRow) => if due f then { f with raised := true } else f } }).triggerNext
      (.hold 0x08)
  else d

/-- What follows the decision at a tick edge. -/
def Dev.afterEdge (d : Dev) (struck : Bool) (ups : List Upset) : Dev :=
  let d := d.depositEdge.stageEdge.headerHold.plugEdge.syncEdge
  let d := if struck then d else d.calBoundary
  let d := if struck || d.cal.edge then d else d.idleEdge
  (((d.designate struck ups).noteDepth.endClose).kPump).benNote

/-- The edge's instant is the present one; it is no strike edge yet. -/
def Dev.atEdge (d : Dev) (t : Nat) : Dev := d.setTop fun x => { x with edgeAt := t, edgeUp := d.clk.up, isStrike := false }

/-- Time steps due at this edge (R615); a step moves the edge's own instant. -/
def Dev.edgeTime (d : Dev) : Dev :=
  let e := d.timeEdge
  if d.tim.stepArm.isSome then e.setTop fun x => { x with edgeAt := e.clk.now } else e

/-- Whether the edge is one of a calibration strike. -/
def Dev.calEdge (d : Dev) (b : Bool) : Dev := { d with cal := { d.cal with edge := b } }

/-- The stroke tick due at the coming edge. -/
def Dev.wantNow (d : Dev) : Option Nat :=
  match d.top.desig with | .strike s => if d.top.abortPend then none else some s | _ => none

/-- Whether a cut was recorded in the tick that ends. -/
def Dev.cutNow (d : Dev) : Bool := d.saf.edge && d.top.isStrike && d.ra.sTick.isSome && d.saf.cutTick == d.top.tick

/-- The open layer of slot k, one of whose counters is read poisoned, becomes invalid and its snapshot is sent with the
poison mark (R475, R612), with the changes of this edge where it has any. -/
def Dev.ldgPoisoned (d : Dev) (k : Nat) : Dev :=
  let d := d.invalidate k 0
  if d.ldg.pend.any (·.1 == k) then d else d.metSnapshot (d.slot k).layer (d.slot k).cnt d.top.tick true

/-- The ledger at an edge: the counters that are read poisoned, and the registered changes (R475, R609, R612). -/
def Dev.ldgEdge (d : Dev) (ups : List Upset) : Dev :=
  ((List.range 4).foldl (fun (d : Dev) k =>
    if poisonedIn ups (.ledger k) && (d.slot k).st == .opened then d.ldgPoisoned k else d) (d.upsetNotes ups)).ldgApply

/-- What an edge does before its decision: the new tick, its registers and the shadows (R33, R39, R46). -/
def Dev.edgeOpen (d : Dev) (t : Nat) (calStrike cut : Bool) (ups : List Upset) : Dev :=
  let d := (((((d.newTick t).atEdge t).edgeTime.calEdge calStrike).ldgEdge ups).edgeRegs).handOverAll
  (if cut then d else d.endStroke).hostAbort

/-- After the decision of an edge. -/
def Dev.edgeClose (ups : List Upset) (x : Bool × Dev) : Dev := x.2.afterEdge x.1 ups

/-- A tick edge falls at instant t (R39). -/
def Dev.edge (d : Dev) (t : Nat) (ups : List Upset) : Dev :=
  Dev.edgeClose ups (((d.reach t).edgeOpen t (d.top.desig == Desig.calStrike) d.cutNow ups).decideEdge d.wantNow
    (d.top.overspeed || d.top.stallNext) d.cutNow)

/-- The first tick edge (R33, R66): tick index 0, device time 0; the device enters Dormant. -/
def Dev.firstEdge (d : Dev) : Dev :=
  let up := d.clk.up
  let d := { d with clk := { up := up } }
  let d := d.setTop fun x => { x with phase := .running, mode := .dormant, tick := 0, edgeAt := 0, edgeUp := up, slots := [] }
  let d := { d with kry := { d.kry with dormantAt := up }, tim := { d.tim with wroteAt := up } }
  (d.edgeRegs.wr Reg.TOP_STROKE_TICK 0xFFFFFFFF).afterEdge false []

/-- TICK_EDGE (R32 to R39): the next tick edge falls, at its instant. The seal window has opened before it, and in Expose
and Calibrate the commit point of an idle edge has looked for lost samples (R353). `ups` lists the on-chip words that the
edge reads and finds in error (R475). -/
def tickEdge (ups : List Upset) (d : Dev) : Dev :=
  match d.top.phase with
  | .held => d
  | .starting => d.firstEdge
  | .running =>
    match d.nextEdge with
    | none => d
    | some t =>
      let idle : Bool := match d.top.desig with | .strike _ => false | _ => true
      let d := if idle ∧ (d.top.mode = .expose ∨ d.top.mode = .calibrate) then
          (d.reach (t - nsT 1024)).lossCheck ((t >>> 32) - 1024) else d
      (sealWindowOpen d).edge t ups

/-! ### Arming and STRIKE_OK (R184, R355, R667) -/

/-- Whether the approaching stage stands between the arming line and the strike instant of stroke tick r. -/
def Dev.inApproach (d : Dev) (r : Nat) : Bool :=
  match d.posAt d.ns (d.top.edgeAt >>> 32), d.predict r with
  | some y, some _ => decide (65536 * ((r : Int) - 256) ≤ y) && decide (y < d.tickTarget r)
  | _, _ => false

/-- ARM (R184 step 6, R667): the approaching stage reaches the arming line, in Hold with STRIKE_OK high, or in Expose
before a stroke's first strike. Every unstruck entry becomes stale and is replayed. -/
def arm (dt : Nat) (d : Dev) : Dev :=
  let d := d.after dt
  match d.due with
  | none => d
  | some (s, tick) =>
    if !d.up ∨ !d.inApproach tick then d
    else match d.top.mode with
      | .hold =>
        if d.ra.armed ∨ d.ra.resume.isNone ∨ !d.stg.strikeOk ∨ d.stg.retreat then d
        else (d.setRa fun r => { r with armed := true, step := 6 }).orderReplay 2 fun _ _ => true
      | .expose =>
        if d.ra.cur.isSome ∨ d.ra.prep = some s.sseq then d
        else (d.setRa fun r => { r with prep := some s.sseq, armed := true }).orderReplay 2 fun _ _ => true
      | _ => d

/-- STRIKE_OK_RISE (R184 step 4, R355): at a tick edge every condition holds. Between edges the output does not
change. -/
def strikeOkRise (dt : Nat) (d : Dev) : Dev :=
  let d := d.after dt
  if !d.up ∨ !d.onEdge ∨ d.stg.strikeOk ∨ !d.okCond then d
  else (d.setStg fun s => { s with strikeOk := true }).setRa fun r => { r with step := max r.step 4 }

end Sys2Proof.Machine
end

