-- ==== Sys2Proof/Machine/Views.lean ====
section
/-!
DEFINITION. What a read of each BAR0 register returns (chapter 23 and the binding tables it names): registers that the
device keeps elsewhere than in the register file are computed here, block by block. `b` is the base of the register's
row and `i` the number of its instance.
-/
namespace Sys2Proof.Machine

/-- One bit of a register word. -/
def atBit (b : Bool) (k : Nat) : Nat := b2n b * 2 ^ k

/-- The LO or HI half of a 64-bit value. -/
def half (v : Nat) (hi : Bool) : Nat := if hi then v / 2 ^ 32 % 2 ^ 32 else v % 2 ^ 32

/-- TOP_MODE (R77). -/
def Dev.topMode (d : Dev) : Nat :=
  d.top.holdCause * 2 ^ 20 + d.top.prevMode * 2 ^ 16 + atBit d.saf.safe 4 + atBit d.hasSession 3 + d.top.mode.code

/-- TOP block (R76). -/
def Dev.viewTop (d : Dev) (b : Nat) : Option Nat := if b = Reg.TOP_MODE then some d.topMode else none

/-- Remaining lockout in s and keepalive time in ms, rounded up (R407). -/
def Dev.sessionTmr (d : Dev) : Nat :=
  let lock := match d.host.lockAt with | some a => (a + 75000000000 - d.clk.up + 1249999999) / 1250000000 | none => 0
  let ka := match d.host.session with | some s => (s.keepAt + 12500000000 - d.clk.up + 1249999) / 1250000 | none => 0
  lock * 65536 + ka

/-- RING_SESSION (R407). -/
def Dev.sessionWord (d : Dev) : Nat :=
  let rel := match d.host.session with | some s => s.origin.isSome | none => false
  let rs := match d.host.session with | some s => s.rings | none => 0
  atBit d.hasSession 31 + atBit d.host.lockAt.isSome 30 + atBit d.host.chal.isSome 29 + atBit rel 28 + d.host.fails * 2 ^ 24 + rs

/-- Completions of descriptors of ring n that wait to be written (R365). -/
def Dev.waitingCpls (d : Dev) (n : Nat) : Nat :=
  (d.host.waitOut.filter fun o => match o with
    | .entry r _ _ b => r == 1 && byteAt b 19 == n && !bit (byteAt b 17) 1
    | _ => false).length

/-- RING_n_STAT (R407). -/
def Dev.ringStat (d : Dev) (n : Nat) : Nat :=
  let a := Reg.RING_n_STAT n
  atBit (d.bound n) 31 + d.get a Fd.RING_n_STAT_DBERR * 2 ^ 30 + d.get a Fd.RING_n_STAT_FETCH_ERR * 2 ^ 29 +
    atBit (isDevRing n && decide (d.ringSize n ≤ d.ringFill n)) 28 + ((d.ringSt n).outs.length + d.waitingCpls n) % 2 ^ 17

/-- RING block (R406, R407): the DATA registers exist for rings 12 and 13 only. -/
def Dev.viewRing (d : Dev) (b i : Nat) : Option Nat :=
  if i = 15 then some 0
  else if b = Reg.RING_n_STAT 0 then some (d.ringStat i)
  else if b = Reg.RING_SESSION then some d.sessionWord
  else if b = Reg.RING_SESSION_TMR then some d.sessionTmr
  else if b = Reg.RING_n_DATA_LO 0 ∨ b = Reg.RING_n_DATA_HI 0 ∨ b = Reg.RING_n_DATA_SIZE 0 then
    if i = 12 ∨ i = 13 then none else some 0
  else none

/-- CPE_c_STAT (R438). -/
def Chan.stat (x : Chan) : Nat :=
  x.st.code * 2 ^ 28 + x.reason * 2 ^ 24 + atBit x.db 23 + sumN ((List.range 4).map fun l => atBit (nth x.act l false) (19 + l)) +
    (x.claim.getD 0) * 256 + atBit x.claim.isSome 7

/-- CPE and CHK blocks (R437 to R440). -/
def Dev.viewCpe (d : Dev) (b i : Nat) : Option Nat :=
  if b = Reg.CPE_c_STAT 0 then some (d.chan i).stat
  else if b = Reg.CPE_c_PC_LO 0 then some ((d.chan i).pc % 2 ^ 32 / 16 * 16 + b2n (d.chan i).hbm)
  else if b = Reg.CPE_c_PC_HI 0 then some (half (d.chan i).pc true)
  else if b = Reg.CHK_u_STAT 0 then
    let o := (d.unit i).owner
    some (d.rd (Reg.CHK_u_STAT i) / 2 ^ 30 * 2 ^ 30 + atBit o.isSome 29 + o.getD 0)
  else none

/-- THR_n_STAT (R165). -/
def Dev.thrStat (d : Dev) (t : Nat) : Nat :=
  let x := d.thr t
  let at_ : Option (Nat × Nat) := match x.busy with
    | some (_, band, row) => some (band, row)
    | none => (d.rebuilding t).map fun r => (r.band, r.row)
  let place := match at_, (if t = 16 then d.sheaf.subst else none) with
    | some (band, row), _ => 2 ^ 31 + 2 ^ 29 + band * 2 ^ 24 + row % 2 ^ 18
    | none, some band => 2 ^ 29 + band * 2 ^ 24
    | none, none => 0
  place + atBit (t == 16 && d.sheaf.subst.isSome) 30 + atBit x.retired 23

/-- THR block (R128, R163). -/
def Dev.viewThr (d : Dev) (b i : Nat) : Option Nat := if b = Reg.THR_n_STAT 0 then some (d.thrStat i) else none

/-- Columns holding a PARTIAL line-pass (R197). -/
def Dev.partialCols (d : Dev) : Nat :=
  ((List.range 128).filter fun c => d.ra.parts.any fun p => p.tile == c / 8 && p.pass == c % 8).length

/-- TIL_RA_STAT (R197). -/
def Dev.raStat (d : Dev) : Nat :=
  atBit (d.top.mode == .hold && d.ra.resume.isSome) 31 + atBit d.ra.armed 30 +
    atBit (d.ra.cols.any fun x => x.queue.any (·.stale)) 29 + d.partialCols * 2 ^ 16 + d.depth

/-- TIL_n_SH_STAT (R225). -/
def Column.shStat (x : Column) : Nat :=
  atBit (x.shRamp.isSome || x.shRampIn.isSome) 2 + atBit (x.shShare.isSome || x.shShareIn.isSome || x.sharePend) 1 +
    atBit (x.shDelay.isSome || x.shDelayIn.isSome) 0

/-- TIL_n_STAT (R225). -/
def Dev.tilStat (d : Dev) (c : Nat) : Nat :=
  let x := d.col c
  atBit x.hrFail 31 + atBit (x.queue.any (·.poison)) 30 + atBit (d.prevInUse (c / 8)) 29 + d.ra.epoch % 256 * 256 + x.queue.length

/-- TIL block (R196, R224, R226). -/
def Dev.viewTil (d : Dev) (b i : Nat) : Option Nat :=
  if b = Reg.TIL_RA_STAT then some d.raStat
  else if b = Reg.TIL_n_SH_STAT 0 then some (d.col i).shStat
  else if b = Reg.TIL_n_COL_HANDOVER_LO 0 then some (half (d.col i).handover false)
  else if b = Reg.TIL_n_COL_HANDOVER_HI 0 then some (half (d.col i).handover true)
  else if b = Reg.TIL_n_RAMP_Q 0 then some (((d.col i).rampQ.getD 0) % 2 ^ 32)
  else if b = Reg.TIL_n_STAT 0 then some (d.tilStat i)
  else if b = Reg.TIL_HEALTH_STAT then some d.ra.healthPend
  else none

/-- HEAT_STAT (R259); the current plane is that of TOP_LAYER's layer (R229). -/
def Dev.heatStat (d : Dev) : Nat :=
  let h := d.heat
  atBit (h.pend != 0) 31 + atBit h.ftabNext.isSome 30 + h.ftabBank * 2 ^ 29 +
    d.get Reg.TOP_LAYER Fd.TOP_LAYER_LAYER % 2 * 2 ^ 28 + atBit h.ftabLoaded 27

/-- HEAT block (R258). -/
def Dev.viewHeat (d : Dev) (b : Nat) : Option Nat := if b = Reg.HEAT_STAT then some d.heatStat else none

/-- CAM block (R279, R280). -/
def Dev.viewCam (d : Dev) (b c : Nat) : Option Nat :=
  let x := d.cam c
  if b = Reg.CAM_c_PQ_STAT 0 then
    some (atBit x.active.isSome 31 + atBit x.staged.isSome 30 + atBit x.rej 29 + x.queue.length)
  else if b = Reg.CAM_c_FCNT 0 then some x.count
  else if b = Reg.CAM_c_STAT 0 then
    some (atBit (d.cam (d.camPort c)).plugged 31 + atBit (d.camRuns c && (d.expoOrHold || d.top.mode == .safe)) 30 + atBit x.frame.isSome 29 + x.stop * 2 ^ 27)
  else none

/-- HEAD_t_STAT (R313). -/
def Tile.stat (x : Tile) : Nat :=
  x.st.code * 2 ^ 28 + x.speed * 2 ^ 26 + atBit x.present 25 + atBit x.calDone 24 + x.refuse * 65536

/-- Two 16-bit values in one word. -/
def two16 (lo hi : Int) : Nat := ofS 16 hi * 65536 + ofS 16 lo

/-- HEAD block (R312 to R314). -/
def Dev.viewHead (d : Dev) (b t : Nat) : Option Nat :=
  let x := d.tile t
  let temp := fun (k : Nat) => nth x.temps k 0
  let rail := fun (k : Nat) => nth x.rails k 0 % 65536
  if b = Reg.HEAD_t_STAT 0 then some x.stat
  else if b = Reg.HEAD_t_ID 0 then some (x.s * 65536 + x.benLat * 256 + x.format)
  else if b = Reg.HEAD_t_SERIAL_LO 0 then some (half x.serial false)
  else if b = Reg.HEAD_t_SERIAL_HI 0 then some (half x.serial true)
  else if b = Reg.HEAD_t_TEMP01 0 then some (two16 (temp 0) (temp 1))
  else if b = Reg.HEAD_t_TEMP23 0 then some (two16 (temp 2) (temp 3))
  else if b = Reg.HEAD_t_RAIL01 0 then some (rail 1 * 65536 + rail 0)
  else if b = Reg.HEAD_t_RAIL2 0 then some (rail 2)
  else if b = Reg.HEAD_t_EYE_CTL 0 then some (atBit x.eyeBusy 31 + atBit x.eyeTmo 30 + bits (d.rd (Reg.HEAD_t_EYE_CTL t)) 5 1 * 2)
  else if b = Reg.HEAD_PLUG then some (sumN ((List.range 16).map fun k => atBit (d.tile k).present k))
  else none

/-- CAL_t_STAT (R339). -/
def Dev.calStat (d : Dev) (t : Nat) : Nat :=
  let x := d.calTile t
  let run := match d.cal.run with | some r => r.tiles.any (·.tile == t) | none => false
  x.bank * 2 ^ 31 + atBit x.pend.isSome 30 + atBit x.ramp 29 + atBit x.due 28 + atBit run 27 +
    d.get (Reg.CAL_t_STAT t) Fd.CAL_t_STAT_FAILS

/-- CAL_STAT (R339): a request made in Expose or Hold waits for a turnaround. -/
def Dev.calAllStat (d : Dev) : Nat :=
  let wait := fun (self : Bool) => d.cal.reqs.any fun r => r.selfTest == self && !r.calib
  atBit d.cal.run.isSome 31 + atBit (wait false) 30 + atBit (wait true) 29 +
    sumN ((List.range 16).map fun t => atBit (d.calTile t).due t)

/-- CAL block (R338, R339). -/
def Dev.viewCal (d : Dev) (b t : Nat) : Option Nat :=
  if b = Reg.CAL_t_STAT 0 then some (d.calStat t)
  else if b = Reg.CAL_t_CTL 0 then some (setBits (d.rd (Reg.CAL_t_CTL t)) 20 20 (d.calTile t).bank)
  else if b = Reg.CAL_STAT then some d.calAllStat
  else none

/-- STG_STAT (R363). -/
def Dev.stgStat (d : Dev) : Nat :=
  let s := d.stg
  atBit d.isMaster 31 + atBit s.lost 30 + atBit s.strikeOk 29 + atBit s.retreat 28 + atBit s.holdReq 27 + atBit s.syncSeen 26 +
    d.usableSeq d.ns % 65536

/-- STG block (R362, R363). -/
def Dev.viewStg (d : Dev) (b : Nat) : Option Nat := if b = Reg.STG_STAT then some d.stgStat else none

/-- The refreshes of pseudo-channel p that are postponed or wait behind one that runs (R450): each takes 410 ns, 1,025 half
core cycles. -/
def Dev.refreshWait (d : Dev) (p : Nat) : Nat :=
  nth d.hbmc.postponed p 0 + ((nth d.hbmc.busyTo p 0 - 2 * d.clk.up + 1024) / 1025 - 1)

/-- HBM block (R463): HBM_REF_STAT.NOW. -/
def Dev.viewHbm (d : Dev) (b : Nat) : Option Nat :=
  if b = Reg.HBM_REF_STAT then
    some (d.get b Fd.HBM_REF_STAT_MAX * 16 + min 15 (((List.range 32).map d.refreshWait).foldl max 0))
  else none

/-- ARB block (R464, R465): a request granted is served in the same step, so none is outstanding. -/
def Dev.viewArb (d : Dev) (b a : Nat) : Option Nat :=
  if b = Reg.ARB_a_STAT 0 then
    some (2 ^ 31 + d.get (Reg.ARB_a_CTL a) Fd.ARB_a_CTL_FREEZE * 2 ^ 30 + (d.arb a).active * 65536)
  else if b = Reg.ARB_STAT then
    let differs := (List.range 20).any fun k =>
      d.get (Reg.ARB_a_PRIO k) Fd.ARB_a_PRIO_PRIO != d.get (Reg.ARB_a_PRIO k) Fd.ARB_a_PRIO_ACT
    some (atBit differs 31 + d.get Reg.ARB_STAT Fd.ARB_STAT_COMMITS)
  else none

/-- KRY_p_STAT (R524). -/
def Dev.kryStat (d : Dev) (p : Nat) : Nat :=
  let x := d.port p
  let root := match x.nbr with | some (_, r, _) => r | none => false
  let stgm := match x.nbr with | some (_, _, s) => s | none => false
  x.st.code * 2 ^ 28 + (if x.st.live then x.rate else 0) * 2 ^ 26 + atBit x.nbr.isSome 25 + atBit root 24 + atBit stgm 23 + x.nbrId % 4096

/-- KRY block (R523, R524): the map reads 0 on any device but the ROOT. -/
def Dev.viewKry (d : Dev) (b i : Nat) : Option Nat :=
  if b = Reg.KRY_p_STAT 0 then some (d.kryStat i)
  else if b = Reg.KRY_ROUTE_CTL then
    some (atBit ((List.range 64).any fun k => d.rd (Reg.KRY_ROUTE_i k) != nth d.kry.route k 0) 31)
  else if Reg.KRY_MAP_d_SER_LO 0 ≤ b ∧ !d.isRoot then some 0
  else none

/-- TIME_STAT (R546): EPOCH and SEQ last sent, on the ROOT, or received. -/
def Dev.timeStat (d : Dev) : Nat :=
  let t := d.tim
  let (epoch, seq) := if d.isRoot then (t.epoch, if t.sentAt.isSome then (t.seqOut + 65535) % 65536 else 0)
    else (t.lastEpoch.getD 0, t.lastSeq.getD 0)
  atBit d.timeRef 31 + atBit d.timeLocked 30 + atBit t.holdover 29 + atBit (t.slewLeft d.clk.up != 0) 28 + atBit t.stepArm.isSome 27 +
    epoch % 256 * 65536 + seq % 65536

/-- TIME block (R545, R546): TIME_RATE reads the rate in force, TIME_SLEW the remainder in ns. -/
def Dev.viewTime (d : Dev) (b : Nat) : Option Nat :=
  if b = Reg.TIME_STAT then some d.timeStat
  else if b = Reg.TIME_NOW_LO then some (half d.ns false)
  else if b = Reg.TIME_NOW_HI then some (half d.ns true)
  else if b = Reg.TIME_NOW_FRAC then some (d.clk.now % 2 ^ 32)
  else if b = Reg.TIME_RATE then some (ofS 32 d.clk.rate)
  else if b = Reg.TIME_SLEW then some (ofS 32 (tdiv (d.tim.slewLeft d.clk.up) (2 ^ 32 : Nat)))
  else none

/-- SAF block (R576, R577): the settings and ceilings in force are in the register file. -/
def Dev.viewSaf (d : Dev) (b i : Nat) : Option Nat :=
  if Reg.SAF_CEIL_j 0 ≤ b then none else some (d.safWord ((b - 0xF00000) / 4 + i))

/-- MET_STAT (R603). -/
def Dev.metStat (d : Dev) : Nat :=
  let m := d.met
  let uncal := fun (t : Nat) => (d.tile t).present && !m.param.serials.any (fun s => s == nth m.tser t 0 && s != 0)
  atBit (m.errs != 0) 31 + atBit m.sealOpen 30 + atBit (m.on && m.verified) 29 + atBit m.nvLow 28 + atBit m.dispAbsent 27 +
    atBit m.build.isOpen 26 + atBit (!m.layers.isEmpty) 25 + sumN ((List.range 16).map fun t => atBit (uncal t) t)

/-- MET block (R602, R603). -/
def Dev.viewMet (d : Dev) (b i : Nat) : Option Nat :=
  let m := d.met
  let layerE := match m.layers.head? with | some l => energyNj l.acc | none => m.lastE
  let two := fun (base v : Nat) => if b = base then some (half v false) else if b = base + 4 then some (half v true) else none
  if b = Reg.MET_ID then some (atBit m.grade 16 + 0x0103)
  else if b = Reg.MET_STAT then some d.metStat
  else if b = Reg.MET_ERR then some m.errs
  else if b = Reg.MET_EC then some (m.factoryEc * 65536 + m.ec)
  else if b = Reg.MET_ROMCS then some m.romcs
  else if b = Reg.MET_PCRC then some m.param.crc
  else if b = Reg.MET_PARAM then some (m.param.railMin * 65536 + m.param.ver)
  else if b = Reg.MET_BOOT then some m.boot
  else if b = Reg.MET_PUBKEY_i 0 then some (fieldLE m.pub (4 * i + 3) (4 * i))
  else if b = Reg.MET_TSER_t_LO 0 then some (half (nth m.param.serials i 0) false)
  else if b = Reg.MET_TSER_t_HI 0 then some (half (nth m.param.serials i 0) true)
  else if b = Reg.MET_K_c 0 then some (nth m.param.k i 0)
  else ((two Reg.MET_SEQ_LO (m.wrote.getD 0)).or (two Reg.MET_EXP_LO (m.exported.getD 0))).or
    ((two Reg.MET_LAYER_E_LO layerE).or (two Reg.MET_BUILD_E_LO (energyNj m.build.acc)))

/-- PNL_STAT (R632). -/
def Dev.pnlStat (d : Dev) : Nat :=
  sumN ((List.range 4).map fun c => atBit (d.cam c).plugged (16 + c)) + d.pnl.keys % 256 * 256 +
    sumN ((List.range 8).map fun k => atBit (d.lamp k) k)

/-- PNL block (R631). -/
def Dev.viewPnl (d : Dev) (b : Nat) : Option Nat := if b = Reg.PNL_STAT then some d.pnlStat else none

/-- GLN block (R641, R642). -/
def Dev.viewGln (d : Dev) (b : Nat) : Option Nat :=
  if b = Reg.GLN_STAT then some (d.get Reg.GLN_CTL Fd.GLN_CTL_EN * 2 ^ 31 + d.glnDrain.gln.buf.length)
  else if b = Reg.GLN_SENT_LO then some (half d.glnDrain.gln.sent false)
  else if b = Reg.GLN_SENT_HI then some (half d.glnDrain.gln.sent true)
  else none

/-- STATE codes of LDG_k_STAT (R622). -/
def SlotSt.code : SlotSt → Nat
  | .unused => 0 | .opened => 1 | .completed => 2 | .abandoned => 3

/-- LDG block (R621, R622): `i` is the slot, `j` the counter. -/
def Dev.viewLdg (d : Dev) (b i j : Nat) : Option Nat :=
  let s := d.slot i
  let g := d.ldg
  if b = Reg.LDG_STAT then some (atBit g.wait 4 + (g.slots.filter (·.st == .opened)).length)
  else if b = Reg.LDG_k_LAYER 0 then some s.layer
  else if b = Reg.LDG_k_STAT 0 then some (s.st.code * 2 ^ 30 + atBit s.invalid 29 + s.tag % 2 ^ 24)
  else if b = Reg.LDG_k_CNT_i_LO 0 0 then some (half (nth s.cnt j 0) false)
  else if b = Reg.LDG_k_CNT_i_HI 0 0 then some (half (nth s.cnt j 0) true)
  else if b = Reg.LDG_BUILD_STAT then some (atBit g.buildOpen 31 + g.buildInt % 65536)
  else if b = Reg.LDG_BUILD_LAYERS then some (g.buildLayers % 2 ^ 32)
  else if b = Reg.LDG_BUILD_CNT_i_LO 0 then some (half (nth g.build i 0) false)
  else if b = Reg.LDG_BUILD_CNT_i_HI 0 then some (half (nth g.build i 0) true)
  else none

/-- The computed value of a register of block `blk`, none where the register file holds it. -/
def Dev.computed (d : Dev) (blk b i j : Nat) : Option Nat :=
  match blk with
  | 0x00 => d.viewTop b
  | 0x01 => d.viewRing b i
  | 0x02 => d.viewCpe b i
  | 0x03 => d.viewThr b i
  | 0x04 => d.viewTil b i
  | 0x05 => d.viewHeat b
  | 0x06 => d.viewCam b i
  | 0x07 => d.viewHead b i
  | 0x08 => d.viewCal b i
  | 0x09 => d.viewStg b
  | 0x0A => d.viewHbm b
  | 0x0B => d.viewArb b i
  | 0x0D => d.viewKry b i
  | 0x0E => d.viewTime b
  | 0x0F => d.viewSaf b i
  | 0x10 => d.viewMet b i
  | 0x11 => d.viewPnl b
  | 0x12 => d.viewGln b
  | 0x13 => d.viewLdg b i j
  | _ => none

/-- The present value of the register at a BAR0 offset; an unassigned offset reads 0 (R643). -/
def Dev.view (d : Dev) (a : Nat) : Nat :=
  match regRow a with
  | none => 0
  | some r =>
    let o := a - r.base
    (d.computed (a / 2 ^ 20) r.base (o / r.s1) (o % r.s1 / r.s2)).getD (d.rd a)

/-! ### Windows that are no registers: the MSI-X table and the Ethernet slots (R364, R535, R537) -/

/-- A word of the MSI-X table or of its pending bits (R364). -/
def Dev.msixWord (d : Dev) (o : Nat) : Nat :=
  if o < 0x400 then
    let e := nth d.host.msix (o / 16) {}
    (match o % 16 / 4 with | 0 => e.addrLo | 1 => e.addrHi | 2 => e.data | _ => e.ctrl).toNat
  else if o = 0x1000 then half d.host.pba false
  else if o = 0x1004 then half d.host.pba true
  else 0

/-- A word of an Ethernet slot's frame memory (R535, R537). -/
def Dev.ethWord (d : Dev) (o : Nat) : Nat :=
  if o < 0x4000 then ((getKey (o % 0x800 / 4) (d.txSlot (o / 0x800)).mem).getD 0).toNat
  else if 0x10000 ≤ o ∧ o < 0x18000 then
    match nth d.tim.rx ((o - 0x10000) / 0x800) none with
    | some x => let w := o % 0x800; fieldLE x.bytes (w + 3) w
    | none => 0
  else 0

/-- What an aligned read of a BAR0 word returns, before latches. -/
def Dev.word (d : Dev) (a : Nat) : Nat :=
  if 0x180000 ≤ a ∧ a < 0x181008 then d.msixWord (a - 0x180000)
  else if 0xE10000 ≤ a ∧ a < 0xE30000 then d.ethWord (a - 0xE10000)
  else d.view a

end Sys2Proof.Machine
end

