-- ==== Sys2Proof/Machine/HostRead.lean ====
section
/-!
DEFINITION. Reads of BAR0: latched register groups, counters that a read clears, and the access widths (R11, R48, R621,
R646, R648). Telemetry (R397) stands here too, since it reports registers.
-/
namespace Sys2Proof.Machine

/-! ### Latching (R48) -/

/-- LO registers whose read latches the HI register that follows. -/
def latchOne : List Nat :=
  [Reg.TOP_TICK_IDX_LO, Reg.TOP_SERIAL_LO, Reg.TIL_n_COL_HANDOVER_LO 0, Reg.CAL_t_LAST_LO 0, Reg.STG_POS_LO, Reg.CPE_c_PC_LO 0,
   Reg.CPE_c_HWIN_LO 0, Reg.CPE_BUSERR_LO, Reg.CHK_u_RES_LO 0, Reg.KRY_p_NBR_LO 0, Reg.KRY_MAP_d_SER_LO 0, Reg.TIME_STEP_LO,
   Reg.TIME_PTP_OFS_LO, Reg.TIME_TXD_s_LAUNCH_LO 0, Reg.SAF_CUT_TICK_LO, Reg.MET_SEQ_LO, Reg.MET_EXP_LO, Reg.MET_LAYER_E_LO,
   Reg.MET_BUILD_E_LO, Reg.MET_TSER_t_LO 0, Reg.GLN_SENT_LO]

/-- LO registers whose read latches the two registers that follow: HI and FRAC, or HI and INFO (R487, R545). -/
def latchTwo : List Nat :=
  [Reg.TIME_NOW_LO, Reg.TIME_TXQ_TS_LO, Reg.TIME_RXD_r_TS_LO 0, Reg.ECC_CE_LOG_LO, Reg.ECC_UE_LOG_LO]

/-- The registers that a read of the register at an offset latches (R48, R621). -/
def latchedBy (a : Nat) : List Nat :=
  match regRow a with
  | none => []
  | some r =>
    let o := a - r.base
    if latchOne.contains r.base then [a + 4]
    else if latchTwo.contains r.base then [a + 4, a + 8]
    else if r.base = Reg.LDG_k_LAYER 0 then
      (List.range 6).flatMap fun i => [Reg.LDG_k_CNT_i_LO (o / r.s1) i, Reg.LDG_k_CNT_i_HI (o / r.s1) i]
    else if r.base = Reg.LDG_BUILD_STAT then (List.range 5).flatMap fun i => [Reg.LDG_BUILD_CNT_i_LO i, Reg.LDG_BUILD_CNT_i_HI i]
    else []

/-- Latch a list of registers at their present values. -/
def Dev.latchAll (d : Dev) (as_ : List Nat) : Dev :=
  let put := fun (l : List (Nat × Word)) (a : Nat) => insKey a (BitVec.ofNat 32 (d.view a)) l
  { d with latch := as_.foldl put d.latch }

/-- Whether an offset lies in the mirror of a partition that is not powered. -/
def Dev.mirrorOff (d : Dev) (a : Nat) : Bool :=
  (decide (0xF00000 ≤ a) && decide (a < 0x1000000) && !d.saf.on) || (decide (0x1000000 ≤ a) && decide (a < 0x1100000) && !d.met.on)

/-- Clear the RC fields of a register: they return to their reset value (R11, R198). -/
def Dev.clearRead (d : Dev) (a : Nat) : Dev :=
  match regRow a with
  | none => d
  | some r => if r.rc = 0 then d else d.wr a ((d.rd a &&& (0xFFFFFFFF - r.rc)) ||| (r.reset &&& r.rc))

/-- One aligned 32-bit read: the value, a latched one where it is latched, and its side effects. The mirror of a
partition that is not powered reads a free value. -/
def Dev.readWordAt (d : Dev) (a : Nat) : Nat × Dev :=
  if d.mirrorOff a then
    let (k, d) := d.draw
    ((Config.free k).toNat % 2 ^ 32, d)
  else if a = Reg.TIME_TXQ_HDR then d.txqTake
  else
    let v := match getKey a d.latch with
      | some w => w.toNat
      | none => d.word a
    (v, (d.latchAll (latchedBy a)).clearRead a)

/-- A read of `len` bytes at a BAR0 offset (R646): within one register, an aligned pair of registers, or 0. -/
def Dev.hostRead (d : Dev) (a len : Nat) : Dev :=
  let a := a % 0x2000000
  let o := a % 4
  if len = 0 then d
  else if o + len ≤ 4 then
    let (v, d) := d.readWordAt (a - o)
    d.answer a (v / 2 ^ (8 * o) % 2 ^ (8 * len))
  else if len = 8 ∧ a % 8 = 0 then
    let (v, d) := d.readWordAt a
    let d := d.answer a v
    let (w, d) := d.readWordAt (a + 4)
    d.answer (a + 4) w
  else d.answer a 0

/-- LATCHING_READ (R48, R646): host software reads `len` bytes at a BAR0 offset. -/
def latchingRead (a len dt : Nat) (d : Dev) : Dev :=
  let d := d.after dt
  if d.linkUp then d.hostRead a len else d

/-- CLEAR_ON_READ (R11, R646, R648): host software reads a register with RC fields. -/
def clearOnRead (a len dt : Nat) (d : Dev) : Dev :=
  let d := d.after dt
  let isRc := match regRow (a % 0x2000000 / 4 * 4) with | some r => r.rc != 0 | none => false
  if d.linkUp && isRc then d.hostRead a len else d

/-- LDG_LAYER_READ (R621): host software reads LDG_k_LAYER, or LDG_BUILD_STAT for `none`. -/
def ldgLayerRead (k : Option Nat) (dt : Nat) (d : Dev) : Dev :=
  let d := d.after dt
  if !d.linkUp then d
  else
    match k with
    | some k => if k < 4 then d.hostRead (Reg.LDG_k_LAYER k) 4 else d
    | none => d.hostRead Reg.LDG_BUILD_STAT 4

/-! ### Telemetry (R397, R620) -/

/-- A ring-3 entry (R397): the stamp, PHASE, KIND and two bytes, DEVICE_ID, and its payload from byte 24 on. -/
def telemEntry (st : Stamp) (kind sub dev : Nat) (payload : List Byte) (ph : Nat) : List Byte :=
  padTo 64 (padTo 24 (st.bytes ++ toLE 1 ph ++ toLE 1 kind ++ toLE 1 sub ++ toLE 2 dev) ++ payload)

/-- Write one telemetry entry, with the stamp of the edge. -/
def Dev.putTelem (d : Dev) (kind sub : Nat) (payload : List Byte) : Dev :=
  let st := d.edgeStamp 0x1
  (d.countSlot 0x1).putOrLose 3 (telemEntry st kind sub d.id payload)

/-- The entry of one present tile; its charge sum starts again. -/
def Dev.telemTile (d : Dev) (t : Nat) : Dev :=
  let x := d.tile t
  let p := (List.range 4).flatMap (fun k => toLES 2 (nth x.temps k 0)) ++ (List.range 3).flatMap (fun k => toLE 2 (nth x.rails k 0)) ++
    toLE 2 0 ++ toLE 4 x.stat ++ toLE 4 (d.rd (Reg.TIL_TILE_STAT_t t)) ++ toLE 8 x.charge
  (d.putTelem 0x01 t p).setTile t fun x => { x with charge := 0 }

/-- The entry of one open ledger slot (R620): counters in whole DU, 48 bits. -/
def Dev.telemLedger (d : Dev) (k : Nat) : Dev :=
  let s := d.slot k
  d.putTelem 0x03 k (toLE 4 s.layer ++ (List.range 6).flatMap fun i => toLE 6 (min (2 ^ 48 - 1) (nth s.cnt i 0 / 32768)))

/-- TELEMETRY_PERIOD (R397, R620): the entries of the present tick index. -/
def telemetryPeriod (d : Dev) : Dev :=
  let per := d.rd Reg.RING_TELEM_CTL / 65536
  if !d.up ∨ per = 0 ∨ d.top.tick % (64 * per) ≠ 0 ∨ d.host.telemAt = some d.top.tick then d
  else
    let d := { d with host := { d.host with telemAt := some d.top.tick } }
    let d := if d.flag Reg.RING_TELEM_CTL Fd.RING_TELEM_CTL_TILE then
      ((List.range 16).filter fun t => (d.tile t).present).foldl Dev.telemTile d else d
    let d := if d.flag Reg.RING_TELEM_CTL Fd.RING_TELEM_CTL_STG then
      d.putTelem 0x02 0 (toLES 8 d.stg.pos ++ toLE 4 (d.rd Reg.STG_PERIOD) ++ toLE 4 d.stgStat) else d
    if d.flag Reg.RING_TELEM_CTL Fd.RING_TELEM_CTL_LDG then
      ((List.range 4).filter fun k => (d.slot k).st == .opened).foldl Dev.telemLedger d else d

end Sys2Proof.Machine
end

