-- ==== Sys2Proof/Machine/ExecHostRead.lean ====
section
/-!
DEFINITION. The meanings of the commands of reads of BAR0 and telemetry (chapters 12, 23).
-/
namespace Sys2Proof.Machine

/-- TELEMETRY_PERIOD (R397): At a tick index that is a multiple of 64 × PERIOD, the device writes the enabled
telemetry entries to ring 3. -/
def execTelemetryPeriod (s : State) : Result :=
  s.run telemetryPeriod

/-- LATCHING_READ (R48): A read of a LO register latches its HI register, or its group, for later reads. -/
def execLatchingRead (a len dt : Nat) (s : State) : Result :=
  s.run (latchingRead a len dt)

/-- CLEAR_ON_READ (R11): A read of an RC counter returns its value and clears it. -/
def execClearOnRead (a len dt : Nat) (s : State) : Result :=
  s.run (clearOnRead a len dt)

/-- LDG_LAYER_READ (R621): A read of LDG_k_LAYER, or of LDG_BUILD_STAT, latches all counter registers of the slot or
the build set. -/
def execLdgLayerRead (k : Option Nat) (dt : Nat) (s : State) : Result :=
  s.run (ldgLayerRead k dt)

end Sys2Proof.Machine
end

