-- ==== Sys2Proof/Machine/Reset.lean ====
section
/-!
DEFINITION. Resets and start-up (chapter 02, R64 to R75; R401, R434, R613): the main power-on reset, the device reset, the
host-interface and function-level resets.
-/
namespace Sys2Proof.Machine

/-! ### Identity (R13) -/

/-- What the device presents in PCI Express configuration space (R13). -/
structure PciId where
  vendor : Nat
  device : Nat
  classCode : Nat
  revision : Nat
  subVendor : Nat
  subId : Nat
  deriving DecidableEq, Repr

/-- The device's identity (R13): the revision is TOP_ID's stepping, and the subsystem IDs come from OTP, with their
defaults where the machine builder programmed none. -/
def Dev.pciId (d : Dev) : PciId :=
  { vendor := 0x1E85, device := d.get Reg.TOP_ID Fd.TOP_ID_DEVICE, classCode := 0x120000, revision := d.get Reg.TOP_ID Fd.TOP_ID_STEPPING
    subVendor := d.top.otpSubVendor.getD 0x1E85, subId := d.top.otpSubId.getD 0 }

/-! ### The main partition's resets (R64 to R72) -/

/-- Whether an offset is a register of the safety or metrology partition. -/
def partitionReg (a : Nat) : Bool := decide (0xF00000 ≤ a) && decide (a < 0x1100000)

/-- Sticky registers (R72, R480). -/
def stickyReg (a : Nat) : Bool :=
  a == Reg.TOP_RESET_CAUSE || a == Reg.ECC_UE_LOG_LO || a == Reg.ECC_UE_LOG_HI || a == Reg.ECC_UE_LOG_INFO

/-- What no reset of the main partition touches: the safety and metrology partitions with their registers, the core
cycles since power-on, the levels of the pins, OTP, and what has been sent and logged. -/
def Dev.otherParts (d : Dev) (keep : Nat → Bool) : Dev :=
  { rf := d.rf.filter fun e => partitionReg e.1 || keep e.1
    latch := d.latch.filter fun e => partitionReg e.1
    clk := { up := d.clk.up }
    top := { sysRst := d.top.sysRst, railsGood := d.top.railsGood, straps := d.top.straps, draws := d.top.draws,
             otpKey := d.top.otpKey, otpSerial := d.top.otpSerial, otpSubVendor := d.top.otpSubVendor, otpSubId := d.top.otpSubId }
    host := { perst := d.host.perst }
    saf := { d.saf with lastRise := none }
    met := { d.met with build := { d.met.build with endBy := none }, again := none }
    outs := d.outs
    log := d.log }

/-- Open slots of the ledger: the layers a reset interrupts. -/
def Dev.openSlots (d : Dev) : Nat := (d.ldg.slots.filter (·.st == .opened)).length

/-- The main power-on reset (R64, R71): sticky state is cleared too. -/
def Dev.mainReset (d : Dev) : Dev :=
  let d := d.metMainReset.otherParts fun _ => false
  { d with top := { d.top with railsGood := false } }

/-- MAIN_RAIL_FAIL (R653, R71): a main rail falls. -/
def mainRailFail (dt : Nat) (d : Dev) : Dev := (d.after dt).mainReset

/-- A device reset (R72, R74, R613): `bit_` is its bit of TOP_RESET_CAUSE. The build set is sticky (R615). -/
def Dev.deviceReset (d : Dev) (bit_ : Nat) : Dev :=
  let n := d.openSlots
  let b := (d.buildLost n).ldg
  let cause := d.rd Reg.TOP_RESET_CAUSE ||| 2 ^ bit_ ||| b2n (n != 0)
  let h : HostIf := { perst := d.host.perst, fails := d.host.fails, lockAt := d.host.lockAt }
  let d := d.metMainReset.otherParts stickyReg
  { d.wr Reg.TOP_RESET_CAUSE cause with
    host := h
    ldg := { buildOpen := b.buildOpen, buildInt := b.buildInt, buildLayers := b.buildLayers, build := b.build } }

/-- TOP_BIST after the self-test (R68, R69, R78): the decoder passes its 181 patterns, and `bist` names what fails in the
hardware's copies of it: the index of the first failing decoder and the number of failing ones. -/
def bistWord (bist : Option (Nat × Nat)) : Nat :=
  match bist with
  | none => if cpcSelfTest then 2 ^ 31 + 2 ^ 30 else 2 ^ 31
  | some (i, n) => 2 ^ 31 + i % 2 ^ 12 * 2 ^ 16 + n % 2 ^ 16

/-- T1 and the start-up that follows it (R65 to R69): the straps are sampled, OTP is loaded, the decoders are tested and
HBM3E is trained; the first tick edge ends it. -/
def Dev.startUp (d : Dev) (straps : Nat) (bist : Option (Nat × Nat)) : Dev :=
  let d := { d with top := { d.top with phase := .starting, straps := straps % 32 } }
  let d := (d.wr Reg.TOP_STRAP (straps % 32)).wr Reg.TOP_BIST (bistWord bist)
  let d := (d.wr Reg.TOP_SERIAL_LO d.top.otpSerial).wr Reg.TOP_SERIAL_HI (d.top.otpSerial / 2 ^ 32)
  let d := d.set Reg.KRY_ID Fd.KRY_ID_ROOT (straps % 2)
  (d.set Reg.HBM_STAT Fd.HBM_STAT_TRAINED 1).set Reg.HBM_STAT Fd.HBM_STAT_ORDER (d.get Reg.HBM_CFG Fd.HBM_CFG_ORDER)

/-- MAIN_POR_RELEASE (R64, R65): all main rails have been good for 2.0 ms. -/
def mainPorRelease (straps : Nat) (bist : Option (Nat × Nat)) (dt : Nat) (d : Dev) : Dev :=
  let d := d.after dt
  if d.top.railsGood then d
  else
    let d := { d with top := { d.top with railsGood := true } }
    if d.top.sysRst then d.startUp straps bist else d

/-- SYS_RST_N_RISE (R65). -/
def sysRstNRise (straps : Nat) (bist : Option (Nat × Nat)) (dt : Nat) (d : Dev) : Dev :=
  let d := d.after dt
  if d.top.sysRst then d
  else
    let d := { d with top := { d.top with sysRst := true } }
    if d.top.railsGood ∧ d.top.phase = .held then d.startUp straps bist else d

/-- DEVICE_RESET (R72, R79): SYS_RST_N has been low for 1 µs; the device stays in reset until it rises. -/
def deviceReset (dt : Nat) (d : Dev) : Dev :=
  let d := d.after dt
  let low := fun (d : Dev) => { d with top := { d.top with sysRst := false } }
  if d.top.phase = .held then low d else low (d.deviceReset 4)

/-- A write of TOP_RESET (R75): the self-test of the start-up that follows ends as `bist` says. -/
def Dev.topReset (d : Dev) (v : Nat) (bist : Option (Nat × Nat)) : Dev :=
  if d.hostOk ∧ bits v 31 16 = 0x5A17 ∧ bit v 0 then (d.deviceReset 3).startUp d.top.straps bist else d

/-- TOP_RESET (R75): TOP_RESET is written with v. -/
def topReset (v : Nat) (bist : Option (Nat × Nat)) (dt : Nat) (d : Dev) : Dev := (d.after dt).topReset v bist

/-! ### Resets of the host interface (R71, R73, R401, R434) -/

/-- The count whose low 16 bits a completion carries, the latest below CONS. -/
def fullCount (cons idx : Nat) : Nat :=
  let last := cons + 2 ^ 32 - 1
  (last - (last - idx) % 2 ^ 16) % 2 ^ 32

/-- The descriptor counts of ring n whose completions wait to be written (R365). -/
def Dev.waitingCounts (d : Dev) (n : Nat) : List Nat :=
  d.host.waitOut.filterMap fun o => match o with
    | .entry r _ _ b =>
      if r == 1 && byteAt b 19 == n && !bit (byteAt b 17) 1 then some (fullCount (d.rd (Reg.RING_n_CONS n)) (fieldLE b 21 20)) else none
    | _ => none

/-- What a reset retires on ring n: the count of the first descriptor that has not completed, and how many there are
(R73, R401). -/
def Dev.retiredOn (d : Dev) (n : Nat) : Nat × Nat :=
  if !isSubmit n then (0, 0)
  else
    let cons := d.rd (Reg.RING_n_CONS n)
    let mine := (d.ringSt n).outs ++ d.waitingCounts n
    let age := fun (k : Nat) => (cons + 2 ^ 32 - k) % 2 ^ 32
    let first := mine.foldl (fun m k => if age m < age k then k else m) cons
    let old := (d.ringSt n).retOld
    let left := d.unfetched n + sumN (old.map (·.2))
    let first := match old with | (k, _) :: _ => if mine.isEmpty then k else first | [] => first
    if mine.length + left = 0 then (0, 0) else (first, mine.length + left)

/-- The completion of an own descriptor is no longer awaited. -/
def fromRelay (x : Desc) : Bool := x.origin.isSome

/-- The commands of this device's own rings are dropped; those that came by relay stay (R73). -/
def Dev.dropOwn (d : Dev) : Dev :=
  let own : Bool := match d.host.begun with | some x => !fromRelay x | none => false
  let cmd := fun (x : Trig) => match x.want with
    | .modeSet _ => true | .resume => true | .sessionOpened => true | _ => false
  let d := { d with top := { d.top with trigs := if own then d.top.trigs.filter (fun x => !cmd x) else d.top.trigs } }
  let d := { d with host := { d.host with
    q0 := d.host.q0.filter fromRelay, begun := d.host.begun.filter fromRelay, q14 := [], out14 := [], relays := [] } }
  let mine := fun (r : CalReq) => match r.desc with | some x => !fromRelay x | none => false
  let runEnds := fun (r : CalRun) => if mine r.req then { r with req := { r.req with desc := none } } else r
  let d := { d with cal := { d.cal with reqs := d.cal.reqs.filter (fun r => !mine r), run := d.cal.run.map runEnds } }
  let d := { d with sheaf := { d.sheaf with
    lib := d.sheaf.lib.filter (fun v => fromRelay v.desc)
    portions := d.sheaf.portions.map fun (p : Portion) => { p with waiting := [], segs := [] } } }
  let m := d.met
  { d with met := { m with build := { m.build with endBy := m.build.endBy.filter fromRelay }
                           again := m.again.filter fun x => fromRelay x.2.2 } }

/-- The RING registers but the retire registers, and the rings' own state, return to reset (R401). -/
def Dev.resetRings (d : Dev) (retired : List (Nat × Nat)) : Dev :=
  let d := { d with rf := d.rf.filter fun e => decide (e.1 < 0x100000) || decide (0x180000 ≤ e.1) }
  let h := d.host
  let d := { d with host :=
    { perst := h.perst, fails := h.fails, lockAt := h.lockAt, q0 := h.q0, begun := h.begun, session := h.session,
      nextRelay := h.nextRelay, modeBlock := h.modeBlock } }
  let d := (List.range 16).foldl (fun (d : Dev) n =>
    (d.wr (Reg.RING_n_RETIRE_IDX n) (nth retired n (0, 0)).1).wr (Reg.RING_n_RETIRE_CNT n) (nth retired n (0, 0)).2) d
  (List.range 8).foldl (fun (d : Dev) n => d.wr (Reg.THR_SHF_ERR_n n) 0) d

/-- No layer's end owes a ring entry any more (R73). -/
def Dev.loseEntries (d : Dev) : Dev :=
  let lose := fun (l : Layer) => { l with noEntry := true }
  { d with sheaf := { d.sheaf with layers := d.sheaf.layers.map lose } }

/-- A stroke in progress is to be aborted where layout was lost (R73). -/
def Dev.abortFor (d : Dev) (layout : Bool) : Dev :=
  if layout && d.ra.cur.isSome then d.setTop fun t => { t with abortPend := true } else d

/-- A reset of the host interface that retires `retired` on each ring (R73, R401). -/
def Dev.hostResetWith (d : Dev) (retired : List (Nat × Nat)) (why bit_ : Nat) : Dev :=
  let layout := (List.range 8).any fun n => (nth retired (4 + n) (0, 0)).2 != 0
  let d := ((((d.dropOwn.resetRings retired).loseEntries).endSession why).engReset).abortFor layout
  d.wr Reg.TOP_RESET_CAUSE (d.rd Reg.TOP_RESET_CAUSE ||| 2 ^ bit_)

/-- A host-interface or function-level reset (R71, R73, R401): `why` is the reason of event 0x1002, `bit_` its bit of
TOP_RESET_CAUSE. R73 does not treat a second reset before a ring is enabled again: DESIGN CHOICE, the ring has then no
descriptor that has not completed, so its retire registers come to read 0 and 0. -/
def Dev.hostReset (d : Dev) (why bit_ : Nat) : Dev := d.hostResetWith ((List.range 15).map d.retiredOn) why bit_

/-- Such a reset whenever the main partition is out of its own reset: during start-up no ring, session or stroke exists,
and only TOP_RESET_CAUSE records it (R79). -/
def Dev.hostResetAny (d : Dev) (why bit_ : Nat) : Dev :=
  match d.top.phase with
  | .held => d
  | .starting => d.wr Reg.TOP_RESET_CAUSE (d.rd Reg.TOP_RESET_CAUSE ||| 2 ^ bit_)
  | .running => d.hostReset why bit_

/-- PERST_N_RISE (R66). -/
def perstNRise (dt : Nat) (d : Dev) : Dev :=
  let d := d.after dt
  { d with host := { d.host with perst := true } }

/-- HOST_INTERFACE_RESET (R71, R401): PERST_N falls (`why` 0), a hot reset (1), or the link goes down (2). -/
def hostInterfaceReset (why dt : Nat) (d : Dev) : Dev :=
  let d := d.after dt
  let d := d.hostResetAny 3 2
  { d with host := { d.host with perst := d.host.perst && why != 0 } }

/-- FUNCTION_LEVEL_RESET (R71, R401). -/
def functionLevelReset (dt : Nat) (d : Dev) : Dev :=
  let d := d.after dt
  if d.host.perst then d.hostResetAny 2 1 else d

/-- D3HOT_TRANSITION (R364): the power state becomes D3hot (`cold` true), or D0 again, which acts as a host-interface
reset. -/
def d3hotTransition (cold : Bool) (dt : Nat) (d : Dev) : Dev :=
  let d := d.after dt
  if d.top.phase = .held ∨ !d.host.perst ∨ d.host.d3hot = cold then d
  else if cold then { d with host := { d.host with d3hot := true } }
  else ({ d with host := { d.host with d3hot := false } }).hostResetAny 3 2

end Sys2Proof.Machine
end

