-- ==== Sys2Proof/Machine/HostWrite.lean ====
section
/-!
DEFINITION. Writes of BAR0 (R10 to R12, R46, R362, R643, R646 and the binding table of each block): the RW, W1C and W1S
fields of every register under its block's rules. `b` is the base of the register's row, `i` the number of its instance.
A block's function answers none where the register is a plain one.
-/
namespace Sys2Proof.Machine

/-- A plain register (R11): RW and SH fields take the value written, W1C bits written 1 clear. -/
def Dev.storeWord (d : Dev) (a v : Nat) : Dev :=
  match regRow a with
  | none => d
  | some r =>
    let x := (d.rd a &&& (0xFFFFFFFF - r.rw)) ||| (v &&& r.rw)
    d.wr a (x &&& (0xFFFFFFFF - (v &&& r.w1c)))

/-- TOP (R46, R75). -/
def Dev.writeTop (d : Dev) (b v : Nat) : Option Dev :=
  if b = Reg.TOP_RESET then some (d.topReset v none)
  else if b = Reg.TOP_TICK_CTL then some (d.wr b (clampN 5000 1000000 (v % 2 ^ 20)))
  else none

/-- RING (R369, R370, R400, R407). -/
def Dev.writeRing (d : Dev) (b i v : Nat) : Option Dev :=
  if i = 15 then some d
  else if b = Reg.RING_n_CTL 0 then some (if bit v 7 then d.ringEnable i v else d.ringDisable i v)
  else if b = Reg.RING_n_BASE_LO 0 ∨ b = Reg.RING_n_BASE_HI 0 then if d.ringEn i then some d else none
  else if b = Reg.RING_n_DATA_LO 0 ∨ b = Reg.RING_n_DATA_HI 0 ∨ b = Reg.RING_n_DATA_SIZE 0 then
    if (i = 12 ∨ i = 13) ∧ !d.ringEn i then none else some d
  else if b = Reg.RING_FLAG_LO ∨ b = Reg.RING_FLAG_HI then
    if d.flag Reg.RING_FLAG_CTL Fd.RING_FLAG_CTL_EN then some d else none
  else if b = Reg.RING_FLAG_CTL then
    let en := d.flag b Fd.RING_FLAG_CTL_EN
    let d := d.set b Fd.RING_FLAG_CTL_EN (bits v 7 7)
    some (if en then d else d.set b Fd.RING_FLAG_CTL_LOG2N (bits v 4 0))
  else none

/-- CPE and CHK (R428, R437): with both bits written, ABORT prevails. -/
def Dev.writeCpe (d : Dev) (b i v : Nat) : Option Dev :=
  if b = Reg.CPE_c_CTL 0 then some (if bit v 1 then d.abortChan i else if bit v 0 then d.restart i else d)
  else if b = Reg.CPE_c_HWIN_LO 0 ∨ b = Reg.CPE_c_HWIN_HI 0 then
    if (d.chan i).st.running then some d
    else
      let d := d.storeWord (b + 64 * i) v
      let w := d.rd64 (Reg.CPE_c_HWIN_LO i) (Reg.CPE_c_HWIN_HI i)
      some (if b = Reg.CPE_c_HWIN_HI 0 then d.setChan i fun x => { x with hwin := w } else d)
  else none

/-- A LO and HI pair takes effect with the write of HI. -/
def Dev.pairAt (d : Dev) (hi v : Nat) (f : Dev → Nat → Dev) : Dev :=
  let d := d.storeWord hi v
  f d (d.rd64 (hi - 4) hi)

/-- THR (R129, R159, R161, R167). -/
def Dev.writeThr (d : Dev) (b i v : Nat) : Option Dev :=
  let lib := fun (x : Nat) =>
    let d := d.storeWord b v
    { d with sheaf := { d.sheaf with libInForce := put 2 (0, 0) d.sheaf.libInForce x fun _ => (d.rd (b - 4), d.rd b) } }
  if b = Reg.THR_n_CTL 0 then
    let d := if bit v 1 then d.thrReinstate i else d
    some (if bit v 0 then d.thrEnable i else d.thrDisable i)
  else if b = Reg.THR_LIB0_HI then some (lib 0)
  else if b = Reg.THR_LIB1_HI then some (lib 1)
  else if b = Reg.THR_RAB_HI then
    some (d.pairAt b v fun (d : Dev) x => { d with sheaf := { d.sheaf with rabPair := x } })
  else none

/-- TIL (R207, R208, R221, R226). -/
def Dev.writeTil (d : Dev) (b i v : Nat) : Option Dev :=
  if b = Reg.TIL_n_CTL 0 then some (d.colEnable i (bit v 0))
  else if b = Reg.TIL_n_DELAY 0 then some (d.shadowWrite i 0 v)
  else if b = Reg.TIL_n_SHARE 0 then some (d.shadowWrite i 1 v)
  else if b = Reg.TIL_n_RAMP 0 then some (d.shadowWrite i 2 v)
  else if b = Reg.TIL_HEALTH_HI then
    some (d.pairAt b v fun (d : Dev) x => { d with ra := { d.ra with healthPair := x } })
  else if b = Reg.TIL_HEALTH_CTL ∧ bit v 0 then some (d.healthCommit (bits v 1 1))
  else none

/-- A parameter of the heat memory is written: its kind becomes pending (R253). -/
def Dev.heatDue (d : Dev) (a v kind : Nat) : Dev :=
  let d := d.storeWord a v
  { d with heat := { d.heat with pend := d.heat.pend ||| kind } }

/-- HEAT (R244, R253, R254, R259). -/
def Dev.writeHeat (d : Dev) (b a v : Nat) : Option Dev :=
  if b = Reg.HEAT_CTL then
    let w := d.get b Fd.HEAT_CTL_HOSTWR
    let d' := d.storeWord b v
    some (if d.top.mode = .configure ∨ d.top.mode = .hold then d' else d'.set b Fd.HEAT_CTL_HOSTWR w)
  else if b = Reg.HEAT_DF_FAST_i 0 ∨ b = Reg.HEAT_DF_SLOW_i 0 then some (d.heatDue a v 1)
  else if b = Reg.HEAT_RISE then some (d.heatDue a v 2)
  else if b = Reg.HEAT_CARRY then some (d.heatDue a v 4)
  else if b = Reg.HEAT_BASE_HI then
    some (d.pairAt b v fun (d : Dev) x => { d with heat := { d.heat with basePair := x } })
  else if b = Reg.HEAT_FTAB_HI then
    some (d.pairAt b v fun (d : Dev) x => { d with heat := { d.heat with ftabBase := x } })
  else if b = Reg.HEAT_FTAB_CTL ∧ bit v 0 then some (d.ftabCommit (bits v 1 1))
  else none

/-- CAM (R270, R274, R275). -/
def Dev.writeCam (d : Dev) (b c v : Nat) : Option Dev :=
  if b = Reg.CAM_c_CTL 0 then
    let d := d.set (Reg.CAM_c_CTL c) Fd.CAM_c_CTL_EXPORT (bits v 1 1)
    some (if bit v 0 then d.camEnable c else d.camDisable c)
  else if b = Reg.CAM_c_PQ_TAG 0 then some (d.pqPush c v)
  else none

/-- HEAD (R303, R305, R307, R314). -/
def Dev.writeHead (d : Dev) (b t v : Nat) : Option Dev :=
  if b = Reg.HEAD_t_CTL 0 then
    let d := d.storeWord (Reg.HEAD_t_CTL t) v
    let d := if bit v 1 then d.reident t else d
    some (if bit v 0 then d.retrain t else d)
  else if b = Reg.HEAD_t_EYE_CTL 0 then
    let d := d.storeWord (Reg.HEAD_t_EYE_CTL t) v
    some (if bit v 0 then d.eyeStart t (bits v 2 1) (bits v 5 3) else d)
  else if b = Reg.HEAD_ACK_EXPECT then some (d.wr b (max 8100 (v % 2 ^ 20)))
  else none

/-- CAL (R318, R338): BANK is written in Configure only. -/
def Dev.writeCal (d : Dev) (b t v : Nat) : Option Dev :=
  if b = Reg.CAL_t_CTL 0 then
    let d := d.storeWord (Reg.CAL_t_CTL t) v
    some (if d.top.mode = .configure then d.setCalTile t fun c => { c with bank := bits v 20 20 } else d)
  else if b = Reg.CAL_BASE_HI then
    some (d.pairAt b v fun (d : Dev) x => { d with cal := { d.cal with basePair := x } })
  else none

/-- The fields of a STG register that are written in Configure only (R362). -/
def stgLocked (b : Nat) : Nat :=
  if b = Reg.STG_CTL then 0x0F770010 else if b = Reg.STG_REENTRY then 0 else 0xFFFFFFFF

/-- STG (R342, R362, R363): outside Configure a write that would change a locked field changes none of them and clears
READY. -/
def Dev.writeStg (d : Dev) (b a v : Nat) : Option Dev :=
  let m := stgLocked b
  let old := d.rd a
  if d.top.mode = .configure then
    let d := d.storeWord a v
    if b = Reg.STG_ORIGIN_HI then some (d.setStg fun s => { s with origin := d.rd64 Reg.STG_ORIGIN_LO Reg.STG_ORIGIN_HI % 2 ^ 40 })
    else if b = Reg.STG_QUAD_CFG then some (d.setStg fun s => { s with qerr := [false, false] })
    else some d
  else
    let d' := d.storeWord a ((v &&& (0xFFFFFFFF - m)) ||| (old &&& m))
    if (d.storeWord a v).rd a &&& m = old &&& m then some d' else some (d'.set Reg.STG_CTL Fd.STG_CTL_READY 0)

/-- HBM and ARB (R446, R459, R462, R464). -/
def Dev.writeHbm (d : Dev) (b v : Nat) : Option Dev :=
  if b = Reg.HBM_CFG then some (d.hbmCfg v)
  else if b = Reg.ARB_COMMIT then some (if bit v 0 then arbCommit 0 d else d)
  else none

/-- ECC (R483, R486): a change to a region restarts the pass. -/
def Dev.writeEcc (d : Dev) (b a v : Nat) : Option Dev :=
  let k := (a - b) / 16
  let stop := fun (d : Dev) => { d with hbmc := { d.hbmc with pass := none } }
  if b = Reg.ECC_SCRUB_BASE_k_HI 0 then
    let d := d.storeWord a v
    let x := d.rd64 (a - 4) a
    let same := decide (nth d.hbmc.scrubBase k 0 = x)
    let d := { d with hbmc := { d.hbmc with scrubBase := put 4 0 d.hbmc.scrubBase k fun _ => x } }
    some (if same then d else stop d)
  else if b = Reg.ECC_SCRUB_SIZE_k 0 then
    let d' := d.storeWord a v
    some (if d'.rd a = d.rd a then d' else stop d')
  else none

/-- KRY (R495, R506, R507, R523). -/
def Dev.writeKry (d : Dev) (b p v : Nat) : Option Dev :=
  if b = Reg.KRY_p_CTL 0 then some (d.kryCtl p v)
  else if b = Reg.KRY_p_EYE_CTL 0 ∧ bit v 0 then some (kryEyeScanStart p v 0 d)
  else if b = Reg.KRY_ENUM then
    let d := d.storeWord b v
    let d := if bit v 31 then kryConfirm v 0 d else d
    some (if bit v 30 then kryReenum v 0 d else d)
  else if b = Reg.KRY_ROUTE_CTL then some (if bit v 0 then kryRouteCommit 0 d else d)
  else none

/-- TIME (R526, R527, R535, R537, R539, R546). -/
def Dev.writeTime (d : Dev) (b i v : Nat) : Option Dev :=
  if b = Reg.TIME_CTL ∧ bit v 0 then some (holdoverEnter v 0 d)
  else if b = Reg.TIME_RATE then some (timeRateWrite v 0 d)
  else if b = Reg.TIME_SLEW then some (timeSlewWrite v 0 d)
  else if b = Reg.TIME_STEP_HI then some (timeStepArm v 0 d)
  else if b = Reg.TIME_PTP_OFS_LO ∨ b = Reg.TIME_PTP_OFS_HI then if d.timeRef then none else some d
  else if b = Reg.TIME_TXD_s_CTL 0 ∧ bit v 31 then some (ethTxGo i v 0 d)
  else if b = Reg.TIME_RXD_r_STAT 0 then some (if bit v 31 then d.rxFree i else d)
  else none

/-- GLN (R635, R638, R639). -/
def Dev.writeGln (d : Dev) (b v : Nat) : Option Dev :=
  if b = Reg.GLN_CTL then some (d.glnCtl v)
  else if b = Reg.GLN_PMC_CTL then some (d.pmcCtl v)
  else none

/-- The rule of the register's own block, none for a plain register. -/
def Dev.writeOwn (d : Dev) (a b i v : Nat) : Option Dev :=
  match a / 2 ^ 20 with
  | 0x00 => d.writeTop b v
  | 0x01 => d.writeRing b i v
  | 0x02 => d.writeCpe b i v
  | 0x03 => d.writeThr b i v
  | 0x04 => d.writeTil b i v
  | 0x05 => d.writeHeat b a v
  | 0x06 => d.writeCam b i v
  | 0x07 => d.writeHead b i v
  | 0x08 => d.writeCal b i v
  | 0x09 => d.writeStg b a v
  | 0x0A => d.writeHbm b v
  | 0x0B => d.writeHbm b v
  | 0x0C => d.writeEcc b a v
  | 0x0D => d.writeKry b i v
  | 0x0E => d.writeTime b i v
  | 0x12 => d.writeGln b v
  | _ => none

/-- A write of a dword of the MSI-X table (R364, R403): a vector that is pending is signalled when its mask is
cleared. -/
def Dev.writeMsix (d : Dev) (o v : Nat) : Dev :=
  if 0x400 ≤ o then d
  else
    let k := o / 16
    let w := BitVec.ofNat 32 v
    let f := fun (e : MsixEntry) => match o % 16 / 4 with
      | 0 => { e with addrLo := w } | 1 => { e with addrHi := w } | 2 => { e with data := w }
      | _ => { e with ctrl := BitVec.ofNat 32 (v % 2) }
    let d := { d with host := { d.host with msix := put 64 {} d.host.msix k f } }
    d.msixRelease k

/-- A write of a dword of a transmit slot's frame memory (R535). -/
def Dev.writeEth (d : Dev) (o v : Nat) : Dev :=
  if o < 0x4000 then
    let k := o % 0x800 / 4
    d.setTx (o / 0x800) fun x => { x with mem := if v = 0 then delKey k x.mem else insKey k (BitVec.ofNat 32 v) x.mem }
  else d

/-- Whether a write at an offset needs an open session (R643). -/
def needsOpen (a : Nat) : Bool :=
  let k := a / 2 ^ 20
  !(k == 0 || k == 1 || k == 0x12)

/-- Whether an offset is never writable: the SAF and MET mirrors and the LDG block (R12, R643). -/
def neverWritten (a : Nat) : Bool :=
  let k := a / 2 ^ 20
  k == 0x0F || k == 0x10 || k == 0x13

/-- One aligned 32-bit write (R10, R12, R643). -/
def Dev.writeWordAt (d : Dev) (a v : Nat) : Dev :=
  if neverWritten a ∨ (needsOpen a ∧ !d.hasSession) then d
  else if 0x180000 ≤ a ∧ a < 0x200000 then d.writeMsix (a - 0x180000) v
  else if 0xE10000 ≤ a ∧ a < 0xE30000 then d.writeEth (a - 0xE10000) v
  else
    match regRow a with
    | none => d
    | some r => (d.writeOwn a r.base ((a - r.base) / r.s1) v).getD (d.storeWord a v)

/-- REGISTER_WRITE (R12, R643, R646): host software writes `len` bytes at a BAR0 offset. -/
def registerWrite (a len v dt : Nat) (d : Dev) : Dev :=
  let d := d.after dt
  let a := a % 0x2000000
  if !d.linkUp then d
  else if len = 4 ∧ a % 4 = 0 then d.writeWordAt a (v % 2 ^ 32)
  else if len = 8 ∧ a % 8 = 0 then
    let d := d.writeWordAt a (v % 2 ^ 32)
    d.writeWordAt (a + 4) (v / 2 ^ 32 % 2 ^ 32)
  else d

end Sys2Proof.Machine
end

