-- ==== Sys2Proof/Machine/ExecHostWrite.lean ====
section
/-!
DEFINITION. The meanings of the commands of register writes (chapter 23).
-/
namespace Sys2Proof.Machine

/-- REGISTER_WRITE (R12): A write to a register with no row of its own applies its RW, W1C and W1S fields under its
block's rules, and has no effect on RO, SAF and MET fields. -/
def execRegisterWrite (a len v dt : Nat) (s : State) : Result :=
  s.run (registerWrite a len v dt)

end Sys2Proof.Machine
end

