-- ==== Sys2Proof/Machine/ExecKrypel.lean ====
section
/-!
DEFINITION. The meanings of the commands of the fabric (chapter 16).
-/
namespace Sys2Proof.Machine

/-- KRY_PORT_ENABLE (R491): A port with EN = 1 begins link bring-up at a tick edge. -/
def execKryPortEnable (p dt : Nat) (s : State) : Result :=
  s.run (kryPortEnable p dt)

/-- KRY_PORT_DISABLE (R494): A write of KRY_p_CTL.EN = 0 takes the link to DISABLED and discards its replay buffer. -/
def execKryPortDisable (p v dt : Nat) (s : State) : Result :=
  s.run (kryPortDisable p v dt)

/-- KRY_BRINGUP_STEP_TIMEOUT (R492): A fabric bring-up step misses its limit and is repeated, or the link stays
degraded or down. -/
def execKryBringupStepTimeout (p : Nat) (s : State) : Result :=
  s.run (kryBringupStepTimeout p)

/-- TRAIN (R491): A TRAIN flit with speed, READY and supported speeds is received during bring-up. -/
def execTrain (p w : Nat) (mine : Bool) (dt : Nat) (s : State) : Result :=
  s.run (train p w mine dt)

/-- HELLO (R497): A HELLO flit carrying the neighbour's identity is checked and may start a new link epoch or
quarantine the link. -/
def execHello (p w dt : Nat) (s : State) : Result :=
  s.run (hello p w dt)

/-- ENUM (R504): An ENUM flit assigns or checks this device's ID, or carries confirmation of the map. -/
def execEnum (p w dt : Nat) (s : State) : Result :=
  s.run (enum_ p w dt)

/-- IDLE (R496): An IDLE flit delivers the neighbour's ACK, NAK and cumulative credit counters. -/
def execIdle (p w dt : Nat) (s : State) : Result :=
  s.run (idle p w dt)

/-- DLY (R499): A DLY flit is answered as a request or used as a response to measure link delay. -/
def execDly (p w turn dt : Nat) (s : State) : Result :=
  s.run (dly p w turn dt)

/-- DLY_PERIOD (R499): Every 1 ms the device sends a DLY request on each port that is up. -/
def execDlyPeriod (dt : Nat) (s : State) : Result :=
  s.run (dlyPeriod dt)

/-- FAST_RETRAIN (R493): Loss of block lock, excess errors or repeated replays send the link into fast retrain. -/
def execFastRetrain (p reason dt : Nat) (s : State) : Result :=
  s.run (fastRetrain p reason dt)

/-- KRY_IDLE_TIMEOUT (R493): No valid IDLE flit arrives for 10 µs and the link enters fast retrain. -/
def execKryIdleTimeout (p : Nat) (s : State) : Result :=
  s.run (kryIdleTimeout p)

/-- KRY_RETRAIN (R493): A write of KRY_p_CTL.RETRAIN starts a fast retrain. -/
def execKryRetrain (p v dt : Nat) (s : State) : Result :=
  s.run (kryRetrain p v dt)

/-- KRY_ACK_TIMEOUT (R513): ACK has not advanced for 2 µs with frames unacknowledged, so every unacknowledged frame is
replayed. -/
def execKryAckTimeout (p : Nat) (s : State) : Result :=
  s.run (kryAckTimeout p)

/-- ROOT_ENUM_START (R504): The ROOT takes ID 0x000 and sends ENUM of generation 1, after its first HELLO or 200 ms
after Dormant. -/
def execRootEnumStart (dt : Nat) (s : State) : Result :=
  s.run (rootEnumStart dt)

/-- KRY_CONFIRM (R506): A write of KRY_ENUM.CONFIRM at the ROOT confirms the map if the count matches and no conflict
is shown. -/
def execKryConfirm (v dt : Nat) (s : State) : Result :=
  s.run (kryConfirm v dt)

/-- KRY_REENUM (R507): A write of KRY_ENUM.REENUM at the ROOT starts a new enumeration generation. -/
def execKryReenum (v dt : Nat) (s : State) : Result :=
  s.run (kryReenum v dt)

/-- KRY_ROUTE_COMMIT (R523): A write of KRY_ROUTE_CTL.COMMIT brings the shadow route table into force. -/
def execKryRouteCommit (dt : Nat) (s : State) : Result :=
  s.run (kryRouteCommit dt)

/-- KRY_EYE_SCAN_START (R495): A write of START to KRY_p_EYE_CTL starts an eye scan of a receive lane. -/
def execKryEyeScanStart (p v dt : Nat) (s : State) : Result :=
  s.run (kryEyeScanStart p v dt)

/-- KRY_EYE_SCAN_DONE (R495): The fabric eye scan completes and writes KRY_p_EYE_l. -/
def execKryEyeScanDone (p : Nat) (margins : List Nat) (dt : Nat) (s : State) : Result :=
  s.run (kryEyeScanDone p margins dt)

/-- MAP_REPORT (R505): A MAP_REPORT frame reaches the ROOT and is written into its map entry. -/
def execMapReport (dt : Nat) (s : State) : Result :=
  s.run (mapReport dt)

/-- RELAY_CMD (R518): A relayed ring-0 descriptor arrives at the target and is executed under its ring-0 rules. -/
def execRelayCmd (dt : Nat) (s : State) : Result :=
  s.run (relayCmd dt)

/-- RELAY_CPL (R518): The completion of a relayed command returns and the origin writes it on its ring 1. -/
def execRelayCpl (dt : Nat) (s : State) : Result :=
  s.run (relayCpl dt)

/-- RELAYED_EVENT (R519): A relayed event entry arrives and is written to this device's ring 2. -/
def execRelayedEvent (dt : Nat) (s : State) : Result :=
  s.run (relayedEvent dt)

/-- RELAYED_TELEMETRY (R519): A relayed telemetry entry arrives and is written to this device's ring 3. -/
def execRelayedTelemetry (dt : Nat) (s : State) : Result :=
  s.run (relayedTelemetry dt)

/-- FRAME_FORWARD (R501): A routed Krypel frame arrives whole and is checked by CRC and FSEQ; it is then forwarded
under R509 and R510, or discarded with a NAK or under R516. -/
def execFrameForward (p : Nat) (flits : List (BitVec 128)) (dt : Nat) (s : State) : Result :=
  s.run (frameForward p flits dt)

end Sys2Proof.Machine
end

