-- ==== Sys2Proof/Machine/ExecLayers.lean ====
section
/-!
DEFINITION. The meanings of the commands of layers and strokes (chapters 03, 05, 12).
-/
namespace Sys2Proof.Machine

/-- SEGMENT_COMPLETE (R85): The segment's descriptor completes once no record in it can contribute to any further
expansion. -/
def execSegmentComplete (n dt : Nat) (s : State) : Result :=
  s.run (segmentComplete n dt)

/-- LAYER_COMPLETION (R389): Once the layer has closed and its DU are resolved, the two-entry layer completion is
written and the LAYER record is sent to metrology. -/
def execLayerCompletion (dt : Nat) (s : State) : Result :=
  s.run (layerCompletion dt)

/-- LAYER_ACCEPT (R91): Once all eight portions' LAYER_BEGIN and CLASS_TABLE have arrived, agree and a ledger slot is
free, the layer is accepted and its library base latched. -/
def execLayerAccept (dt : Nat) (s : State) : Result :=
  s.run (layerAccept dt)

/-- STROKE_ACCEPT (R142): Once all eight STRIPE_BEGIN records agree, the stroke is accepted and given its buffer line
numbers, or refused. -/
def execStrokeAccept (dt : Nat) (s : State) : Result :=
  s.run (strokeAccept dt)

/-- FENCE_REACHED (R118): Every line below a fence's LINE has been expanded or struck, so the fence is reached and its
event logged. -/
def execFenceReached (n id dt : Nat) (s : State) : Result :=
  s.run (fenceReached n id dt)

/-- LAYER_CLOSE (R236): Pass 7 of every tile has struck the last line of the last stroke, so the layer closes and
t_close is recorded. -/
def execLayerClose (dt : Nat) (s : State) : Result :=
  s.run (layerClose dt)

end Sys2Proof.Machine
end

