-- ==== Sys2Proof/Machine/ExecMetrology.lean ====
section
/-!
DEFINITION. The meanings of the commands of the metrology partition (chapter 19).
-/
namespace Sys2Proof.Machine

/-- MET_POWER_ON (R594): The metrology partition powers on, checks its NV header, finds the first blank page and
writes a POWER record. -/
def execMetPowerOn (nv : Option (List (List Byte) × Nat)) (rom : Bool) (otp : Option Nat) (dt : Nat) (s : State) : Result :=
  s.run (metPowerOn nv rom otp dt)

/-- VDD_MET_LOSS (R600): VDD_MET is lost and the open layer's accumulation is lost. -/
def execVddMetLoss (dt : Nat) (s : State) : Result :=
  s.run (vddMetLoss dt)

/-- MET_BUILD_BEGIN (R596): A metrology build is opened with its tag, and the ledger build set is cleared. -/
def execMetBuildBegin (dt : Nat) (s : State) : Result :=
  s.run (metBuildBegin dt)

/-- MET_BUILD_END (R596): The build is closed after its open layer ends and the BUILD record is written. -/
def execMetBuildEnd (dt : Nat) (s : State) : Result :=
  s.run (metBuildEnd dt)

/-- MET_EXPORT (R596): Records from a given SEQ are copied to ring 13 again. -/
def execMetExport (dt : Nat) (s : State) : Result :=
  s.run (metExport dt)

/-- MET_RECORD_EXPORT (R595): A metrology record waiting for space is copied to ring 13 in SEQ order. -/
def execMetRecordExport (dt : Nat) (s : State) : Result :=
  s.run (metRecordExport dt)

/-- MET_SEAL_CHANGE (R586): A debounced change of MET_SEAL writes a SEAL record. -/
def execMetSealChange (isOpen : Bool) (dt : Nat) (s : State) : Result :=
  s.run (metSealChange isOpen dt)

/-- MET_SERVICE_POLL (R586): While the seal is open, the partition polls the service interface every 100 ms and may
accept a parameter image. -/
def execMetServicePoll (ready : Nat) (img : List Byte) (dt : Nat) (s : State) : Result :=
  s.run (metServicePoll ready img dt)

/-- MET_DISPLAY_UPDATE (R597): Every 1 s, and at each change, the partition writes the display screen. -/
def execMetDisplayUpdate (ack : Bool) (dt : Nat) (s : State) : Result :=
  s.run (metDisplayUpdate ack dt)

/-- MET_XTAL_STOP (R599): No crystal edge for 1 ms, and the partition enters the XTAL error state. -/
def execMetXtalStop (dt : Nat) (s : State) : Result :=
  s.run (metXtalStop dt)

/-- MET_XTAL_RESTORED (R599): The crystal has run for 1 s, and the XTAL error cause is left. -/
def execMetXtalRestored (dt : Nat) (s : State) : Result :=
  s.run (metXtalRestored dt)

/-- MET_NV_RETRY (R599): Every 1 s after an NV failure, the partition retries the write of waiting records. -/
def execMetNvRetry (works : Bool) (dt : Nat) (s : State) : Result :=
  s.run (metNvRetry works dt)

end Sys2Proof.Machine
end

