-- ==== Sys2Proof/Machine/ExecPanel.lean ====
section
/-!
DEFINITION. The meanings of the commands of the panel and the trace port (chapters 21, 22).
-/
namespace Sys2Proof.Machine

/-- KEY_PRESS (R624): A debounced key press performs its assigned function: HOLD, RESUME, SHOW_MET or an event. -/
def execKeyPress (k dt : Nat) (s : State) : Result :=
  s.run (keyPress k dt)

/-- KEY_RELEASE (R623): A debounced key release logs its event. -/
def execKeyRelease (k dt : Nat) (s : State) : Result :=
  s.run (keyRelease k dt)

/-- GLEAN_ENABLE (R635): A write of GLN_CTL.EN = 1 starts the port, sending 16 IDLE records first. -/
def execGleanEnable (v dt : Nat) (s : State) : Result :=
  s.run (gleanEnable v dt)

/-- GLEAN_DISABLE (R638): A write of GLN_CTL.EN = 0 stops the port and discards the trace buffer. -/
def execGleanDisable (v dt : Nat) (s : State) : Result :=
  s.run (gleanDisable v dt)

/-- GLEAN_PERIODIC_SAMPLE (R637): At the configured tick-index multiples, arbitration samples and ledger snapshot
records are queued. -/
def execGleanPeriodicSample (s : State) : Result :=
  s.run gleanPeriodicSample

/-- PMC_SNAP (R639): A write of GLN_PMC_CTL.SNAP copies all eight counters into their LO and HI registers. -/
def execPmcSnap (v dt : Nat) (s : State) : Result :=
  s.run (pmcSnap v dt)

/-- PMC_CLEAR (R639): A write of GLN_PMC_CTL.CLEAR sets all eight counters to 0. -/
def execPmcClear (v dt : Nat) (s : State) : Result :=
  s.run (pmcClear v dt)

end Sys2Proof.Machine
end

