-- ==== Sys2Proof/Machine/ExecReset.lean ====
section
/-!
DEFINITION. The meanings of the commands of resets and start-up (chapter 02).
-/
namespace Sys2Proof.Machine

/-- MAIN_RAIL_FAIL (R653): A main rail falls below 88 % for 1 µs, causing a main power-on reset that clears sticky
state. -/
def execMainRailFail (dt : Nat) (s : State) : Result :=
  s.run (mainRailFail dt)

/-- MAIN_POR_RELEASE (R64): The main power-on reset releases 2.0 ms after all main rails are good, and start-up begins
at T1. -/
def execMainPorRelease (straps : Nat) (bist : Option (Nat × Nat)) (dt : Nat) (s : State) : Result :=
  s.run (mainPorRelease straps bist dt)

/-- SYS_RST_N_RISE (R65): SYS_RST_N rises; if power-on has released, this is T1, the straps are sampled and start-up
begins. -/
def execSysRstNRise (straps : Nat) (bist : Option (Nat × Nat)) (dt : Nat) (s : State) : Result :=
  s.run (sysRstNRise straps bist dt)

/-- DEVICE_RESET (R72): SYS_RST_N is held low for at least 1 µs; the device resets the main partition except sticky
state and closes the open layer as interrupted. -/
def execDeviceReset (dt : Nat) (s : State) : Result :=
  s.run (deviceReset dt)

/-- TOP_RESET (R75): A write of KEY = 0x5A17 with DEV = 1 under a session starts a device reset. -/
def execTopReset (v : Nat) (bist : Option (Nat × Nat)) (dt : Nat) (s : State) : Result :=
  s.run (topReset v bist dt)

/-- PERST_N_RISE (R66): PERST_N rises and PCI Express link training starts; configuration requests are answered within
100 ms. -/
def execPerstNRise (dt : Nat) (s : State) : Result :=
  s.run (perstNRise dt)

/-- HOST_INTERFACE_RESET (R401): PERST_N, a hot reset or a link down resets the PCI Express core, rings and session,
and the device retires outstanding descriptors. -/
def execHostInterfaceReset (why dt : Nat) (s : State) : Result :=
  s.run (hostInterfaceReset why dt)

/-- FUNCTION_LEVEL_RESET (R73): A PCI Express FLR resets rings, doorbells, MSI-X and the session, and retires
outstanding descriptors. -/
def execFunctionLevelReset (dt : Nat) (s : State) : Result :=
  s.run (functionLevelReset dt)

/-- D3HOT_TRANSITION (R364): A power-state change to D3hot leaves the device answering only configuration requests,
and the return to D0 acts as a host-interface reset. -/
def execD3hotTransition (cold : Bool) (dt : Nat) (s : State) : Result :=
  s.run (d3hotTransition cold dt)

end Sys2Proof.Machine
end

