-- ==== Sys2Proof/Machine/ExecSafety.lean ====
section
/-!
DEFINITION. The meanings of the commands of the safety partition (chapter 18).
-/
namespace Sys2Proof.Machine

/-- SAF_POWER_ON (R548): The safety partition leaves its power-on reset: SAFE_STATE is asserted with cause POR,
settings reset and a new BOOT_ID is drawn. -/
def execSafPowerOn (dt : Nat) (s : State) : Result :=
  s.run (safPowerOn dt)

/-- VDD_SAF_LOSS (R71): VDD_SAF is lost; the pull-downs hold beams off and SAFE_STATE asserted. -/
def execVddSafLoss (dt : Nat) (s : State) : Result :=
  s.run (vddSafLoss dt)

/-- HEARTBEAT (R553): A SAF_SPI HEARTBEAT restarts the heartbeat timer and returns status. -/
def execHeartbeat (req : List Byte) (dt : Nat) (s : State) : Result :=
  s.run (heartbeat req dt)

/-- SAF_READ (R553): A SAF_SPI READ returns 8 words of settings, in force or staged. -/
def execSafRead (req : List Byte) (dt : Nat) (s : State) : Result :=
  s.run (safRead req dt)

/-- SAF_WRITE (R553): A SAF_SPI WRITE writes words into the staged settings. -/
def execSafWrite (req : List Byte) (dt : Nat) (s : State) : Result :=
  s.run (safWrite req dt)

/-- CEIL_WRITE (R553): A SAF_SPI CEIL_WRITE writes 16 staged beam ceilings. -/
def execCeilWrite (req : List Byte) (dt : Nat) (s : State) : Result :=
  s.run (ceilWrite req dt)

/-- SAF_COMMIT (R558): A SAF_SPI COMMIT brings the staged image into force if SAFE_STATE is 1, the CRC matches and the
lock permits. -/
def execSafCommit (req : List Byte) (commEn : Bool) (dt : Nat) (s : State) : Result :=
  s.run (safCommit req commEn dt)

/-- RELEASE (R572): A SAF_SPI RELEASE clears SAFE_STATE when every latched cause has cleared. -/
def execRelease (req : List Byte) (dt : Nat) (s : State) : Result :=
  s.run (release req dt)

/-- TRIP (R553): A SAF_SPI TRIP asserts SAFE_STATE with cause TRIP. -/
def execTrip (req : List Byte) (dt : Nat) (s : State) : Result :=
  s.run (trip req dt)

/-- LOCK (R559): A SAF_SPI LOCK records the in-force image CRC in OTP and sets LOCKED. -/
def execLock (req : List Byte) (commEn : Bool) (dt : Nat) (s : State) : Result :=
  s.run (lock req commEn dt)

/-- KEY_SET (R559): A SAF_SPI KEY_SET writes the commissioning key once, with COMMISSION_EN high. -/
def execKeySet (req : List Byte) (commEn : Bool) (dt : Nat) (s : State) : Result :=
  s.run (keySet req commEn dt)

/-- SAF_HEARTBEAT_TIMEOUT (R556): HB_MS pass without an accepted request, and SAFE_STATE is asserted with cause HB. -/
def execSafHeartbeatTimeout (s : State) : Result :=
  s.run safHeartbeatTimeout

/-- SAF_LOCKOUT_END (R555): The 60 s SAF_SPI lockout ends. -/
def execSafLockoutEnd (s : State) : Result :=
  s.run safLockoutEnd

/-- INTERLOCK_FALL (R560): A filtered interlock input falls and SAFE_STATE is asserted with its cause. -/
def execInterlockFall (i dt : Nat) (s : State) : Result :=
  s.run (interlockFall i dt)

/-- INTERLOCK_OK (R560): An interlock input returns to OK after 10 ms of stable high. -/
def execInterlockOk (i dt : Nat) (s : State) : Result :=
  s.run (interlockOk i dt)

/-- ESTOP_DISCREPANCY (R561): ESTOP_A and ESTOP_B differ for longer than DISC_MS, and SAFE_STATE is asserted with
cause DISC. -/
def execEstopDiscrepancy (s : State) : Result :=
  s.run estopDiscrepancy

/-- SAF_CLOCK_FAULT (R549): The core clock is out of range or stopped for 10 µs, and SAFE_STATE is asserted with cause
CLOCK. -/
def execSafClockFault (bad : Bool) (dt : Nat) (s : State) : Result :=
  s.run (safClockFault bad dt)

/-- SAF_CRC_CHECK (R549): Every 100 ms the safety partition recomputes the image CRC in force and asserts SELF on a
difference. -/
def execSafCrcCheck (upset : Option (Nat × Nat)) (dt : Nat) (s : State) : Result :=
  s.run (safCrcCheck upset dt)

/-- BEN_READBACK_FAULT (R549): A BEAM_EN readback differs from the driven level for more than 100 ns, and SAFE_STATE
is asserted with cause SELF. -/
def execBenReadbackFault (t dt : Nat) (s : State) : Result :=
  s.run (benReadbackFault t dt)

/-- SAF_TEMP_RECORD (R565): The safety partition takes TMAX from a valid return-lane record and applies the soft and
hard limits. -/
def execSafTempRecord (t : Nat) (temps : List Int) (dt : Nat) (s : State) : Result :=
  s.run (safTempRecord t temps dt)

/-- SAF_STALE_TIMEOUT (R565): A firing tile delivers no valid record for 1 ms, and SAFE_STATE is asserted with cause
STALE. -/
def execSafStaleTimeout (t : Nat) (s : State) : Result :=
  s.run (safStaleTimeout t)

/-- STROBE_WATCHDOG (R567): STROBE stays high beyond CEIL, so the watchdog forces STROBE and BEAM_EN low with cause
WDOG. -/
def execStrobeWatchdog (s : State) : Result :=
  s.run strobeWatchdog

/-- SAF_FRAME_CHECK (R569): The safety partition checks a sent frame's stroke tick, ceilings and geofence once its
TAIL has passed. -/
def execSafFrameCheck (t : Nat) (idle test : Bool) (s : Nat) (codes : List (Nat × Nat × Nat)) (dt : Nat) (st : State) : Result :=
  st.run (safFrameCheck t idle test s codes dt)

/-- SAF_PLUG_CHANGE (R564): A filtered tile plug input changes, clearing MATCH, and a departure in Calibrate, Expose
or Hold asserts cause PLUG. -/
def execSafPlugChange (t : Nat) (present : Bool) (dt : Nat) (s : State) : Result :=
  s.run (safPlugChange t present dt)

/-- SAF_SPI_BAD_TRANSACTION (R550): A SAF_SPI transaction of the wrong length, with a bad CRC or with an unknown CMD
is discarded or answered with STATUS 0x01 or 0x05 and counted in SAF_SPI_STAT.CRC_ERR. -/
def execSafSpiBadTransaction (req : List Byte) (dt : Nat) (s : State) : Result :=
  s.run (safSpiBadTransaction req dt)

end Sys2Proof.Machine
end

