-- ==== Sys2Proof/Machine/ExecSheaf.lean ====
section
/-!
DEFINITION. The meanings of the commands of the Sheaf stream (chapter 03).
-/
namespace Sys2Proof.Machine

/-- LIB_VALIDATE_DONE (R108): The library check finishes and completes with OK, or with LIB_INVALID and event 0x310D.
-/
def execLibValidateDone (dt : Nat) (s : State) : Result :=
  s.run (libValidateDone dt)

/-- SEGMENT (R381): A layout descriptor delivers one Sheaf segment to the portion of its ring. -/
def execSegment (n : Nat) (words : List (BitVec 64)) (dt : Nat) (s : State) : Result :=
  s.run (segment n words dt)

/-- LAYER_BEGIN (R92): A LAYER_BEGIN record of a portion is parsed. -/
def execLayerBegin (n dt : Nat) (s : State) : Result :=
  s.run (layerBegin n dt)

/-- CLASS_TABLE (R93): A CLASS_TABLE record with the 16 class scales is parsed. -/
def execClassTable (n dt : Nat) (s : State) : Result :=
  s.run (classTable n dt)

/-- STRIPE_BEGIN (R94): A STRIPE_BEGIN record opening a stroke is parsed and its bounds are checked. -/
def execStripeBegin (n dt : Nat) (s : State) : Result :=
  s.run (stripeBegin n dt)

/-- LAYER_END (R97): A LAYER_END record is parsed and checked against the layer's tag and last stroke. -/
def execLayerEnd (n dt : Nat) (s : State) : Result :=
  s.run (layerEnd n dt)

/-- RECT (R98): A RECT geometry record is parsed into the active records of its block rows. -/
def execRect (n dt : Nat) (s : State) : Result :=
  s.run (rect n dt)

/-- TRAP (R99): A TRAP geometry record is parsed. -/
def execTrap (n dt : Nat) (s : State) : Result :=
  s.run (trap n dt)

/-- REF (R100): A REF record placing one cell instance is parsed, and its cell entry and header are read. -/
def execRef (n dt : Nat) (s : State) : Result :=
  s.run (ref_ n dt)

/-- AREF (R100): An AREF record placing an array of cell instances is parsed. -/
def execAref (n dt : Nat) (s : State) : Result :=
  s.run (aref n dt)

/-- RAW_BLOCK (R111): A RAW_BLOCK record carrying nominal dose directly is parsed. -/
def execRawBlock (n dt : Nat) (s : State) : Result :=
  s.run (rawBlock n dt)

/-- SHEAF_CHECK (R115): A CHECK record with a block's check word is parsed and classified against the expected row. -/
def execSheafCheck (n dt : Nat) (s : State) : Result :=
  s.run (sheafCheck n dt)

/-- FENCE (R117): A FENCE record marking a synchronisation point is parsed. -/
def execFence (n dt : Nat) (s : State) : Result :=
  s.run (fence n dt)

end Sys2Proof.Machine
end

