-- ==== Sys2Proof/Machine/ExecStage.lean ====
section
/-!
DEFINITION. The meanings of the commands of the stage port (chapters 05, 11).
-/
namespace Sys2Proof.Machine

/-- RETREAT_REQ_FALL (R356): RETREAT_REQ falls at the first tick edge with the stage at or before the re-entry point.
-/
def execRetreatReqFall (dt : Nat) (s : State) : Result :=
  s.run (retreatReqFall dt)

/-- STAGE_SAMPLE (R343): At each sample period the stage master samples its sources, forms a sample record and
broadcasts it on VL0. -/
def execStageSample (b0 b1 : Option Biss) (q0 q1 : Int) (s : State) : Result :=
  s.run fun d => ((stageSample b0 b1 q0 q1) d).kPump

/-- STAGE_SAMPLE_RECORD (R348): A stage sample record arriving over the fabric is accepted from STG_MASTER or
discarded as foreign. -/
def execStageSampleRecord (dt : Nat) (s : State) : Result :=
  s.run (stageSampleRecord dt)

/-- QUAD_INDEX (R342): A rising edge of a quadrature Z input latches the counter into STG_QIDX_q. -/
def execQuadIndex (q : Nat) (edges : Int) (dt : Nat) (s : State) : Result :=
  s.run (quadIndex q edges dt)

/-- HOLD_REQ_ASSERT (R357): A filtered assertion of HOLD_REQ registers hold cause 0x05. -/
def execHoldReqAssert (dt : Nat) (s : State) : Result :=
  s.run (holdReqAssert dt)

/-- HOLD_REQ_DEASSERT (R357): A filtered deassertion of HOLD_REQ clears cause 0x05 at the next edge. -/
def execHoldReqDeassert (dt : Nat) (s : State) : Result :=
  s.run (holdReqDeassert dt)

/-- LAYER_SYNC (R358): A rising edge of LAYER_SYNC is accepted after a layer close, or ignored. -/
def execLayerSync (dt : Nat) (s : State) : Result :=
  s.run (layerSync dt)

/-- QUAD_COUNT_ERROR (R342): A and B of a quadrature axis change within one filter interval, so every later sample of
that axis is invalid until host software rewrites STG_QUAD_CFG. -/
def execQuadCountError (q dt : Nat) (s : State) : Result :=
  s.run (quadCountError q dt)

end Sys2Proof.Machine
end

