-- ==== Sys2Proof/Machine/ExecThresher.lean ====
section
/-!
DEFINITION. The meanings of the commands of the Threshers (chapter 04).
-/
namespace Sys2Proof.Machine

/-- BLOCK_ROW_BEGIN (R144): A Thresher begins expanding a block row as soon as its 64 slots are free and it is
otherwise idle. -/
def execBlockRowBegin (t dt : Nat) (s : State) : Result :=
  s.run (blockRowBegin t dt)

/-- BLOCK_EXPANDED (R150): The last line of a block has been written, and the block goes to CHECKING or STRIKABLE. -/
def execBlockExpanded (t : Nat) (glitch : List (Nat × Nat × Nat)) (poison : Bool) (dt : Nat) (s : State) : Result :=
  s.run (blockExpanded t glitch poison dt)

/-- REBUILD_START (R156): A queued rebuild is taken by the first available Thresher in the order spare, partner, own.
-/
def execRebuildStart (t dt : Nat) (s : State) : Result :=
  s.run (rebuildStart t dt)

/-- REBUILD_COMPLETE (R151): A rebuild finishes and the block becomes STRIKABLE, FAULTED or stays REEXPANDING. -/
def execRebuildComplete (t : Nat) (glitch : List (Nat × Nat × Nat)) (poison : Bool) (again : List (Nat × Nat × List (BitVec 64))) (dt : Nat) (s : State) : Result :=
  s.run (rebuildComplete t glitch poison again dt)

/-- THRESHER_DISABLE (R159): A write of THR_n_CTL.EN = 0 hands band n to the spare, or is ignored if that would leave
a band without a Thresher. -/
def execThresherDisable (n dt : Nat) (s : State) : Result :=
  s.run (thresherDisable n dt)

/-- THRESHER_ENABLE (R159): A write of THR_n_CTL.EN = 1 returns the band from the next block row that the spare has
not begun. -/
def execThresherEnable (n dt : Nat) (s : State) : Result :=
  s.run (thresherEnable n dt)

/-- THRESHER_REINSTATE (R161): A write of REINSTATE returns a retired Thresher to service. -/
def execThresherReinstate (n dt : Nat) (s : State) : Result :=
  s.run (thresherReinstate n dt)

end Sys2Proof.Machine
end

