-- ==== Sys2Proof/Machine/ExecTick.lean ====
section
/-!
DEFINITION. The meanings of the commands of ticks (chapters 01, 05, 11).
-/
namespace Sys2Proof.Machine

/-- TICK_EDGE (R39): A tick edge falls: shadowed parameters hand over, the device decides whether the tick strikes,
and the strike takes place. -/
def execTickEdge (ups : List Upset) (s : State) : Result :=
  s.run (tickEdge ups)

/-- COMMIT_POINT (R352): 1,024 ns before the predicted strike instant, that instant is committed and the predicted
period is tested. -/
def execCommitPoint (dt : Nat) (s : State) : Result :=
  s.run (commitPoint dt)

/-- STALL_TIMEOUT (R37): No strike instant is committed by t_prev + 1 ms, so the device places an idle edge there and
holds with cause 0x04. -/
def execStallTimeout (s : State) : Result :=
  s.run stallTimeout

/-- SEAL_WINDOW_OPEN (R40): The seal window of the next edge opens, fixing the delays that are then sent in the DLY
blocks. -/
def execSealWindowOpen (s : State) : Result :=
  s.run sealWindowOpen

/-- ARM (R184): The approaching stage reaches the arming line, so every unstruck entry is marked stale and replayed
with present-velocity strike times. -/
def execArm (dt : Nat) (s : State) : Result :=
  s.run (arm dt)

/-- STRIKE_OK_RISE (R355): Every hold cause has cleared or been released, so STRIKE_OK is driven high. -/
def execStrikeOkRise (dt : Nat) (s : State) : Result :=
  s.run (strikeOkRise dt)

end Sys2Proof.Machine
end

