-- ==== Sys2Proof/Machine/ExecTiller.lean ====
section
/-!
DEFINITION. The meanings of the commands of the Tillers (chapters 05, 06).
-/
namespace Sys2Proof.Machine

/-- TILLER_ENTRY_COMPUTE (R173): A Tiller computes the next width-code queue entry of its column through the
five-stage dose chain. -/
def execTillerEntryCompute (c : Nat) (clsBad ceilBad : Option Nat) (dt : Nat) (s : State) : Result :=
  s.run (tillerEntryCompute c clsBad ceilBad dt)

/-- CORRECTION_REPLAY (R179): A stale entry is recomputed from the same nominal dose under current corrections, and
its stale flag is cleared. -/
def execCorrectionReplay (c : Nat) (clsBad ceilBad : Option Nat) (dt : Nat) (s : State) : Result :=
  s.run (correctionReplay c clsBad ceilBad dt)

/-- COLUMN_DISABLE (R190): A write of TIL_n_CTL.EN = 0 disables the column at the next edge, squashes its entries and
re-shares its lines. -/
def execColumnDisable (n dt : Nat) (s : State) : Result :=
  s.run (columnDisable n dt)

/-- COLUMN_ENABLE (R208): A write of TIL_n_CTL.EN = 1 enables the column at the next edge and replays the tile's other
entries. -/
def execColumnEnable (n dt : Nat) (s : State) : Result :=
  s.run (columnEnable n dt)

/-- SHADOW_WRITE (R221): A host write to TIL_n_DELAY, TIL_n_SHARE or TIL_n_RAMP goes to its shadow, to hand over at a tick
edge.
-/
def execShadowWrite (n which v dt : Nat) (s : State) : Result :=
  s.run (shadowWrite n which v dt)

/-- SHARE_CONFIG_APPLY (R206): Once no line still uses the previous configuration, a new share configuration takes
effect at an edge and the affected entries are replayed. -/
def execShareConfigApply (t dt : Nat) (s : State) : Result :=
  s.run (shareConfigApply t dt)

/-- HEALTH_COMMIT (R207): A write of TIL_HEALTH_CTL with COMMIT = 1 commits a health-map bank, or is ignored while
PENDING is not 0. -/
def execHealthCommit (bank dt : Nat) (s : State) : Result :=
  s.run (healthCommit bank dt)

/-- TEMP_LATCH (R212): At each tick index that is a multiple of 256, tile temperature and rail voltage are latched
from the latest valid report. -/
def execTempLatch (dt : Nat) (s : State) : Result :=
  s.run (tempLatch dt)

/-- RAMP_COMPLETE (R214): All eight columns have computed entries beyond Q_r + N, so the incoming bank comes into
force. -/
def execRampComplete (t dt : Nat) (s : State) : Result :=
  s.run (rampComplete t dt)

end Sys2Proof.Machine
end

