-- ==== Sys2Proof/Machine/ExecTime.lean ====
section
/-!
DEFINITION. The meanings of the commands of time and Ethernet (chapter 17).
-/
namespace Sys2Proof.Machine

/-- TIME_MESSAGE (R530): A time message from the ROOT updates the servo offset and rate, and may step time or change
lock. -/
def execTimeMessage (dt : Nat) (s : State) : Result :=
  s.run (timeMessage dt)

/-- TIME_MESSAGE_SEND (R528): The ROOT broadcasts a time message every 2^SYNC_LOG2 µs. -/
def execTimeMessageSend (s : State) : Result :=
  s.run timeMessageSend

/-- SERVO_INTERVAL_EXPIRY (R530): An interval passes without a further time message, so RATE becomes freq and lock is
lost after 16 such intervals. -/
def execServoIntervalExpiry (s : State) : Result :=
  s.run servoIntervalExpiry

/-- TIME_STEP_ARM (R527): A write of TIME_STEP_HI arms a step of device time for the next tick edge. -/
def execTimeStepArm (v dt : Nat) (s : State) : Result :=
  s.run (timeStepArm v dt)

/-- TIME_RATE_WRITE (R526): A write of TIME_RATE on a time reference sets the rate adjustment and ends holdover. -/
def execTimeRateWrite (v dt : Nat) (s : State) : Result :=
  s.run (timeRateWrite v dt)

/-- TIME_SLEW_WRITE (R526): A write of TIME_SLEW adds to the remaining slew and ends holdover. -/
def execTimeSlewWrite (v dt : Nat) (s : State) : Result :=
  s.run (timeSlewWrite v dt)

/-- HOLDOVER_ENTER (R539): A write of TIME_CTL.HOLDOVER puts the time reference in holdover. -/
def execHoldoverEnter (v dt : Nat) (s : State) : Result :=
  s.run (holdoverEnter v dt)

/-- HOLDOVER_TIMEOUT (R539): No rate or slew write occurs within GM_TMO, and the reference enters holdover. -/
def execHoldoverTimeout (s : State) : Result :=
  s.run holdoverTimeout

/-- ETH_TX_GO (R535): A write of GO to TIME_TXD_s_CTL sends a slot's frame now, or queues it for its launch time. -/
def execEthTxGo (s v dt : Nat) (st : State) : Result :=
  st.run (ethTxGo s v dt)

/-- ETH_LAUNCH (R535): A slot's launch time arrives and its frame is sent with one-step insertion and timestamping as
set. -/
def execEthLaunch (s : Nat) (st : State) : Result :=
  st.run (ethLaunch s)

/-- TXQ_POP (R536): A read of TIME_TXQ_HDR pops the head transmit timestamp entry. -/
def execTxqPop (dt : Nat) (s : State) : Result :=
  s.run (txqPop dt)

/-- PTP_FRAME_RECEIVE (R537): A received PTP frame is timestamped and placed in the lowest free receive slot. -/
def execPtpFrameReceive (b : List Byte) (dt : Nat) (s : State) : Result :=
  s.run (ptpFrameReceive b dt)

/-- RX_SLOT_FREE (R537): A write of 1 to TIME_RXD_r_STAT.VALID frees the receive slot. -/
def execRxSlotFree (r dt : Nat) (s : State) : Result :=
  s.run (rxSlotFree r dt)

/-- SLEW_COMPLETE (R526): The remaining slew of a time reference reaches 0, so the ±100 ppm term leaves RATE and
TIME_STAT.SLEWING clears. -/
def execSlewComplete (s : State) : Result :=
  s.run slewComplete

end Sys2Proof.Machine
end

