-- ==== Sys2Proof/Machine/Dispatch.lean ====
section
/-!
DEFINITION. The meaning of every command.
-/
namespace Sys2Proof.Machine

def exec (i : Instr) (s : State) : Host.Outcome State Fault Refusal :=
  match i with
  | .tickEdge ups => Sys2Proof.Machine.execTickEdge ups s
  | .commitPoint dt => Sys2Proof.Machine.execCommitPoint dt s
  | .stallTimeout => Sys2Proof.Machine.execStallTimeout s
  | .sealWindowOpen => Sys2Proof.Machine.execSealWindowOpen s
  | .strikeCriticalWindowEnd => Sys2Proof.Machine.execStrikeCriticalWindowEnd s
  | .mainRailFail dt => Sys2Proof.Machine.execMainRailFail dt s
  | .mainPorRelease straps bist dt => Sys2Proof.Machine.execMainPorRelease straps bist dt s
  | .sysRstNRise straps bist dt => Sys2Proof.Machine.execSysRstNRise straps bist dt s
  | .deviceReset dt => Sys2Proof.Machine.execDeviceReset dt s
  | .topReset v bist dt => Sys2Proof.Machine.execTopReset v bist dt s
  | .perstNRise dt => Sys2Proof.Machine.execPerstNRise dt s
  | .hostInterfaceReset why dt => Sys2Proof.Machine.execHostInterfaceReset why dt s
  | .functionLevelReset dt => Sys2Proof.Machine.execFunctionLevelReset dt s
  | .busMasterEnable on msixEn msixMask dt => Sys2Proof.Machine.execBusMasterEnable on msixEn msixMask dt s
  | .safPowerOn dt => Sys2Proof.Machine.execSafPowerOn dt s
  | .vddSafLoss dt => Sys2Proof.Machine.execVddSafLoss dt s
  | .metPowerOn nv rom otp dt => Sys2Proof.Machine.execMetPowerOn nv rom otp dt s
  | .vddMetLoss dt => Sys2Proof.Machine.execVddMetLoss dt s
  | .sessionOpen dt => Sys2Proof.Machine.execSessionOpen dt s
  | .sessionAuth dt => Sys2Proof.Machine.execSessionAuth dt s
  | .sessionClose dt => Sys2Proof.Machine.execSessionClose dt s
  | .sessionKeepalive dt => Sys2Proof.Machine.execSessionKeepalive dt s
  | .nop dt => Sys2Proof.Machine.execNop dt s
  | .modeSet dt => Sys2Proof.Machine.execModeSet dt s
  | .resume dt => Sys2Proof.Machine.execResume dt s
  | .libValidate dt => Sys2Proof.Machine.execLibValidate dt s
  | .libValidateDone dt => Sys2Proof.Machine.execLibValidateDone dt s
  | .calRun dt => Sys2Proof.Machine.execCalRun dt s
  | .selfTest dt => Sys2Proof.Machine.execSelfTest dt s
  | .segment n words dt => Sys2Proof.Machine.execSegment n words dt s
  | .segmentComplete n dt => Sys2Proof.Machine.execSegmentComplete n dt s
  | .channelStart dt => Sys2Proof.Machine.execChannelStart dt s
  | .metBuildBegin dt => Sys2Proof.Machine.execMetBuildBegin dt s
  | .metBuildEnd dt => Sys2Proof.Machine.execMetBuildEnd dt s
  | .metExport dt => Sys2Proof.Machine.execMetExport dt s
  | .sessionTimeout => Sys2Proof.Machine.execSessionTimeout s
  | .challengeExpiry => Sys2Proof.Machine.execChallengeExpiry s
  | .sessionLockoutEnd => Sys2Proof.Machine.execSessionLockoutEnd s
  | .relayTimeout => Sys2Proof.Machine.execRelayTimeout s
  | .doorbell o len v dt => Sys2Proof.Machine.execDoorbell o len v dt s
  | .descriptorFetch n bytes dt => Sys2Proof.Machine.execDescriptorFetch n bytes dt s
  | .ringEnable n v dt => Sys2Proof.Machine.execRingEnable n v dt s
  | .ringDisable n v dt => Sys2Proof.Machine.execRingDisable n v dt s
  | .fetchErrClear n dt => Sys2Proof.Machine.execFetchErrClear n dt s
  | .irqDelayExpiry n => Sys2Proof.Machine.execIrqDelayExpiry n s
  | .telemetryPeriod => Sys2Proof.Machine.execTelemetryPeriod s
  | .layerCompletion dt => Sys2Proof.Machine.execLayerCompletion dt s
  | .metRecordExport dt => Sys2Proof.Machine.execMetRecordExport dt s
  | .layerBegin n dt => Sys2Proof.Machine.execLayerBegin n dt s
  | .classTable n dt => Sys2Proof.Machine.execClassTable n dt s
  | .stripeBegin n dt => Sys2Proof.Machine.execStripeBegin n dt s
  | .layerEnd n dt => Sys2Proof.Machine.execLayerEnd n dt s
  | .rect n dt => Sys2Proof.Machine.execRect n dt s
  | .trap n dt => Sys2Proof.Machine.execTrap n dt s
  | .ref_ n dt => Sys2Proof.Machine.execRef n dt s
  | .aref n dt => Sys2Proof.Machine.execAref n dt s
  | .rawBlock n dt => Sys2Proof.Machine.execRawBlock n dt s
  | .sheafCheck n dt => Sys2Proof.Machine.execSheafCheck n dt s
  | .fence n dt => Sys2Proof.Machine.execFence n dt s
  | .layerAccept dt => Sys2Proof.Machine.execLayerAccept dt s
  | .strokeAccept dt => Sys2Proof.Machine.execStrokeAccept dt s
  | .fenceReached n id dt => Sys2Proof.Machine.execFenceReached n id dt s
  | .blockRowBegin t dt => Sys2Proof.Machine.execBlockRowBegin t dt s
  | .blockExpanded t glitch poison dt => Sys2Proof.Machine.execBlockExpanded t glitch poison dt s
  | .rebuildStart t dt => Sys2Proof.Machine.execRebuildStart t dt s
  | .rebuildComplete t glitch poison again dt => Sys2Proof.Machine.execRebuildComplete t glitch poison again dt s
  | .thresherDisable n dt => Sys2Proof.Machine.execThresherDisable n dt s
  | .thresherEnable n dt => Sys2Proof.Machine.execThresherEnable n dt s
  | .thresherReinstate n dt => Sys2Proof.Machine.execThresherReinstate n dt s
  | .tillerEntryCompute c clsBad ceilBad dt => Sys2Proof.Machine.execTillerEntryCompute c clsBad ceilBad dt s
  | .correctionReplay c clsBad ceilBad dt => Sys2Proof.Machine.execCorrectionReplay c clsBad ceilBad dt s
  | .columnDisable n dt => Sys2Proof.Machine.execColumnDisable n dt s
  | .columnEnable n dt => Sys2Proof.Machine.execColumnEnable n dt s
  | .shadowWrite n which v dt => Sys2Proof.Machine.execShadowWrite n which v dt s
  | .shareConfigApply t dt => Sys2Proof.Machine.execShareConfigApply t dt s
  | .healthCommit bank dt => Sys2Proof.Machine.execHealthCommit bank dt s
  | .tempLatch dt => Sys2Proof.Machine.execTempLatch dt s
  | .rampComplete t dt => Sys2Proof.Machine.execRampComplete t dt s
  | .arm dt => Sys2Proof.Machine.execArm dt s
  | .retreatReqFall dt => Sys2Proof.Machine.execRetreatReqFall dt s
  | .strikeOkRise dt => Sys2Proof.Machine.execStrikeOkRise dt s
  | .layerClose dt => Sys2Proof.Machine.execLayerClose dt s
  | .ageSweepVisit dt => Sys2Proof.Machine.execAgeSweepVisit dt s
  | .assimilation dt => Sys2Proof.Machine.execAssimilation dt s
  | .seamMessage dt => Sys2Proof.Machine.execSeamMessage dt s
  | .seamMessageDeadline east dt => Sys2Proof.Machine.execSeamMessageDeadline east dt s
  | .heatParamApply dt => Sys2Proof.Machine.execHeatParamApply dt s
  | .ftabCommit bank dt => Sys2Proof.Machine.execFtabCommit bank dt s
  | .frameStart port vc dt => Sys2Proof.Machine.execFrameStart port vc dt s
  | .frameEnd port vc dt => Sys2Proof.Machine.execFrameEnd port vc dt s
  | .lineStart port vc dt => Sys2Proof.Machine.execLineStart port vc dt s
  | .lineEnd port vc dt => Sys2Proof.Machine.execLineEnd port vc dt s
  | .csiLongPacket port p dt => Sys2Proof.Machine.execCsiLongPacket port p dt s
  | .mapComplete c dt => Sys2Proof.Machine.execMapComplete c dt s
  | .pqPush c v dt => Sys2Proof.Machine.execPqPush c v dt s
  | .paramStaging c dt => Sys2Proof.Machine.execParamStaging c dt s
  | .cameraTimeout c => Sys2Proof.Machine.execCameraTimeout c s
  | .cameraDisable c dt => Sys2Proof.Machine.execCameraDisable c dt s
  | .cameraEnable c dt => Sys2Proof.Machine.execCameraEnable c dt s
  | .cameraPlug port dt => Sys2Proof.Machine.execCameraPlug port dt s
  | .cameraUnplug port dt => Sys2Proof.Machine.execCameraUnplug port dt s
  | .strikeRecord t bs poison dt => Sys2Proof.Machine.execStrikeRecord t bs poison dt s
  | .statusRecord t bs dt => Sys2Proof.Machine.execStatusRecord t bs dt s
  | .linkRecord t bs dt => Sys2Proof.Machine.execLinkRecord t bs dt s
  | .eyeRecord t bs dt => Sys2Proof.Machine.execEyeRecord t bs dt s
  | .ackExpectTimeout t => Sys2Proof.Machine.execAckExpectTimeout t s
  | .ackLateTimeout t => Sys2Proof.Machine.execAckLateTimeout t s
  | .tilePlug t dt => Sys2Proof.Machine.execTilePlug t dt s
  | .tileUnplug t dt => Sys2Proof.Machine.execTileUnplug t dt s
  | .tileBringup t dt => Sys2Proof.Machine.execTileBringup t dt s
  | .bringupStepTimeout t copy => Sys2Proof.Machine.execBringupStepTimeout t copy s
  | .factoryCalCopyDone t img dt => Sys2Proof.Machine.execFactoryCalCopyDone t img dt s
  | .retrain t dt => Sys2Proof.Machine.execRetrain t dt s
  | .reident t dt => Sys2Proof.Machine.execReident t dt s
  | .tileEyeScanStart t lane dwell dt => Sys2Proof.Machine.execTileEyeScanStart t lane dwell dt s
  | .tileEyeScanTimeout t => Sys2Proof.Machine.execTileEyeScanTimeout t s
  | .returnLaneScanDone t margins dt => Sys2Proof.Machine.execReturnLaneScanDone t margins dt s
  | .tileLinkFault t codeErrs gone dt => Sys2Proof.Machine.execTileLinkFault t codeErrs gone dt s
  | .calRunStart dt => Sys2Proof.Machine.execCalRunStart dt s
  | .calibrationStrike => Sys2Proof.Machine.execCalibrationStrike s
  | .calRunEnd dt => Sys2Proof.Machine.execCalRunEnd dt s
  | .calBankIntoForce dt => Sys2Proof.Machine.execCalBankIntoForce dt s
  | .stageSample b0 b1 q0 q1 => Sys2Proof.Machine.execStageSample b0 b1 q0 q1 s
  | .stageSampleRecord dt => Sys2Proof.Machine.execStageSampleRecord dt s
  | .quadIndex q edges dt => Sys2Proof.Machine.execQuadIndex q edges dt s
  | .holdReqAssert dt => Sys2Proof.Machine.execHoldReqAssert dt s
  | .holdReqDeassert dt => Sys2Proof.Machine.execHoldReqDeassert dt s
  | .layerSync dt => Sys2Proof.Machine.execLayerSync dt s
  | .end_ c word dt => Sys2Proof.Machine.execEnd c word dt s
  | .move c word data dt => Sys2Proof.Machine.execMove c word data dt s
  | .fill c word dt => Sys2Proof.Machine.execFill c word dt s
  | .check c word data dt => Sys2Proof.Machine.execCheck c word data dt s
  | .loop c word dt => Sys2Proof.Machine.execLoop c word dt s
  | .wait c word dt => Sys2Proof.Machine.execWait c word dt s
  | .waitSatisfied c dt => Sys2Proof.Machine.execWaitSatisfied c dt s
  | .waitTimeout c => Sys2Proof.Machine.execWaitTimeout c s
  | .signal c word dt => Sys2Proof.Machine.execSignal c word dt s
  | .link c word dt => Sys2Proof.Machine.execLink c word dt s
  | .channelDoorbell o len dt => Sys2Proof.Machine.execChannelDoorbell o len dt s
  | .cpeBusError kind addr mask parts dt => Sys2Proof.Machine.execCpeBusError kind addr mask parts dt s
  | .restart c dt => Sys2Proof.Machine.execRestart c dt s
  | .abort c dt => Sys2Proof.Machine.execAbort c dt s
  | .hbmRequest qs dt => Sys2Proof.Machine.execHbmRequest qs dt s
  | .hbmAgePromotion a r => Sys2Proof.Machine.execHbmAgePromotion a r s
  | .arbWithdraw a r dt => Sys2Proof.Machine.execArbWithdraw a r dt s
  | .arbCutoff a r dt => Sys2Proof.Machine.execArbCutoff a r dt s
  | .arbCommit dt => Sys2Proof.Machine.execArbCommit dt s
  | .hbmOrderWrite v dt => Sys2Proof.Machine.execHbmOrderWrite v dt s
  | .hbmRemapDone dt => Sys2Proof.Machine.execHbmRemapDone dt s
  | .hbmRefreshDue p dt => Sys2Proof.Machine.execHbmRefreshDue p dt s
  | .hbmTempCrossing above temp dt => Sys2Proof.Machine.execHbmTempCrossing above temp dt s
  | .scrubRead => Sys2Proof.Machine.execScrubRead s
  | .kryPortEnable p dt => Sys2Proof.Machine.execKryPortEnable p dt s
  | .kryPortDisable p v dt => Sys2Proof.Machine.execKryPortDisable p v dt s
  | .kryBringupStepTimeout p => Sys2Proof.Machine.execKryBringupStepTimeout p s
  | .train p w mine dt => Sys2Proof.Machine.execTrain p w mine dt s
  | .hello p w dt => Sys2Proof.Machine.execHello p w dt s
  | .enum p w dt => Sys2Proof.Machine.execEnum p w dt s
  | .idle p w dt => Sys2Proof.Machine.execIdle p w dt s
  | .dly p w turn dt => Sys2Proof.Machine.execDly p w turn dt s
  | .dlyPeriod dt => Sys2Proof.Machine.execDlyPeriod dt s
  | .fastRetrain p reason dt => Sys2Proof.Machine.execFastRetrain p reason dt s
  | .kryIdleTimeout p => Sys2Proof.Machine.execKryIdleTimeout p s
  | .kryRetrain p v dt => Sys2Proof.Machine.execKryRetrain p v dt s
  | .kryAckTimeout p => Sys2Proof.Machine.execKryAckTimeout p s
  | .rootEnumStart dt => Sys2Proof.Machine.execRootEnumStart dt s
  | .kryConfirm v dt => Sys2Proof.Machine.execKryConfirm v dt s
  | .kryReenum v dt => Sys2Proof.Machine.execKryReenum v dt s
  | .kryRouteCommit dt => Sys2Proof.Machine.execKryRouteCommit dt s
  | .kryEyeScanStart p v dt => Sys2Proof.Machine.execKryEyeScanStart p v dt s
  | .kryEyeScanDone p margins dt => Sys2Proof.Machine.execKryEyeScanDone p margins dt s
  | .mapReport dt => Sys2Proof.Machine.execMapReport dt s
  | .relayCmd dt => Sys2Proof.Machine.execRelayCmd dt s
  | .relayCpl dt => Sys2Proof.Machine.execRelayCpl dt s
  | .relayedEvent dt => Sys2Proof.Machine.execRelayedEvent dt s
  | .relayedTelemetry dt => Sys2Proof.Machine.execRelayedTelemetry dt s
  | .timeMessage dt => Sys2Proof.Machine.execTimeMessage dt s
  | .timeMessageSend => Sys2Proof.Machine.execTimeMessageSend s
  | .servoIntervalExpiry => Sys2Proof.Machine.execServoIntervalExpiry s
  | .timeStepArm v dt => Sys2Proof.Machine.execTimeStepArm v dt s
  | .timeRateWrite v dt => Sys2Proof.Machine.execTimeRateWrite v dt s
  | .timeSlewWrite v dt => Sys2Proof.Machine.execTimeSlewWrite v dt s
  | .holdoverEnter v dt => Sys2Proof.Machine.execHoldoverEnter v dt s
  | .holdoverTimeout => Sys2Proof.Machine.execHoldoverTimeout s
  | .ethTxGo x v dt => Sys2Proof.Machine.execEthTxGo x v dt s
  | .ethLaunch x => Sys2Proof.Machine.execEthLaunch x s
  | .txqPop dt => Sys2Proof.Machine.execTxqPop dt s
  | .ptpFrameReceive b dt => Sys2Proof.Machine.execPtpFrameReceive b dt s
  | .rxSlotFree r dt => Sys2Proof.Machine.execRxSlotFree r dt s
  | .heartbeat req dt => Sys2Proof.Machine.execHeartbeat req dt s
  | .safRead req dt => Sys2Proof.Machine.execSafRead req dt s
  | .safWrite req dt => Sys2Proof.Machine.execSafWrite req dt s
  | .ceilWrite req dt => Sys2Proof.Machine.execCeilWrite req dt s
  | .safCommit req commEn dt => Sys2Proof.Machine.execSafCommit req commEn dt s
  | .release req dt => Sys2Proof.Machine.execRelease req dt s
  | .trip req dt => Sys2Proof.Machine.execTrip req dt s
  | .lock req commEn dt => Sys2Proof.Machine.execLock req commEn dt s
  | .keySet req commEn dt => Sys2Proof.Machine.execKeySet req commEn dt s
  | .safHeartbeatTimeout => Sys2Proof.Machine.execSafHeartbeatTimeout s
  | .safLockoutEnd => Sys2Proof.Machine.execSafLockoutEnd s
  | .interlockFall j dt => Sys2Proof.Machine.execInterlockFall j dt s
  | .interlockOk j dt => Sys2Proof.Machine.execInterlockOk j dt s
  | .estopDiscrepancy => Sys2Proof.Machine.execEstopDiscrepancy s
  | .safClockFault bad dt => Sys2Proof.Machine.execSafClockFault bad dt s
  | .safCrcCheck upset dt => Sys2Proof.Machine.execSafCrcCheck upset dt s
  | .benReadbackFault t dt => Sys2Proof.Machine.execBenReadbackFault t dt s
  | .safTempRecord t temps dt => Sys2Proof.Machine.execSafTempRecord t temps dt s
  | .safStaleTimeout t => Sys2Proof.Machine.execSafStaleTimeout t s
  | .strobeWatchdog => Sys2Proof.Machine.execStrobeWatchdog s
  | .safFrameCheck t idle test x codes dt => Sys2Proof.Machine.execSafFrameCheck t idle test x codes dt s
  | .safPlugChange t present dt => Sys2Proof.Machine.execSafPlugChange t present dt s
  | .metSealChange isOpen dt => Sys2Proof.Machine.execMetSealChange isOpen dt s
  | .metServicePoll ready img dt => Sys2Proof.Machine.execMetServicePoll ready img dt s
  | .metDisplayUpdate ack dt => Sys2Proof.Machine.execMetDisplayUpdate ack dt s
  | .metXtalStop dt => Sys2Proof.Machine.execMetXtalStop dt s
  | .metXtalRestored dt => Sys2Proof.Machine.execMetXtalRestored dt s
  | .metNvRetry works dt => Sys2Proof.Machine.execMetNvRetry works dt s
  | .keyPress k dt => Sys2Proof.Machine.execKeyPress k dt s
  | .keyRelease k dt => Sys2Proof.Machine.execKeyRelease k dt s
  | .gleanEnable v dt => Sys2Proof.Machine.execGleanEnable v dt s
  | .gleanDisable v dt => Sys2Proof.Machine.execGleanDisable v dt s
  | .gleanPeriodicSample => Sys2Proof.Machine.execGleanPeriodicSample s
  | .pmcSnap v dt => Sys2Proof.Machine.execPmcSnap v dt s
  | .pmcClear v dt => Sys2Proof.Machine.execPmcClear v dt s
  | .latchingRead a len dt => Sys2Proof.Machine.execLatchingRead a len dt s
  | .clearOnRead a len dt => Sys2Proof.Machine.execClearOnRead a len dt s
  | .ldgLayerRead k dt => Sys2Proof.Machine.execLdgLayerRead k dt s
  | .registerWrite a len v dt => Sys2Proof.Machine.execRegisterWrite a len v dt s
  | .quadCountError q dt => Sys2Proof.Machine.execQuadCountError q dt s
  | .safSpiBadTransaction req dt => Sys2Proof.Machine.execSafSpiBadTransaction req dt s
  | .frameForward p flits dt => Sys2Proof.Machine.execFrameForward p flits dt s
  | .returnLaneWordLock t dt => Sys2Proof.Machine.execReturnLaneWordLock t dt s
  | .idHeaderRead t hdr dt => Sys2Proof.Machine.execIdHeaderRead t hdr dt s
  | .slewComplete => Sys2Proof.Machine.execSlewComplete s
  | .d3hotTransition cold dt => Sys2Proof.Machine.execD3hotTransition cold dt s

end Sys2Proof.Machine
end

