-- ==== Sys2Proof/Safety.lean ====
section
/-!
DEFINITION. What claims are stated in terms of: completion, the parts of the device that a command may change, the
canonical forms, and the safety partition's coherence.
-/
namespace Sys2Proof

open Sys2Proof.Machine

/-- A command completes: its meaning answers a next state, of which `P` holds. -/
def Completes (i : Instr) (s : State) (P : State → Prop) : Prop := ∃ t, exec i s = .next t ∧ P t

/-- An event is logged on the way from one device to another, and nothing logged before it is lost. -/
def Logged (a b : Dev) (code : Nat) (det : List Byte) : Prop :=
  ∃ pre post st, b.log = pre ++ ⟨code, padTo 12 det, st⟩ :: post ∧ a.log <:+ post

/-- The completion of descriptor x is written on the way from device a to device b, with a stamp, a status and a detail:
the next entry of ring 1, or, for a command that came by relay, a frame to its origin. -/
def Answers (a b : Dev) (st : Stamp) (x : Desc) (status : Nat) (det : List Byte) : Prop :=
  let k := a.rd (Reg.RING_n_PROD 1)
  let n := a.ringSize 1
  match x.origin with
  | none =>
    Out.entry 1 k (a.rd64 (Reg.RING_n_BASE_LO 1) (Reg.RING_n_BASE_HI 1) + 64 * (k % n))
      (cplEntry st 0 status x.ring (x.count % 65536) a.id x.tag x.op det (phaseOf k n)) ∈ b.host.waitOut ++ b.outs
  | some (dev, num) => ∃ f ∈ b.kq, a.kry.nextKey ≤ f.key ∧
      f.frame = { vl := 2, plen := 4, dst := dev, src := a.id, ptype := 0x21, arg := num,
                  payload := cplEntry st 0 status x.ring (x.count % 65536) a.id x.tag x.op det 0 }

/-- A trigger waits for a tick edge. -/
def Wants (b : Dev) (w : Want) : Prop := ∃ late, (⟨w, late⟩ : Trig) ∈ b.top.trigs

/-- Portion n may parse, and its next record has this TYPE and these words (R84 to R87). -/
def NextRecord (d : Dev) (n typ i : Nat) (g : Segment) (r : List (BitVec 64)) : Prop :=
  n < 8 ∧ d.up = true ∧ d.expoOrHold = true ∧ (d.portion n).stopped = false ∧
    (d.portion n).segs.findIdx? (fun s => !s.squashed && decide (s.pos < s.words.length)) = some i ∧ (d.portion n).segs[i]? = some g ∧
    wf (rw (g.words.drop g.pos) 0) 7 0 = typ ∧ recLen (g.words.drop g.pos) = some r.length ∧
    wf (rw (g.words.drop g.pos) 0) 23 8 = r.length ∧ (g.words.drop g.pos).take r.length = r

/-- Portion n's parser moves past the record. -/
def Parses (b : Dev) (n i : Nat) (g : Segment) (r : List (BitVec 64)) : Prop :=
  ∃ x, (b.portion n).segs[i]? = some x ∧ x.pos = g.pos + r.length ∧ x.begun = true

/-- The device as a record of segment i of portion n is parsed: the segment has begun. -/
def Machine.Dev.begun (d : Dev) (n i : Nat) : Dev := d.updPortion n fun p => { p with segs := upd p.segs i fun g => { g with begun := true } }

/-- A geometry record with this start line finds its place: the order of R90, the checks of R115 and the limit of R110. -/
def GeoFits (d : Dev) (n : Nat) (st : Stripe) (start last : Int) : Prop :=
  let p := d.portion n
  (∀ l, p.lastStart = some l → l ≤ start) ∧
    (stripeWinnow st.hdr = true → (p.expRow : Int) ≤ start / 64 ∧ (start / 64 = p.expRow → p.gotBand = []) ∧
      (rowsOf (stripeN st.hdr) ≤ p.expRow ∨ start < 64 * ((p.expRow : Int) + 1))) ∧
    (activeRows (stripeN st.hdr) start last ≠ none → st.recs.length < 4096)

/-- The last stripe of portion n takes one more geometry record. -/
def TakesGeo (b : Dev) (n : Nat) (st : Stripe) (g : Geo) (start last : Int) : Prop :=
  ∃ x, (b.portion n).stripes.getLast?.map (·.recs) = some (st.recs ++ [x]) ∧ x.geo = g ∧ x.start = start ∧ x.last = last ∧
    (b.portion n).lastStart = some start

/-- A fence of portion n with this identifier is due: not reached, and its lines written or over (R118). -/
def FenceDue (d : Dev) (n id : Nat) (st : Stripe) (f : Fence) : Bool :=
  !f.past && f.id == id &&
    (if f.struck then d.linesDone n st.sseq 0 f.line
     else d.writtenBelow (2 * n) st.sseq f.line && d.writtenBelow (2 * n + 1) st.sseq f.line)

/-! ### Canonical forms -/

/-- The register file's canonical form: offsets rise, and no entry equals the register's reset value. -/
def rfOk (l : List (Nat × Word)) : Prop := keysRise l = true ∧ ∀ e ∈ l, e.2.toNat ≠ resetOf e.1

/-- HBM3E's canonical form: word indexes rise, and no entry equals the word nothing has written. -/
def hbmOk (l : List (Nat × HWord)) : Prop := keysRise l = true ∧ ∀ e ∈ l, e.2 ≠ {}

/-- The safety partition is coherent: unpowered it asserts SAFE_STATE (R71), and a cause is latched only while SAFE_STATE
is asserted (R571, R572). -/
def safOk (s : Saf) : Prop := (s.on = false → s.safe = true) ∧ (s.safe = false → s.cause = 0)

/-- The device's invariant. -/
def Coherent (d : Dev) : Prop := rfOk d.rf ∧ hbmOk d.hbm ∧ safOk d.saf

/-! ### What a command may change -/

/-- A part of the device. -/
inductive Part where
  /-- The register file. -/
  | registers
  /-- The halves of 64-bit registers latched by a read. -/
  | latched
  /-- The clock. -/
  | clock
  /-- The device control state. -/
  | top
  /-- The host interface. -/
  | hostIf
  /-- The Sheaf parsers, layers and strokes. -/
  | sheaf
  /-- The ledger and the build set. -/
  | ledger
  /-- The run-ahead: strike map, queues, strikes. -/
  | runAhead
  /-- The head ports. -/
  | head
  /-- The stage port. -/
  | stage
  /-- The heat memory. -/
  | heat
  /-- Calibration. -/
  | cal
  /-- The cameras. -/
  | cameras
  /-- The safety partition. -/
  | safety
  /-- The metrology partition. -/
  | metrology
  /-- The trace port and the performance counters. -/
  | glean
  /-- HBM3E. -/
  | hbm
  /-- The copy engine channels. -/
  | engine
  /-- The HBM3E arbiters, refresh and scrub. -/
  | hbmCtl
  /-- The fabric links. -/
  | krypel
  /-- Time discipline and the Ethernet queues. -/
  | time
  /-- The panel. -/
  | panel
  /-- Frames waiting to leave on the fabric. -/
  | framesOut
  /-- Frames delivered and not consumed. -/
  | framesIn
  /-- What has been sent. -/
  | sent
  /-- The events logged. -/
  | events
  /-- Part of `top`: phase, tick index and its edge. -/
  | tick
  /-- Part of `top`: the OTP contents. -/
  | otp
  /-- Part of `safety`: the commissioning key and the recorded images. -/
  | commissioning
  /-- Part of `metrology`: key pair, factory constants and exponent of its counter. -/
  | metIdentity
  /-- Part of `hostIf`: the session. -/
  | session
  /-- Part of `runAhead`: the stroke being struck and its ticks. -/
  | strokeProgress
  /-- Part of `stage`: STRIKE_OK and RETREAT_REQ. -/
  | stageOutputs
  /-- Part of `top`: the operating mode. -/
  | mode
  /-- Part of `hostIf`: descriptors fetched and not completed, relayed commands. -/
  | commandQueues
  /-- Part of `hostIf`: the challenge, failures and the lockout of session opening. -/
  | authentication
  /-- Part of `hostIf`: Bus Master Enable, the power state and PERST_N. -/
  | link
  /-- Part of `top`: the designation and instant of the next edge. -/
  | nextEdge
  /-- Part of `top`: SYS_RST_N, the main rails and the straps. -/
  | power
  /-- Part of `top`: hold causes. -/
  | causes
  /-- Part of `top`: registered triggers. -/
  | triggers
  /-- Part of `krypel`: the ports and routes. -/
  | fabric
  /-- Part of `hostIf`: the MSI-X table. -/
  | vectors
  deriving DecidableEq, Repr

/-- Two devices agree on a part. -/
def Part.same (a b : Dev) : Part → Prop
  | .registers => b.rf = a.rf
  | .latched => b.latch = a.latch
  | .clock => b.clk = a.clk
  | .top => b.top = a.top
  | .hostIf => b.host = a.host
  | .sheaf => b.sheaf = a.sheaf
  | .ledger => b.ldg = a.ldg
  | .runAhead => b.ra = a.ra
  | .head => b.head = a.head
  | .stage => b.stg = a.stg
  | .heat => b.heat = a.heat
  | .cal => b.cal = a.cal
  | .cameras => b.cams = a.cams
  | .safety => b.saf = a.saf
  | .metrology => b.met = a.met
  | .glean => b.gln = a.gln
  | .hbm => b.hbm = a.hbm
  | .engine => b.eng = a.eng
  | .hbmCtl => b.hbmc = a.hbmc
  | .krypel => b.kry = a.kry
  | .time => b.tim = a.tim
  | .panel => b.pnl = a.pnl
  | .framesOut => b.kq = a.kq
  | .framesIn => b.kin = a.kin
  | .sent => b.outs = a.outs
  | .events => b.log = a.log
  | .tick => (b.top.phase, b.top.tick, b.top.edgeAt) = (a.top.phase, a.top.tick, a.top.edgeAt)
  | .otp => (b.top.otpKey, b.top.otpSerial) = (a.top.otpKey, a.top.otpSerial)
  | .commissioning => (b.saf.key, b.saf.slots) = (a.saf.key, a.saf.slots)
  | .metIdentity => (b.met.key, b.met.pub, b.met.factoryEc, b.met.factoryCrc, b.met.ec) = (a.met.key, a.met.pub, a.met.factoryEc, a.met.factoryCrc, a.met.ec)
  | .session => b.host.session = a.host.session
  | .strokeProgress => (b.ra.cur, b.ra.sTick, b.ra.nextTick) = (a.ra.cur, a.ra.sTick, a.ra.nextTick)
  | .stageOutputs => (b.stg.strikeOk, b.stg.retreat) = (a.stg.strikeOk, a.stg.retreat)
  | .mode => b.top.mode = a.top.mode
  | .commandQueues => (b.host.q0, b.host.q14, b.host.out14, b.host.begun, b.host.relays, b.host.nextRelay, b.host.retireN, b.host.layerResv, b.host.telemAt) = (a.host.q0, a.host.q14, a.host.out14, a.host.begun, a.host.relays, a.host.nextRelay, a.host.retireN, a.host.layerResv, a.host.telemAt)
  | .authentication => (b.host.chal, b.host.chalOrigin, b.host.fails, b.host.lockAt, b.host.modeBlock) = (a.host.chal, a.host.chalOrigin, a.host.fails, a.host.lockAt, a.host.modeBlock)
  | .link => (b.host.bme, b.host.d3hot, b.host.perst) = (a.host.bme, a.host.d3hot, a.host.perst)
  | .nextEdge => (b.top.desig, b.top.nextIdle, b.top.committed, b.top.sealOpen, b.top.isStrike, b.top.overspeed, b.top.stallNext, b.top.tPrev, b.top.idlePeriod) = (a.top.desig, a.top.nextIdle, a.top.committed, a.top.sealOpen, a.top.isStrike, a.top.overspeed, a.top.stallNext, a.top.tPrev, a.top.idlePeriod)
  | .power => (b.top.sysRst, b.top.railsGood, b.top.straps) = (a.top.sysRst, a.top.railsGood, a.top.straps)
  | .causes => (b.top.causes, b.top.holdCause, b.top.prevMode, b.top.abortPend) = (a.top.causes, a.top.holdCause, a.top.prevMode, a.top.abortPend)
  | .triggers => b.top.trigs = a.top.trigs
  | .fabric => (b.kry.ports, b.kry.route, b.kry.rootSerial, b.kry.dormantAt, b.kry.reported) = (a.kry.ports, a.kry.route, a.kry.rootSerial, a.kry.dormantAt, a.kry.reported)
  | .vectors => b.host.msix = a.host.msix

/-- Every part that is not listed is as it was. -/
def OnlyChanges (ps : List Part) (a b : Dev) : Prop := ∀ p, p ∉ ps → p.same a b

/-- What recording an event changes: the event ring and its registers, the trace port, the counts of the tick, what has
been sent, and, on a device that relays, the frames that wait. -/
def logging : List Part := [.registers, .top, .hostIf, .glean, .krypel, .framesOut, .sent, .events]

/-- What writing a completion changes: the same but the log of events. -/
def completing : List Part := [.registers, .top, .hostIf, .glean, .krypel, .framesOut, .sent]

/-- What the passing of time changes: the clock, and the performance counter of cycles. -/
def passing : List Part := [.clock, .glean]

/-- The parts that a command may change. -/
def Instr.touches : Instr → List Part
  | .tickEdge _ => logging ++ passing ++ [.sheaf, .ledger, .runAhead, .head, .stage, .heat, .cal, .cameras, .safety, .metrology, .hbm, .engine, .hbmCtl, .time, .panel, .framesIn, .tick, .strokeProgress, .stageOutputs, .mode, .commandQueues, .authentication, .nextEdge, .causes, .triggers, .fabric]
  | .commitPoint _ => logging ++ passing ++ [.stage, .nextEdge, .triggers]
  | .stallTimeout => passing ++ [.registers, .top, .stage, .nextEdge, .triggers]
  | .sealWindowOpen => passing ++ [.top, .sent, .nextEdge]
  | .strikeCriticalWindowEnd => passing ++ [.registers, .hbmCtl]
  | .mainRailFail _ => logging ++ passing ++ [.latched, .sheaf, .ledger, .runAhead, .head, .stage, .heat, .cal, .cameras, .safety, .metrology, .hbm, .engine, .hbmCtl, .time, .panel, .framesIn, .tick, .session, .strokeProgress, .stageOutputs, .mode, .commandQueues, .authentication, .link, .nextEdge, .power, .causes, .triggers, .fabric, .vectors]
  | .mainPorRelease _ _ _ => passing ++ [.registers, .top, .tick, .power]
  | .sysRstNRise _ _ _ => passing ++ [.registers, .top, .tick, .power]
  | .deviceReset _ => logging ++ passing ++ [.latched, .sheaf, .ledger, .runAhead, .head, .stage, .heat, .cal, .cameras, .safety, .metrology, .hbm, .engine, .hbmCtl, .time, .panel, .framesIn, .tick, .session, .strokeProgress, .stageOutputs, .mode, .commandQueues, .authentication, .link, .nextEdge, .power, .causes, .triggers, .fabric, .vectors]
  | .topReset _ _ _ => logging ++ passing ++ [.latched, .sheaf, .ledger, .runAhead, .head, .stage, .heat, .cal, .cameras, .safety, .metrology, .hbm, .engine, .hbmCtl, .time, .panel, .framesIn, .tick, .session, .strokeProgress, .stageOutputs, .mode, .commandQueues, .authentication, .link, .nextEdge, .power, .causes, .triggers, .fabric, .vectors]
  | .perstNRise _ => passing ++ [.hostIf, .link]
  | .hostInterfaceReset _ _ => logging ++ passing ++ [.sheaf, .cal, .metrology, .engine, .session, .commandQueues, .authentication, .link, .causes, .triggers, .vectors]
  | .functionLevelReset _ => logging ++ passing ++ [.sheaf, .cal, .metrology, .engine, .session, .commandQueues, .authentication, .link, .causes, .triggers, .vectors]
  | .busMasterEnable _ _ _ _ => passing ++ [.hostIf, .sent, .link]
  | .safPowerOn _ => passing ++ [.registers, .latched, .safety]
  | .vddSafLoss _ => logging ++ passing ++ [.runAhead, .heat, .cal, .safety]
  | .metPowerOn _ _ _ _ => logging ++ passing ++ [.latched, .metrology, .metIdentity]
  | .vddMetLoss _ => passing ++ [.metrology]
  | .sessionOpen _ => completing ++ passing ++ [.commandQueues, .authentication]
  | .sessionAuth _ => logging ++ passing ++ [.session, .commandQueues, .authentication, .triggers]
  | .sessionClose _ => logging ++ passing ++ [.cal, .session, .commandQueues, .triggers]
  | .sessionKeepalive _ => completing ++ passing ++ [.session, .commandQueues]
  | .nop _ => completing ++ passing ++ [.commandQueues]
  | .modeSet _ => completing ++ passing ++ [.commandQueues, .triggers]
  | .resume _ => completing ++ passing ++ [.commandQueues, .triggers]
  | .libValidate _ => completing ++ passing ++ [.sheaf, .commandQueues]
  | .libValidateDone _ => logging ++ passing ++ [.sheaf, .hbm, .hbmCtl, .commandQueues]
  | .calRun _ => completing ++ passing ++ [.cal, .commandQueues]
  | .selfTest _ => completing ++ passing ++ [.cal, .commandQueues]
  | .segment _ _ _ => logging ++ passing ++ [.sheaf]
  | .segmentComplete _ _ => completing ++ passing ++ [.sheaf]
  | .channelStart _ => completing ++ passing ++ [.engine, .commandQueues]
  | .metBuildBegin _ => completing ++ passing ++ [.ledger, .metrology, .commandQueues]
  | .metBuildEnd _ => logging ++ passing ++ [.ledger, .metrology, .commandQueues]
  | .metExport _ => completing ++ passing ++ [.metrology, .commandQueues]
  | .sessionTimeout => logging ++ passing ++ [.cal, .session, .commandQueues, .triggers]
  | .challengeExpiry => passing ++ [.hostIf, .authentication]
  | .sessionLockoutEnd => passing ++ [.hostIf, .authentication]
  | .relayTimeout => completing ++ passing ++ [.commandQueues]
  | .doorbell _ _ _ _ => logging ++ passing
  | .descriptorFetch _ _ _ => logging ++ passing ++ [.sheaf, .framesIn, .commandQueues, .fabric]
  | .ringEnable _ _ _ => passing ++ [.registers, .hostIf, .commandQueues]
  | .ringDisable _ _ _ => logging ++ passing ++ [.sheaf, .commandQueues]
  | .fetchErrClear _ _ => passing ++ [.registers]
  | .irqDelayExpiry _ => passing ++ [.hostIf, .sent]
  | .telemetryPeriod => completing ++ [.head, .commandQueues]
  | .layerCompletion _ => logging ++ passing ++ [.sheaf, .ledger, .runAhead, .metrology, .commandQueues]
  | .metRecordExport _ => completing ++ passing ++ [.metrology, .commandQueues]
  | .layerBegin _ _ => logging ++ passing ++ [.sheaf]
  | .classTable _ _ => logging ++ passing ++ [.sheaf]
  | .stripeBegin _ _ => logging ++ passing ++ [.sheaf]
  | .layerEnd _ _ => logging ++ passing ++ [.sheaf]
  | .rect _ _ => logging ++ passing ++ [.sheaf]
  | .trap _ _ => logging ++ passing ++ [.sheaf]
  | .ref_ _ _ => logging ++ passing ++ [.sheaf, .hbm, .hbmCtl]
  | .aref _ _ => logging ++ passing ++ [.sheaf, .hbm, .hbmCtl]
  | .rawBlock _ _ => logging ++ passing ++ [.sheaf]
  | .sheafCheck _ _ => logging ++ passing ++ [.sheaf, .ledger, .runAhead]
  | .fence _ _ => logging ++ passing ++ [.sheaf]
  | .layerAccept _ => logging ++ passing ++ [.sheaf, .ledger, .metrology, .commandQueues]
  | .strokeAccept _ => logging ++ passing ++ [.sheaf, .ledger, .heat]
  | .fenceReached _ _ _ => logging ++ passing ++ [.sheaf, .engine]
  | .blockRowBegin _ _ => passing ++ [.sheaf]
  | .blockExpanded _ _ _ _ => logging ++ passing ++ [.sheaf, .ledger, .runAhead, .hbm, .hbmCtl]
  | .rebuildStart _ _ => passing ++ [.sheaf]
  | .rebuildComplete _ _ _ _ _ => logging ++ passing ++ [.sheaf, .ledger, .runAhead, .hbm, .hbmCtl, .triggers]
  | .thresherDisable _ _ => logging ++ passing ++ [.sheaf, .commandQueues]
  | .thresherEnable _ _ => logging ++ passing ++ [.sheaf]
  | .thresherReinstate _ _ => logging ++ passing ++ [.sheaf]
  | .tillerEntryCompute _ _ _ _ => logging ++ passing ++ [.sheaf, .ledger, .runAhead, .heat, .hbm, .hbmCtl, .triggers]
  | .correctionReplay _ _ _ _ => logging ++ passing ++ [.sheaf, .ledger, .runAhead, .heat, .hbm, .hbmCtl, .triggers]
  | .columnDisable _ _ => passing ++ [.registers, .runAhead]
  | .columnEnable _ _ => passing ++ [.registers, .runAhead]
  | .shadowWrite _ _ _ _ => passing ++ [.registers, .runAhead]
  | .shareConfigApply _ _ => logging ++ passing ++ [.runAhead, .hbm, .hbmCtl]
  | .healthCommit _ _ => logging ++ passing ++ [.runAhead]
  | .tempLatch _ => logging ++ passing ++ [.runAhead, .head, .cal]
  | .rampComplete _ _ => logging ++ passing ++ [.runAhead, .cal]
  | .arm _ => logging ++ passing ++ [.runAhead]
  | .retreatReqFall _ => passing ++ [.runAhead, .stage, .stageOutputs]
  | .strikeOkRise _ => passing ++ [.runAhead, .stage, .stageOutputs]
  | .layerClose _ => passing ++ [.sheaf, .stage, .heat, .cal]
  | .ageSweepVisit _ => logging ++ passing ++ [.heat, .hbm, .hbmCtl]
  | .assimilation _ => logging ++ passing ++ [.runAhead, .heat, .cameras, .hbm, .hbmCtl]
  | .seamMessage _ => logging ++ passing ++ [.runAhead, .heat, .hbm, .hbmCtl, .framesIn]
  | .seamMessageDeadline _ _ => logging ++ passing ++ [.heat]
  | .heatParamApply _ => logging ++ passing ++ [.runAhead, .heat]
  | .ftabCommit _ _ => logging ++ passing ++ [.heat, .hbm, .hbmCtl]
  | .frameStart _ _ _ => logging ++ passing ++ [.cameras]
  | .frameEnd _ _ _ => logging ++ passing ++ [.cameras]
  | .lineStart _ _ _ => passing ++ [.registers, .cameras]
  | .lineEnd _ _ _ => passing ++ [.registers, .cameras]
  | .csiLongPacket _ _ _ => logging ++ passing ++ [.cameras]
  | .mapComplete _ _ => passing ++ [.heat, .cameras]
  | .pqPush _ _ _ => logging ++ passing ++ [.cameras]
  | .paramStaging _ _ => logging ++ passing ++ [.cameras, .hbm, .hbmCtl]
  | .cameraTimeout _ => logging ++ passing ++ [.heat, .cameras]
  | .cameraDisable _ _ => logging ++ passing ++ [.heat, .cameras]
  | .cameraEnable _ _ => passing ++ [.registers, .cameras]
  | .cameraPlug _ _ => logging ++ passing ++ [.cameras]
  | .cameraUnplug _ _ => logging ++ passing ++ [.heat, .cameras]
  | .strikeRecord _ _ _ _ => logging ++ passing ++ [.sheaf, .ledger, .runAhead, .head, .cal, .metrology, .triggers]
  | .statusRecord _ _ _ => passing ++ [.registers, .head]
  | .linkRecord _ _ _ => logging ++ passing ++ [.head]
  | .eyeRecord _ _ _ => logging ++ passing ++ [.head]
  | .ackExpectTimeout _ => logging ++ passing ++ [.runAhead, .cal, .triggers]
  | .ackLateTimeout _ => logging ++ passing ++ [.sheaf, .ledger, .runAhead, .cal, .triggers]
  | .tilePlug _ _ => logging ++ passing ++ [.head]
  | .tileUnplug _ _ => logging ++ passing ++ [.runAhead, .head, .cal]
  | .tileBringup _ _ => passing ++ [.head]
  | .bringupStepTimeout _ _ => logging ++ passing ++ [.head]
  | .factoryCalCopyDone _ _ _ => logging ++ passing ++ [.head, .hbm, .hbmCtl]
  | .retrain _ _ => passing ++ [.head, .sent]
  | .reident _ _ => passing ++ [.head]
  | .tileEyeScanStart _ _ _ _ => passing ++ [.registers, .head]
  | .tileEyeScanTimeout _ => passing ++ [.head]
  | .returnLaneScanDone _ _ _ => logging ++ passing ++ [.head]
  | .tileLinkFault _ _ _ _ => logging ++ passing ++ [.head]
  | .calRunStart _ => logging ++ passing ++ [.cal, .hbm, .hbmCtl]
  | .calibrationStrike => logging ++ [.runAhead, .heat, .cal, .safety, .nextEdge]
  | .calRunEnd _ => logging ++ passing ++ [.runAhead, .cal, .hbm, .hbmCtl]
  | .calBankIntoForce _ => logging ++ passing ++ [.cal]
  | .stageSample _ _ _ _ => logging ++ passing ++ [.stage, .framesIn, .fabric]
  | .stageSampleRecord _ => logging ++ passing ++ [.stage, .framesIn]
  | .quadIndex _ _ _ => passing ++ [.registers, .stage]
  | .holdReqAssert _ => logging ++ passing ++ [.stage, .triggers]
  | .holdReqDeassert _ => logging ++ passing ++ [.stage]
  | .layerSync _ => logging ++ passing ++ [.stage]
  | .end_ _ _ _ => logging ++ passing ++ [.hbm, .engine, .hbmCtl, .commandQueues]
  | .move _ _ _ _ => logging ++ passing ++ [.hbm, .engine, .hbmCtl, .commandQueues]
  | .fill _ _ _ => logging ++ passing ++ [.hbm, .engine, .hbmCtl, .commandQueues]
  | .check _ _ _ _ => logging ++ passing ++ [.hbm, .engine, .hbmCtl, .commandQueues]
  | .loop _ _ _ => logging ++ passing ++ [.hbm, .engine, .hbmCtl, .commandQueues]
  | .wait _ _ _ => logging ++ passing ++ [.hbm, .engine, .hbmCtl, .commandQueues]
  | .waitSatisfied _ _ => passing ++ [.engine]
  | .waitTimeout _ => logging ++ passing ++ [.engine, .commandQueues]
  | .signal _ _ _ => logging ++ passing ++ [.hbm, .engine, .hbmCtl, .commandQueues]
  | .link _ _ _ => logging ++ passing ++ [.hbm, .engine, .hbmCtl, .commandQueues]
  | .channelDoorbell _ _ _ => passing ++ [.engine]
  | .cpeBusError _ _ _ _ _ => logging ++ passing ++ [.hbm, .engine, .hbmCtl, .commandQueues]
  | .restart _ _ => passing ++ [.engine]
  | .abort _ _ => logging ++ passing ++ [.engine, .commandQueues]
  | .hbmRequest _ _ => logging ++ passing ++ [.hbm, .hbmCtl]
  | .hbmAgePromotion _ _ => passing ++ [.registers, .hbmCtl]
  | .arbWithdraw _ _ _ => logging ++ passing ++ [.hbm, .hbmCtl]
  | .arbCutoff _ _ _ => logging ++ passing ++ [.hbm, .hbmCtl]
  | .arbCommit _ => logging ++ passing ++ [.hbmCtl]
  | .hbmOrderWrite _ _ => logging ++ passing ++ [.hbmCtl]
  | .hbmRemapDone _ => logging ++ passing ++ [.hbm, .hbmCtl]
  | .hbmRefreshDue _ _ => logging ++ passing ++ [.hbmCtl]
  | .hbmTempCrossing _ _ _ => logging ++ passing
  | .scrubRead => logging ++ passing ++ [.hbm, .hbmCtl]
  | .kryPortEnable _ _ => passing ++ [.krypel, .sent, .fabric]
  | .kryPortDisable _ _ _ => passing ++ [.registers, .krypel, .fabric]
  | .kryBringupStepTimeout _ => logging ++ passing ++ [.time, .fabric]
  | .train _ _ _ _ => logging ++ passing ++ [.time, .fabric]
  | .hello _ _ _ => logging ++ passing ++ [.time, .framesIn, .fabric]
  | .enum _ _ _ => logging ++ passing ++ [.framesIn, .fabric]
  | .idle _ _ _ => logging ++ passing ++ [.time, .framesIn, .fabric]
  | .dly _ _ _ _ => passing ++ [.registers, .krypel, .sent, .fabric]
  | .dlyPeriod _ => passing ++ [.krypel, .sent, .fabric]
  | .fastRetrain _ _ _ => logging ++ passing ++ [.time, .fabric]
  | .kryIdleTimeout _ => logging ++ passing ++ [.time, .fabric]
  | .kryRetrain _ _ _ => passing ++ [.registers, .krypel, .fabric]
  | .kryAckTimeout _ => logging ++ passing ++ [.time, .fabric]
  | .rootEnumStart _ => logging ++ passing ++ [.framesIn, .fabric]
  | .kryConfirm _ _ => logging ++ passing ++ [.framesIn, .fabric]
  | .kryReenum _ _ => logging ++ passing ++ [.framesIn, .fabric]
  | .kryRouteCommit _ => passing ++ [.krypel, .fabric]
  | .kryEyeScanStart _ _ _ => passing ++ [.registers, .krypel, .fabric]
  | .kryEyeScanDone _ _ _ => logging ++ passing ++ [.fabric]
  | .mapReport _ => passing ++ [.registers, .framesIn]
  | .relayCmd _ => logging ++ passing ++ [.framesIn, .commandQueues, .fabric]
  | .relayCpl _ => logging ++ passing ++ [.framesIn, .commandQueues]
  | .relayedEvent _ => logging ++ passing ++ [.framesIn]
  | .relayedTelemetry _ => passing ++ [.registers, .hostIf, .krypel, .framesOut, .framesIn, .sent]
  | .timeMessage _ => logging ++ passing ++ [.time, .framesIn]
  | .timeMessageSend => logging ++ passing ++ [.time, .framesIn, .fabric]
  | .servoIntervalExpiry => logging ++ passing ++ [.time]
  | .timeStepArm _ _ => passing ++ [.registers, .time]
  | .timeRateWrite _ _ => logging ++ passing ++ [.time]
  | .timeSlewWrite _ _ => logging ++ passing ++ [.time]
  | .holdoverEnter _ _ => logging ++ passing ++ [.time]
  | .holdoverTimeout => logging ++ passing ++ [.time]
  | .ethTxGo _ _ _ => logging ++ passing ++ [.time]
  | .ethLaunch _ => logging ++ passing ++ [.time]
  | .txqPop _ => passing ++ [.registers, .time, .sent]
  | .ptpFrameReceive _ _ => logging ++ passing ++ [.time]
  | .rxSlotFree _ _ => passing ++ [.registers, .time]
  | .heartbeat _ _ => logging ++ passing ++ [.runAhead, .heat, .cal, .safety, .commissioning, .triggers]
  | .safRead _ _ => logging ++ passing ++ [.runAhead, .heat, .cal, .safety, .commissioning, .triggers]
  | .safWrite _ _ => logging ++ passing ++ [.runAhead, .heat, .cal, .safety, .commissioning, .triggers]
  | .ceilWrite _ _ => logging ++ passing ++ [.runAhead, .heat, .cal, .safety, .commissioning, .triggers]
  | .safCommit _ _ _ => logging ++ passing ++ [.runAhead, .heat, .cal, .safety, .commissioning, .triggers]
  | .release _ _ => logging ++ passing ++ [.runAhead, .heat, .cal, .safety, .commissioning, .triggers]
  | .trip _ _ => logging ++ passing ++ [.runAhead, .heat, .cal, .safety, .commissioning, .triggers]
  | .lock _ _ _ => logging ++ passing ++ [.runAhead, .heat, .cal, .safety, .commissioning, .triggers]
  | .keySet _ _ _ => logging ++ passing ++ [.runAhead, .heat, .cal, .safety, .commissioning, .triggers]
  | .safHeartbeatTimeout => logging ++ passing ++ [.runAhead, .heat, .cal, .safety]
  | .safLockoutEnd => passing ++ [.safety]
  | .interlockFall _ _ => logging ++ passing ++ [.runAhead, .heat, .cal, .safety]
  | .interlockOk _ _ => passing ++ [.safety]
  | .estopDiscrepancy => logging ++ passing ++ [.runAhead, .heat, .cal, .safety]
  | .safClockFault _ _ => logging ++ passing ++ [.runAhead, .heat, .cal, .safety]
  | .safCrcCheck _ _ => logging ++ passing ++ [.runAhead, .heat, .cal, .safety]
  | .benReadbackFault _ _ => logging ++ passing ++ [.runAhead, .heat, .cal, .safety]
  | .safTempRecord _ _ _ => logging ++ passing ++ [.runAhead, .heat, .cal, .safety, .triggers]
  | .safStaleTimeout _ => logging ++ passing ++ [.runAhead, .heat, .cal, .safety]
  | .strobeWatchdog => logging ++ passing ++ [.runAhead, .heat, .cal, .safety]
  | .safFrameCheck _ _ _ _ _ _ => logging ++ passing ++ [.runAhead, .heat, .cal, .safety]
  | .safPlugChange _ _ _ => logging ++ passing ++ [.runAhead, .heat, .cal, .safety, .triggers]
  | .metSealChange _ _ => logging ++ passing ++ [.metrology]
  | .metServicePoll _ _ _ => logging ++ passing ++ [.metrology, .metIdentity]
  | .metDisplayUpdate _ _ => logging ++ passing ++ [.metrology]
  | .metXtalStop _ => logging ++ passing ++ [.metrology]
  | .metXtalRestored _ => logging ++ passing ++ [.metrology]
  | .metNvRetry _ _ => logging ++ passing ++ [.ledger, .metrology, .commandQueues]
  | .keyPress _ _ => logging ++ passing ++ [.metrology, .panel, .triggers]
  | .keyRelease _ _ => logging ++ passing ++ [.panel]
  | .gleanEnable _ _ => passing ++ [.registers, .sent]
  | .gleanDisable _ _ => passing ++ [.registers, .sent]
  | .gleanPeriodicSample => [.registers, .glean, .hbmCtl, .sent]
  | .pmcSnap _ _ => passing ++ [.registers]
  | .pmcClear _ _ => passing ++ [.registers]
  | .latchingRead _ _ _ => passing ++ [.registers, .latched, .top, .time, .sent]
  | .clearOnRead _ _ _ => passing ++ [.registers, .latched, .top, .time, .sent]
  | .ldgLayerRead _ _ => passing ++ [.registers, .latched, .top, .time, .sent]
  | .registerWrite _ _ _ _ => logging ++ passing ++ [.latched, .sheaf, .ledger, .runAhead, .head, .stage, .heat, .cal, .cameras, .safety, .metrology, .hbm, .engine, .hbmCtl, .time, .panel, .framesIn, .tick, .session, .strokeProgress, .stageOutputs, .mode, .commandQueues, .authentication, .link, .nextEdge, .power, .causes, .triggers, .fabric, .vectors]
  | .quadCountError _ _ => passing ++ [.stage]
  | .safSpiBadTransaction _ _ => logging ++ passing ++ [.runAhead, .heat, .cal, .safety, .commissioning, .triggers]
  | .frameForward _ _ _ => logging ++ passing ++ [.framesIn, .fabric]
  | .returnLaneWordLock _ _ => logging ++ passing ++ [.head]
  | .idHeaderRead _ _ _ => logging ++ passing ++ [.head, .cal, .safety, .metrology]
  | .slewComplete => passing ++ [.time]
  | .d3hotTransition _ _ => logging ++ passing ++ [.sheaf, .cal, .metrology, .engine, .session, .commandQueues, .authentication, .link, .causes, .triggers, .vectors]

/-! ### Transactions of SAF_SPI -/

/-- A request that authenticates, is in sequence and finds no lockout (R550 to R555). -/
def SpiAccepts (d : Dev) (req : List Byte) : Prop :=
  d.saf.on = true ∧ req.length = 52 ∧ fieldLE req 51 48 = crc32 (req.take 48) ∧ d.saf.lockAt = none ∧
    d.tagOk req d.saf.bootId = true ∧ d.saf.lastCnt < fieldLE req 7 4

/-- A request has been accepted and answered with STATUS 0: it is the last one seen and the last heartbeat. -/
def SpiDone (a b : Dev) (req : List Byte) (dt : Nat) : Prop :=
  b.saf.lastCnt = fieldLE req 7 4 ∧ b.saf.hbAt = a.clk.up + dt ∧ b.saf.hbSince = true ∧ byteAt b.saf.resp 1 = 0

/-- Channel c executes the instruction w at its program counter, of this opcode: the machine runs, the word it fetches is
valid, and HBM3E serves it (R409, R413, R423, R446). d1 is the device once the word has been fetched. -/
def Executes (d : Dev) (c op word w : Nat) (d1 : Dev) : Prop :=
  d.up = true ∧ c < 32 ∧ (d.chan c).st = .run ∧ ((d.chan c).hbm = false → d.hostReads = true) ∧
    (d.flag Reg.HBM_STAT Fd.HBM_STAT_REMAP = true → (d.chan c).hbm = false ∧ touchesHbm word = false) ∧
    d.fetchInstr c word = ((w, false), d1) ∧ encodingOk w = true ∧ w % 16 = op

/-- Channel c goes on to the next instruction (R409). -/
def GoesOn (a b : Dev) (c : Nat) : Prop :=
  (b.chan c).st = .run ∧ (b.chan c).pc = ((a.chan c).pc + 16) % 2 ^ 64 ∧ (b.chan c).count = (a.chan c).count + 1

/-- Channel c stops for a reason, at its instruction, and says so (R432). -/
def Stops (a b : Dev) (c reason : Nat) : Prop :=
  (b.chan c).st = .stop ∧ (b.chan c).reason = reason ∧ (b.chan c).pc = (a.chan c).pc ∧
    Logged a b 0x2A01 (toLE 1 c ++ toLE 1 reason ++ toLE 8 (a.chan c).pc)

/-- A write to host memory has been issued, or waits for Bus Master Enable. -/
def WritesHost (b : Dev) (addr : Nat) (bs : List Byte) (poison : Bool) : Prop :=
  Out.hostWrite addr bs poison ∈ b.host.waitOut ++ b.outs

/-- A control flit has been sent on a port (R490). -/
def SendsFlit (b : Dev) (p v : Nat) : Prop := Out.flit p (v % 256) (mkFlit v) ∈ b.outs

/-- A frame waits for a port, or has been sent on it. -/
def OnPort (b : Dev) (q : Nat) (f : KFrame) : Prop := (∃ z ∈ b.kq, z.out = q ∧ z.frame = f) ∨ ∃ n, Out.frame q n f (frameFlits f n) ∈ b.outs

/-- The next entry of a device-written ring has been written; `mk` builds its bytes from PHASE (R369, R373). -/
def PutsEntry (a b : Dev) (n : Nat) (mk : Nat → List Byte) : Prop :=
  Out.entry n (a.rd (Reg.RING_n_PROD n))
    (a.rd64 (Reg.RING_n_BASE_LO n) (Reg.RING_n_BASE_HI n) + 64 * (a.rd (Reg.RING_n_PROD n) % a.ringSize n))
    (mk (phaseOf (a.rd (Reg.RING_n_PROD n)) (a.ringSize n))) ∈ b.host.waitOut ++ b.outs

/-- The oldest frame of a PTYPE delivered to this device is k, and stands i-th (R508). -/
def OldestIn (d : Dev) (ptype i : Nat) (k : KIn) : Prop := d.kin.findIdx? (·.frame.ptype == ptype) = some i ∧ d.kin[i]? = some k


end Sys2Proof
end

