-- ==== Sys2Proof/Certificates/Slice0/Obligations.lean ====
section
/-!
DEFINITION. The statements for the provers.
-/
open Sys2Proof Sys2Proof.Machine

/-! ### The step and the queue -/

/-- A step takes the command at the front of the queue and runs it on the rest of the queue. The queue is the model's own
form of how commands reach the block (log entry 1). -/
def Obligations.StepRunsTheFrontCommand : Prop :=
  ∀ (c : Instr) (rest : List Instr) (d : Dev),
    step { dev := d, pending := c :: rest } = exec c { dev := d, pending := rest }

/-- With no command waiting the block idles (the model's choice, log entry 2). -/
def Obligations.EmptyQueueIdles : Prop := ∀ s : State, s.pending = [] → step s = .next s

/-- No command is refused and none ends in a fault, in any state: every step answers a next state. -/
def Obligations.EveryStepAnswersANextState : Prop :=
  ∀ s : State, ∃ t : State, step s = .next t ∧ t.pending = s.pending.tail

/-! ### Reset -/

/-- What the spec gives for the state after power is applied: every register reads its reset value, the device is in
Dormant with tick index 0, no session is open, SAFE_STATE is asserted with the power-on cause, nothing waits, and HBM3E holds no
written word. -/
def Obligations.ResetLeavesResetValues : Prop :=
  (∀ a, State.reset.dev.rd a = resetOf a) ∧ State.reset.dev.top.mode = .dormant ∧ State.reset.dev.top.tick = 0 ∧
    State.reset.dev.host.session = none ∧ State.reset.dev.saf.safe = true ∧ State.reset.dev.saf.cause = 1 ∧
    State.reset.dev.hbm = [] ∧ State.reset.dev.log = [] ∧ State.reset.pending = []

/-- The state after reset meets the invariant. -/
def Obligations.ResetIsCoherent : Prop := Coherent State.reset.dev

/-- A main power-on reset returns every register of the main partition to its reset value, and leaves those of the safety
and metrology partitions. -/
def Obligations.MainResetClearsTheMainPartition : Prop :=
  ∀ (d : Dev) (a : Nat), d.mainReset.rd a = if partitionReg a then d.metMainReset.rd a else resetOf a

/-- MAIN_RAIL_FAIL, MAIN_POR_RELEASE, SYS_RST_N_RISE, DEVICE_RESET: what each leaves of phase, mode, straps,
session and TOP_RESET_CAUSE. -/
def Obligations.DeviceResetsComplete : Prop :=
  (∀ (s : State) (dt : Nat), Completes (.mainRailFail dt) s fun t =>
    t.dev.top.phase = .held ∧ t.dev.top.mode = .dormant ∧ t.dev.top.tick = 0 ∧ t.dev.top.railsGood = false ∧
    t.dev.host.session = none ∧ t.dev.hbm = [] ∧ (∀ a, partitionReg a = false → t.dev.rd a = resetOf a)) ∧
  (∀ (s : State) (straps dt : Nat) (bist : Option (Nat × Nat)), s.dev.top.railsGood = false →
    Completes (.mainPorRelease straps bist dt) s fun t =>
      t.dev.top.railsGood = true ∧
      (s.dev.top.sysRst = true → t.dev.top.phase = .starting ∧ t.dev.top.straps = straps % 32 ∧
        t.dev.rd Reg.TOP_STRAP = straps % 32 ∧ t.dev.rd Reg.TOP_BIST = bistWord bist % 2 ^ 32 ∧
        t.dev.rd Reg.TOP_SERIAL_LO = s.dev.top.otpSerial % 2 ^ 32) ∧
      (s.dev.top.sysRst = false → t.dev.top.phase = s.dev.top.phase ∧ t.dev.rf = s.dev.rf)) ∧
  (∀ (s : State) (straps dt : Nat) (bist : Option (Nat × Nat)), s.dev.top.sysRst = false →
    Completes (.sysRstNRise straps bist dt) s fun t =>
      t.dev.top.sysRst = true ∧
      (s.dev.top.railsGood = true → s.dev.top.phase = .held → t.dev.top.phase = .starting ∧
        t.dev.rd Reg.TOP_STRAP = straps % 32 ∧ t.dev.rd Reg.TOP_BIST = bistWord bist % 2 ^ 32) ∧
      (s.dev.top.railsGood = false → t.dev.top.phase = s.dev.top.phase ∧ t.dev.rf = s.dev.rf)) ∧
  (∀ (s : State) (dt : Nat), s.dev.top.phase ≠ .held → Completes (.deviceReset dt) s fun t =>
    t.dev.top.phase = .held ∧ t.dev.top.sysRst = false ∧ t.dev.top.mode = .dormant ∧ t.dev.host.session = none ∧
    t.dev.rd Reg.TOP_RESET_CAUSE = (s.dev.rd Reg.TOP_RESET_CAUSE ||| 2 ^ 4 ||| b2n (s.dev.openSlots != 0)) % 2 ^ 32)

/-- TOP_RESET: it starts a device reset only with a session open and KEY = 0x5A17 and DEV = 1; any other write has no effect. -/
def Obligations.TopResetNeedsSessionAndKey : Prop :=
  ∀ (s : State) (v dt : Nat) (bist : Option (Nat × Nat)),
    (s.dev.hostOk = true → bits v 31 16 = 0x5A17 → bit v 0 = true → Completes (.topReset v bist dt) s fun t =>
      t.dev.top.phase = .starting ∧ t.dev.top.mode = .dormant ∧ t.dev.top.tick = 0 ∧ t.dev.host.session = none ∧
      t.dev.top.straps = s.dev.top.straps % 32 ∧ bit (t.dev.rd Reg.TOP_RESET_CAUSE) 3 = true) ∧
    ((s.dev.hostOk = false ∨ bits v 31 16 ≠ 0x5A17 ∨ bit v 0 = false) → Completes (.topReset v bist dt) s fun t =>
      t.dev = s.dev.after dt)

/-- PERST_N_RISE, HOST_INTERFACE_RESET, FUNCTION_LEVEL_RESET, D3HOT_TRANSITION, BUS_MASTER_ENABLE: the link's state, and
what a reset of the host interface leaves of the session and of TOP_RESET_CAUSE. -/
def Obligations.HostInterfaceResetsComplete : Prop :=
  (∀ (s : State) (dt : Nat), Completes (.perstNRise dt) s fun t => t.dev.host = { s.dev.host with perst := true }) ∧
  (∀ (s : State) (why dt : Nat), s.dev.top.phase = .starting → Completes (.hostInterfaceReset why dt) s fun t =>
    t.dev.host = { s.dev.host with perst := s.dev.host.perst && why != 0 } ∧ bit (t.dev.rd Reg.TOP_RESET_CAUSE) 2 = true) ∧
  (∀ (s : State) (why dt : Nat), s.dev.up = true → Completes (.hostInterfaceReset why dt) s fun t =>
    t.dev.host.session = none ∧ t.dev.host.bme = false ∧ t.dev.host.d3hot = false ∧ t.dev.host.q14 = [] ∧
    t.dev.host.perst = (s.dev.host.perst && why != 0) ∧ bit (t.dev.rd Reg.TOP_RESET_CAUSE) 2 = true) ∧
  (∀ (s : State) (dt : Nat), s.dev.up = true → s.dev.host.perst = true → Completes (.functionLevelReset dt) s fun t =>
    t.dev.host.session = none ∧ t.dev.host.bme = false ∧ t.dev.host.perst = true ∧ t.dev.host.q14 = [] ∧
    bit (t.dev.rd Reg.TOP_RESET_CAUSE) 1 = true) ∧
  (∀ (s : State) (cold : Bool) (dt : Nat), s.dev.up = true → s.dev.host.perst = true → s.dev.host.d3hot ≠ cold →
    Completes (.d3hotTransition cold dt) s fun t =>
      t.dev.host.d3hot = cold ∧ (cold = true → t.dev.host.session = s.dev.host.session) ∧
      (cold = false → t.dev.host.session = none)) ∧
  (∀ (s : State) (on msixEn msixMask : Bool) (dt : Nat), s.dev.host.perst = true →
    Completes (.busMasterEnable on msixEn msixMask dt) s fun t =>
      t.dev.host.bme = on ∧ t.dev.host.msixEn = msixEn ∧ t.dev.host.msixMask = msixMask ∧
      (on = true → s.dev.host.d3hot = false → t.dev.host.waitOut = [] ∧ (∀ o ∈ s.dev.host.waitOut, o ∈ t.dev.outs) ∧
        s.dev.outs <:+ t.dev.outs) ∧
      (on = false → t.dev.outs = s.dev.outs ∧ s.dev.host.waitOut <:+ t.dev.host.waitOut ∧
        (s.dev.host.pba = 0 ∨ msixEn = false ∨ msixMask = true → t.dev.host.waitOut = s.dev.host.waitOut)))

/-! ### Invariants and rules of the whole device -/

/-- The register file and HBM3E keep their canonical form, and the safety partition stays coherent, through every step. -/
def Obligations.EveryStepKeepsCoherence : Prop :=
  ∀ s t : State, step s = .next t → Coherent s.dev → Coherent t.dev

/-- The frame of every command: it leaves the queue alone and changes no part of the device outside its list. -/
def Obligations.EveryCommandKeepsItsFrame : Prop :=
  ∀ (i : Instr) (s t : State), exec i s = .next t → t.pending = s.pending ∧ OnlyChanges i.touches s.dev t.dev

/-- Once asserted, SAFE_STATE stays asserted through every step whose command is not RELEASE. -/
def Obligations.OnlyReleaseEndsSafeState : Prop :=
  ∀ s t : State, step s = .next t → (∀ req dt, s.pending.head? ≠ some (.release req dt)) →
    s.dev.saf.safe = true → t.dev.saf.safe = true

/-- The mode changes at a tick edge and at a device reset only; the tick index and the phase there and at a start-up only. -/
def Obligations.ModeChangesAtEdgesAndResetsOnly : Prop :=
  ∀ (i : Instr) (s t : State), exec i s = .next t →
    ((∀ ups, i ≠ .tickEdge ups) ∧ (∀ a len v dt, i ≠ .registerWrite a len v dt) ∧ (∀ dt, i ≠ .mainRailFail dt) ∧ (∀ dt, i ≠ .deviceReset dt) ∧
      (∀ v bist dt, i ≠ .topReset v bist dt)) →
    t.dev.top.mode = s.dev.top.mode ∧
      ((∀ straps bist dt, i ≠ .mainPorRelease straps bist dt) → (∀ straps bist dt, i ≠ .sysRstNRise straps bist dt) →
        t.dev.top.tick = s.dev.top.tick ∧ t.dev.top.phase = s.dev.top.phase ∧ t.dev.top.edgeAt = s.dev.top.edgeAt)

/-- No command changes the contents of OTP: the session key and the serial number. -/
def Obligations.OtpNeverChanges : Prop :=
  ∀ s t : State, step s = .next t → t.dev.top.otpKey = s.dev.top.otpKey ∧ t.dev.top.otpSerial = s.dev.top.otpSerial

/-- The commissioning key and the recorded images change by an authenticated transaction of SAF_SPI only. -/
def Obligations.CommissioningChangesBySpiOnly : Prop :=
  ∀ (i : Instr) (s t : State), exec i s = .next t →
    ((∀ req dt, i ≠ .heartbeat req dt) ∧ (∀ req dt, i ≠ .safRead req dt) ∧ (∀ req dt, i ≠ .safWrite req dt) ∧
      (∀ req dt, i ≠ .ceilWrite req dt) ∧ (∀ req c dt, i ≠ .safCommit req c dt) ∧ (∀ req dt, i ≠ .release req dt) ∧
      (∀ req dt, i ≠ .trip req dt) ∧ (∀ req c dt, i ≠ .lock req c dt) ∧ (∀ req c dt, i ≠ .keySet req c dt) ∧
      (∀ req dt, i ≠ .safSpiBadTransaction req dt)) →
    t.dev.saf.key = s.dev.saf.key ∧ t.dev.saf.slots = s.dev.saf.slots

/-- STRIKE_OK and RETREAT_REQ change at a tick edge, as STRIKE_OK rises, as RETREAT_REQ falls, and at a device reset only;
the stroke being struck and its ticks change at a tick edge and at a device reset only. -/
def Obligations.StrikingChangesAtEdgesOnly : Prop :=
  ∀ (i : Instr) (s t : State), exec i s = .next t →
    ((∀ ups, i ≠ .tickEdge ups) ∧ (∀ a len v dt, i ≠ .registerWrite a len v dt) ∧ (∀ dt, i ≠ .mainRailFail dt) ∧
      (∀ dt, i ≠ .deviceReset dt) ∧ (∀ v bist dt, i ≠ .topReset v bist dt)) →
    (t.dev.ra.cur = s.dev.ra.cur ∧ t.dev.ra.sTick = s.dev.ra.sTick ∧ t.dev.ra.nextTick = s.dev.ra.nextTick) ∧
    ((∀ dt, i ≠ .strikeOkRise dt) → (∀ dt, i ≠ .retreatReqFall dt) →
      t.dev.stg.strikeOk = s.dev.stg.strikeOk ∧ t.dev.stg.retreat = s.dev.stg.retreat)

/-! ### The safety partition -/

/-- HEARTBEAT, SAF_READ, SAF_WRITE, CEIL_WRITE, TRIP, LOCK, KEY_SET: what an accepted request of each does. -/
def Obligations.SafetyRequestsComplete : Prop :=
  (∀ (s : State) (req : List Byte) (dt : Nat), SpiAccepts s.dev req → byteAt req 0 = 1 → byteAt req 1 = 0 →
    Completes (.heartbeat req dt) s fun t => SpiDone s.dev t.dev req dt ∧ t.dev.saf.safe = s.dev.saf.safe) ∧
  (∀ (s : State) (req : List Byte) (dt : Nat), SpiAccepts s.dev req → byteAt req 0 = 2 → byteAt req 1 = 0 →
    Completes (.safRead req dt) s fun t => SpiDone s.dev t.dev req dt ∧
      (fieldLE req 3 2 = 3 →
        (t.dev.saf.resp.drop 8).take 32 = (List.range 8).flatMap fun i => toLE 4 (s.dev.rd (safOfs (i + 3))))) ∧
  (∀ (s : State) (req : List Byte) (dt : Nat), SpiAccepts s.dev req → byteAt req 0 = 3 →
    1 ≤ byteAt req 1 → byteAt req 1 ≤ 8 →
    (∀ i < byteAt req 1, (safMask (fieldLE req 3 2 + i)).isSome = true ∧ safRange (fieldLE req 3 2 + i) (reqWord req i) = true) →
    Completes (.safWrite req dt) s fun t => SpiDone s.dev t.dev req dt ∧
      ∀ i < byteAt req 1, t.dev.stagedAt (safOfs (fieldLE req 3 2 + i)) = reqWord req i &&& (safMask (fieldLE req 3 2 + i)).getD 0) ∧
  (∀ (s : State) (req : List Byte) (dt : Nat), SpiAccepts s.dev req → byteAt req 0 = 4 → byteAt req 1 = 0 →
    fieldLE req 3 2 < 16384 → (∀ i < 16, fieldLE req (8 + 2 * i + 1) (8 + 2 * i) < 4096) →
    Completes (.ceilWrite req dt) s fun t => SpiDone s.dev t.dev req dt ∧
      ∀ i < 8, t.dev.stagedAt (Reg.SAF_CEIL_j (8 * fieldLE req 3 2 + i)) =
        fieldLE req (8 + 4 * i + 1) (8 + 4 * i) + 65536 * fieldLE req (8 + 4 * i + 3) (8 + 4 * i + 2)) ∧
  (∀ (s : State) (req : List Byte) (dt : Nat), SpiAccepts s.dev req → byteAt req 0 = 7 → byteAt req 1 = 0 →
    Completes (.trip req dt) s fun t => SpiDone s.dev t.dev req dt ∧ t.dev.saf.safe = true ∧ bit t.dev.saf.cause 14 = true) ∧
  (∀ (s : State) (req : List Byte) (dt : Nat), SpiAccepts s.dev req → byteAt req 0 = 8 → byteAt req 1 = 0 →
    s.dev.saf.slots.length < 64 →
    Completes (.lock req true dt) s fun t => SpiDone s.dev t.dev req dt ∧ t.dev.saf.slots = s.dev.saf.slots ++ [s.dev.saf.cfgCrc]) ∧
  (∀ (s : State) (req : List Byte) (dt : Nat), SpiAccepts s.dev req → byteAt req 0 = 9 → byteAt req 1 = 0 →
    s.dev.saf.key = none →
    Completes (.keySet req true dt) s fun t => SpiDone s.dev t.dev req dt ∧ t.dev.saf.key = some ((req.drop 8).take 16))

/-- SAF_COMMIT with the CRC of the staged image, while SAFE_STATE is asserted and the image is recorded (or none is, or
COMMISSION_EN is high), brings every staged setting into force. RELEASE, with every latched cause's condition met, ends SAFE_STATE and
clears the causes. -/
def Obligations.SafetyCommitAndReleaseComplete : Prop :=
  (∀ (s : State) (req : List Byte) (c : Bool) (dt : Nat), SpiAccepts s.dev req → byteAt req 0 = 5 → byteAt req 1 = 0 →
    s.dev.saf.safe = true → reqWord req 0 = imageCrc s.dev.stagedAt →
    (s.dev.saf.slots = [] ∨ s.dev.saf.slots.contains (imageCrc s.dev.stagedAt) = true ∨ c = true) →
    bits (s.dev.stagedAt Reg.SAF_WDOG) 15 0 + 400 ≤ bits (s.dev.stagedAt Reg.SAF_MINPER) 19 0 →
    Completes (.safCommit req c dt) s fun t => SpiDone s.dev t.dev req dt ∧ t.dev.saf.cfgCrc = imageCrc s.dev.stagedAt ∧
      ∀ i ∈ safSettings, t.dev.rd (safOfs i) = s.dev.stagedAt (safOfs i) % 2 ^ 32) ∧
  (∀ (s : State) (req : List Byte) (dt : Nat), SpiAccepts s.dev req → byteAt req 0 = 6 → byteAt req 1 = 0 →
    s.dev.releasable = true → s.dev.saf.safe = true →
    Completes (.release req dt) s fun t => SpiDone s.dev t.dev req dt ∧ t.dev.saf.safe = false ∧ t.dev.saf.cause = 0)

/-- SAF_COMMIT executes for every accepted request with FLAGS 0 while SAFE_STATE is asserted, where the CRC of the request is
that of the staged image, the image is recorded (or none is, or COMMISSION_EN is high) and the watchdog fits the minimum
period: every staged setting and every staged ceiling comes into force, and nothing else of SAFE_STATE changes (R558, R559,
R572). -/
def Obligations.SafetyCommitBringsTheImageIntoForce : Prop :=
  ∀ (s : State) (req : List Byte) (commEn : Bool) (dt : Nat), SpiAccepts s.dev req → byteAt req 0 = 5 → byteAt req 1 = 0 →
    s.dev.saf.safe = true → reqWord req 0 = imageCrc s.dev.stagedAt →
    (s.dev.saf.slots = [] ∨ imageCrc s.dev.stagedAt ∈ s.dev.saf.slots ∨ commEn = true) →
    bits (s.dev.stagedAt Reg.SAF_WDOG) 15 0 + 400 ≤ bits (s.dev.stagedAt Reg.SAF_MINPER) 19 0 →
    ∃ t, exec (.safCommit req commEn dt) s = .next t ∧ SpiDone s.dev t.dev req dt ∧
      (∀ i ∈ safSettings, t.dev.rd (safOfs i) = s.dev.stagedAt (safOfs i) % 2 ^ 32) ∧
      (∀ j < 131072, t.dev.rd (Reg.SAF_CEIL_j j) = s.dev.stagedAt (Reg.SAF_CEIL_j j) % 2 ^ 32) ∧
      (∀ a, t.dev.stagedAt a = s.dev.stagedAt a) ∧
      t.dev.saf.cfgCrc = imageCrc s.dev.stagedAt ∧ t.dev.saf.commitSince = true ∧
      t.dev.saf.safe = true ∧ t.dev.saf.cause = s.dev.saf.cause ∧
      (s.dev.up = true → Logged s.dev t.dev 0xF104 (toLE 4 (imageCrc s.dev.stagedAt)))

/-- RELEASE executes for every accepted request with FLAGS 0 while SAFE_STATE is asserted, where both ESTOP halves are closed, the
ESTOP discrepancy and every enabled input are clear, every tile temperature lies below HARD and the clock is in range, and, where latched, HB has seen a
heartbeat and SELF a commit: it clears SAFE_STATE and SAF_CAUSE and logs 0xF102; the mode changes at the next tick edge only.
Where a condition has not cleared, it answers STATUS 0x06 and SAFE_STATE stays (R572, whose conditions the model takes as they
stand at the request, latched or not). -/
def Obligations.SafetyReleaseEndsSafeState : Prop :=
  (∀ (s : State) (req : List Byte) (dt : Nat), SpiAccepts s.dev req → byteAt req 0 = 6 → byteAt req 1 = 0 →
    s.dev.saf.safe = true →
    bit s.dev.saf.inputs 0 = true → bit s.dev.saf.inputs 1 = true → s.dev.saf.discOk = true →
    (∀ k < 3, bit s.dev.saf.inputs (2 + k) = true ∨ bit (s.dev.rd Reg.SAF_CFG) k = false) →
    (∀ x ∈ s.dev.saf.tmax, x < toS 16 (s.dev.get Reg.SAF_TEMP Fd.SAF_TEMP_HARD)) → s.dev.saf.clkBad = false →
    (bit s.dev.saf.cause 13 = true → s.dev.saf.hbSince = true) →
    (bit s.dev.saf.cause 16 = true → s.dev.saf.commitSince = true) →
    ∃ t, exec (.release req dt) s = .next t ∧ SpiDone s.dev t.dev req dt ∧ t.dev.saf.safe = false ∧ t.dev.saf.cause = 0 ∧
      t.dev.top.mode = s.dev.top.mode ∧
      (s.dev.up = true → Logged s.dev t.dev 0xF102 (toLE 1 (if s.dev.top.mode = .safe then 4 else s.dev.top.mode.code)))) ∧
  (∀ (s : State) (req : List Byte) (dt : Nat), SpiAccepts s.dev req → byteAt req 0 = 6 → byteAt req 1 = 0 →
    s.dev.releasable = false →
    ∃ t, exec (.release req dt) s = .next t ∧ byteAt t.dev.saf.resp 1 = 6 ∧ t.dev.saf.safe = s.dev.saf.safe ∧
      t.dev.saf.cause = s.dev.saf.cause ∧ t.dev.saf.lastCnt = s.dev.saf.lastCnt)

/-- The events that assert SAFE_STATE and latch their cause: INTERLOCK_FALL, ESTOP_DISCREPANCY, SAF_CLOCK_FAULT, SAF_CRC_CHECK, BEN_READBACK_FAULT, SAF_TEMP_RECORD, SAF_STALE_TIMEOUT, STROBE_WATCHDOG,
SAF_FRAME_CHECK, SAF_PLUG_CHANGE. -/
def Obligations.SafetyEventsAssertSafeState : Prop :=
  (∀ (s : State) (i dt : Nat), s.dev.saf.on = true → i < 5 → s.dev.inputOn i = true → Completes (.interlockFall i dt) s fun t =>
    bit t.dev.saf.inputs i = false ∧ t.dev.saf.safe = true ∧ bit t.dev.saf.cause (if i < 2 then 1 else i + 1) = true) ∧
  (∀ (s : State), s.dev.saf.on = true → bit s.dev.saf.inputs 0 ≠ bit s.dev.saf.inputs 1 → Completes .estopDiscrepancy s fun t =>
    t.dev.saf.safe = true ∧ bit t.dev.saf.cause 2 = true ∧ t.dev.saf.discOk = false) ∧
  (∀ (s : State) (dt : Nat), s.dev.saf.on = true → Completes (.safClockFault true dt) s fun t =>
    t.dev.saf.clkBad = true ∧ t.dev.saf.safe = true ∧ bit t.dev.saf.cause 15 = true) ∧
  (∀ (s : State) (u : Option (Nat × Nat)) (dt : Nat), s.dev.saf.on = true → s.dev.saf.cfgCrc ≠ 0 →
    imageCrc (s.dev.upset u).rd ≠ s.dev.saf.cfgCrc → Completes (.safCrcCheck u dt) s fun t =>
      t.dev.saf.safe = true ∧ bit t.dev.saf.cause 16 = true) ∧
  (∀ (s : State) (t' dt : Nat), s.dev.saf.on = true → t' < 16 → Completes (.benReadbackFault t' dt) s fun t =>
    t.dev.saf.safe = true ∧ bit t.dev.saf.cause 16 = true) ∧
  (∀ (s : State) (t' dt : Nat) (temps : List Int), s.dev.saf.on = true → t' < 16 →
    toS 16 (s.dev.get Reg.SAF_TEMP Fd.SAF_TEMP_HARD) ≤ temps.foldl max (nth temps 0 0) → Completes (.safTempRecord t' temps dt) s fun t =>
      t.dev.saf.safe = true ∧ bit t.dev.saf.cause 6 = true) ∧
  (∀ (s : State) (t' : Nat), t' < 16 → s.dev.ben t' = true → Completes (.safStaleTimeout t') s fun t =>
    t.dev.saf.safe = true ∧ bit t.dev.saf.cause 7 = true) ∧
  (∀ (s : State), s.dev.saf.on = true → s.dev.up = true → s.dev.top.isStrike = true → Completes .strobeWatchdog s fun t =>
    t.dev.saf.safe = true ∧ bit t.dev.saf.cause 9 = true) ∧
  (∀ (s : State) (t' x dt : Nat) (codes : List (Nat × Nat × Nat)), s.dev.saf.on = true → t' < 16 → x ≠ s.dev.saf.expTick →
    Completes (.safFrameCheck t' false false x codes dt) s fun t => t.dev.saf.safe = true ∧ bit t.dev.saf.cause 11 = true) ∧
  (∀ (s : State) (t' dt : Nat), s.dev.saf.on = true → t' < 16 → s.dev.wantsBeam = true → Completes (.safPlugChange t' false dt) s fun t =>
    bit t.dev.saf.plug t' = false ∧ t.dev.saf.safe = true ∧ bit t.dev.saf.cause 8 = true)

/-- SAF_HEARTBEAT_TIMEOUT: HB_MS ms after the last accepted request SAFE_STATE is asserted with cause HB, in every mode; with
HB_MS = 0 never. -/
def Obligations.HeartbeatTimeoutAssertsSafeState : Prop :=
  ∀ s : State, s.dev.saf.on = true →
    (s.dev.get Reg.SAF_CFG Fd.SAF_CFG_HB_MS ≠ 0 → Completes .safHeartbeatTimeout s fun t =>
      t.dev.saf.safe = true ∧ bit t.dev.saf.cause 13 = true ∧
      t.dev.clk.up = max s.dev.clk.up (s.dev.saf.hbAt + s.dev.get Reg.SAF_CFG Fd.SAF_CFG_HB_MS * 1250000)) ∧
    (s.dev.get Reg.SAF_CFG Fd.SAF_CFG_HB_MS = 0 → Completes .safHeartbeatTimeout s fun t => t.dev = s.dev)

/-- SAF_POWER_ON, VDD_SAF_LOSS, INTERLOCK_OK, a clock back in range, a plug that appears, a temperature below the hard limit,
an IDLE frame, SAF_LOCKOUT_END, and a transaction that is not one of 52 bytes: what each leaves of the safety partition. -/
def Obligations.SafetyInputsComplete : Prop :=
  (∀ (s : State) (dt : Nat), s.dev.saf.on = false → Completes (.safPowerOn dt) s fun t =>
    t.dev.saf.on = true ∧ t.dev.saf.safe = true ∧ t.dev.saf.cause = 1 ∧ t.dev.saf.key = s.dev.saf.key ∧
    t.dev.saf.slots = s.dev.saf.slots ∧ t.dev.saf.lastCnt = 0 ∧
    (∀ a, 0xF00000 ≤ a → a < 0x1000000 → t.dev.rd a = resetOf a)) ∧
  (∀ (s : State) (dt : Nat), Completes (.vddSafLoss dt) s fun t =>
    t.dev.saf.on = false ∧ t.dev.saf.safe = true ∧ ∀ k, t.dev.ben k = false) ∧
  (∀ (s : State) (i dt : Nat), s.dev.saf.on = true → i < 5 → Completes (.interlockOk i dt) s fun t =>
    bit t.dev.saf.inputs i = true ∧ t.dev.saf.safe = s.dev.saf.safe ∧ t.dev.saf.cause = s.dev.saf.cause) ∧
  (∀ (s : State) (dt : Nat), s.dev.saf.on = true → Completes (.safClockFault false dt) s fun t =>
    t.dev.saf.clkBad = false ∧ t.dev.saf.safe = s.dev.saf.safe) ∧
  (∀ (s : State) (u : Option (Nat × Nat)) (dt : Nat), s.dev.saf.on = true →
    imageCrc (s.dev.upset u).rd = s.dev.saf.cfgCrc → Completes (.safCrcCheck u dt) s fun t =>
      t.dev.saf.safe = s.dev.saf.safe ∧ t.dev.saf.cause = s.dev.saf.cause ∧ t.dev.saf.cfgCrc = s.dev.saf.cfgCrc) ∧
  (∀ (s : State) (k dt : Nat), s.dev.saf.on = true → k < 16 → Completes (.safPlugChange k true dt) s fun t =>
    bit t.dev.saf.plug k = true ∧ t.dev.saf.safe = s.dev.saf.safe) ∧
  (∀ (s : State) (k dt : Nat) (temps : List Int), s.dev.saf.on = true → k < 16 →
    temps.foldl max (nth temps 0 0) < toS 16 (s.dev.get Reg.SAF_TEMP Fd.SAF_TEMP_HARD) →
    Completes (.safTempRecord k temps dt) s fun t =>
      nth t.dev.saf.tmax k 0 = temps.foldl max (nth temps 0 0) ∧ t.dev.saf.safe = s.dev.saf.safe) ∧
  (∀ (s : State) (k x dt : Nat) (test : Bool) (codes : List (Nat × Nat × Nat)), Completes (.safFrameCheck k true test x codes dt) s fun t =>
    t.dev.saf = s.dev.saf) ∧
  (∀ (s : State) (a : Nat), s.dev.saf.lockAt = some a → Completes .safLockoutEnd s fun t =>
    t.dev.saf.lockAt = none ∧ max s.dev.clk.up (a + 75000000000) = t.dev.clk.up) ∧
  (∀ (s : State) (req : List Byte) (dt : Nat), s.dev.saf.on = true → req.length ≠ 52 → Completes (.safSpiBadTransaction req dt) s fun t =>
    t.dev.saf = { s.dev.saf with crcErr := s.dev.saf.crcErr + 1 })

/-! ### Ticks and the strike handshake -/

/-- TICK_EDGE, COMMIT_POINT, STALL_TIMEOUT, SEAL_WINDOW_OPEN, ARM, STRIKE_OK_RISE. -/
def Obligations.TickCommandsComplete : Prop :=
  (∀ (s : State) (ups : List Upset), s.dev.top.phase = .starting → Completes (.tickEdge ups) s fun t =>
    t.dev.top.phase = .running ∧ t.dev.top.mode = .dormant ∧ t.dev.top.tick = 0 ∧ t.dev.top.edgeAt = 0 ∧
    t.dev.rd Reg.TOP_STROKE_TICK = 0xFFFFFFFF) ∧
  (∀ (s : State) (e : Nat) (ups : List Upset), s.dev.top.phase = .running → s.dev.nextEdge = some e → s.dev.tim.stepArm = none →
    Completes (.tickEdge ups) s fun t =>
      t.dev.top.tick = (s.dev.top.tick + 1) % 2 ^ 64 ∧ t.dev.top.edgeAt = e ∧ t.dev.top.phase = .running) ∧
  (∀ (s : State) (dt n : Nat) (e : Int), s.dev.up = true → s.dev.top.desig = .strike n → s.dev.top.committed = none →
    ((s.dev.after dt).approach n s.dev.commitLimit 200).commitNow n = some e →
    (((s.dev.after dt).approach n s.dev.commitLimit 200).clk.now + nsT 1024 : Nat) ≤ e * 2 ^ 32 →
    Completes (.commitPoint dt) s fun t => t.dev.top.committed = some (max (nsT e.toNat) (s.dev.top.edgeAt + nsT 5000))) ∧
  (∀ (s : State) (n : Nat), s.dev.up = true → s.dev.top.desig = .strike n → s.dev.top.committed = none →
    (s.dev.approach n s.dev.commitLimit 200).commitNow n = none →
    Completes .stallTimeout s fun t =>
      t.dev.top.committed = some (s.dev.top.tPrev + nsT 1000000) ∧ ⟨.hold 0x04, false⟩ ∈ t.dev.top.trigs ∧ t.dev.stg.stall = true) ∧
  (∀ (s : State) (e : Nat), s.dev.up = true → s.dev.nextEdge = some e → s.dev.top.sealOpen = false →
    Completes .sealWindowOpen s fun t =>
      t.dev.top.sealOpen = true ∧ t.dev.clk.now = max s.dev.clk.now (e - nsT 256) ∧
      ∀ k, k < 16 → (s.dev.tile k).st = .up → .headDly k (dlyLanes (s.dev.top.tick + 1)
        ((List.range 8).map fun i => (s.dev.col (8 * k + i)).shDelay.getD (s.dev.col (8 * k + i)).delay)) ∈ t.dev.outs) ∧
  (∀ (s : State) (x : Stroke) (n dt : Nat), s.dev.up = true → s.dev.due = some (x, n) → (s.dev.after dt).inApproach n = true →
    s.dev.top.mode = .hold → s.dev.ra.armed = false → s.dev.ra.resume.isSome = true → s.dev.stg.strikeOk = true →
    s.dev.stg.retreat = false → Completes (.arm dt) s fun t =>
      t.dev.ra.armed = true ∧ ∀ c e, e ∈ (t.dev.col c).queue → e.stale = true) ∧
  (∀ (s : State) (x : Stroke) (n dt : Nat), s.dev.up = true → s.dev.due = some (x, n) → (s.dev.after dt).inApproach n = true →
    s.dev.top.mode = .expose → s.dev.ra.cur = none → s.dev.ra.prep ≠ some x.sseq → Completes (.arm dt) s fun t =>
      t.dev.ra.prep = some x.sseq ∧ t.dev.ra.armed = true ∧ ∀ c e, e ∈ (t.dev.col c).queue → e.stale = true) ∧
  (∀ (s : State) (dt : Nat), s.dev.up = true → (s.dev.after dt).onEdge = true → s.dev.stg.strikeOk = false →
    (s.dev.after dt).okCond = true →
    Completes (.strikeOkRise dt) s fun t => t.dev.stg.strikeOk = true)

/-! ### The host interface -/

/-- SESSION_OPEN, SESSION_AUTH, SESSION_CLOSE, SESSION_KEEPALIVE, NOP, MODE_SET, RESUME, LIB_VALIDATE: the effect of the
command that may begin next, and its completion. -/
def Obligations.RingZeroCommandsComplete : Prop :=
  (∀ (s : State) (x : Desc) (dt : Nat), s.dev.up = true → s.dev.front0 = some x → x.op = 0x0001 → s.dev.host.session = none →
    s.dev.flag Reg.TOP_BIST Fd.TOP_BIST_PASS = true → s.dev.host.lockAt = none →
    Completes (.sessionOpen dt) s fun t =>
      t.dev.host.chal = some (s.dev.top.draws, s.dev.clk.up + dt) ∧ t.dev.host.q0 = s.dev.host.q0.erase x ∧
      Answers s.dev t.dev (s.dev.edgeStamp 1) x stCHALLENGE (toLE 32 (Config.challenge s.dev.top.draws).toNat)) ∧
  (∀ (s : State) (x : Desc) (k u dt : Nat), s.dev.up = true → s.dev.front0 = some x → x.op = 0x0002 →
    s.dev.host.chal = some (k, u) → s.dev.host.chalOrigin = x.origin.map Prod.fst → s.dev.host.session = none →
    sessionMac s.dev.top.otpKey k ((x.body.drop 16).take 16) (x.arg 13 12) = (x.body.drop 32).take 32 →
    Completes (.sessionAuth dt) s fun t =>
      t.dev.host.session = some { rings := x.arg 13 12, origin := x.origin.map Prod.fst, keepAt := s.dev.clk.up + dt } ∧
      t.dev.host.chal = none ∧ t.dev.host.fails = 0 ∧
      (s.dev.top.mode = .dormant → t.dev.host.begun = some x ∧ Wants t.dev .sessionOpened) ∧
      (s.dev.top.mode ≠ .dormant → t.dev.host.begun = none ∧
        Answers s.dev t.dev (s.dev.edgeStamp 1) x stOK (toLE 2 (x.arg 13 12)))) ∧
  (∀ (s : State) (x : Desc) (k u dt : Nat), s.dev.up = true → s.dev.front0 = some x → x.op = 0x0002 →
    s.dev.host.chal = some (k, u) → s.dev.host.chalOrigin = x.origin.map Prod.fst → s.dev.host.session = none →
    sessionMac s.dev.top.otpKey k ((x.body.drop 16).take 16) (x.arg 13 12) ≠ (x.body.drop 32).take 32 →
    Completes (.sessionAuth dt) s fun t =>
      t.dev.host.session = none ∧ t.dev.host.chal = none ∧ t.dev.host.fails = min 5 (s.dev.host.fails + 1) ∧
      (4 ≤ s.dev.host.fails → t.dev.host.lockAt = some (s.dev.clk.up + dt)) ∧
      Answers s.dev t.dev (s.dev.edgeStamp 1) x stAUTH_FAILED (toLE 1 (min 5 (s.dev.host.fails + 1)))) ∧
  (∀ (s : State) (x : Desc) (dt : Nat), s.dev.up = true → s.dev.front0 = some x → x.op = 0x0003 → s.dev.cmdSession x = true →
    Completes (.sessionClose dt) s fun t =>
      t.dev.host.session = none ∧ Logged s.dev t.dev 0x1002 (toLE 1 0) ∧
      (s.dev.top.mode = .configure → Wants t.dev .sessionEnded) ∧ (s.dev.top.mode = .expose → Wants t.dev (.hold 0x0D))) ∧
  (∀ (s : State) (x : Desc) (c : Session) (dt : Nat), s.dev.up = true → s.dev.front0 = some x → x.op = 0x0004 →
    s.dev.cmdSession x = true → s.dev.host.session = some c →
    Completes (.sessionKeepalive dt) s fun t =>
      t.dev.host.session = some { c with keepAt := s.dev.clk.up + dt } ∧
      Answers s.dev t.dev (s.dev.edgeStamp 1) x stOK []) ∧
  (∀ (s : State) (x : Desc) (dt : Nat), s.dev.up = true → s.dev.front0 = some x → x.op = 0x0005 →
    Completes (.nop dt) s fun t => t.dev.host.q0 = s.dev.host.q0.erase x ∧
      Answers s.dev t.dev (s.dev.edgeStamp 1) x stOK []) ∧
  (∀ (s : State) (x : Desc) (m : Mode) (dt : Nat), s.dev.up = true → s.dev.front0 = some x → x.op = 0x0010 →
    s.dev.cmdSession x = true → Mode.ofCode (x.arg 12 12) = some m →
    Completes (.modeSet dt) s fun t => t.dev.host.begun = some x ∧ Wants t.dev (.modeSet m)) ∧
  (∀ (s : State) (x : Desc) (dt : Nat), s.dev.up = true → s.dev.front0 = some x → x.op = 0x0011 → s.dev.cmdSession x = true →
    Completes (.resume dt) s fun t => t.dev.host.begun = some x ∧ Wants t.dev .resume) ∧
  (∀ (s : State) (x : Desc) (dt : Nat), s.dev.up = true → s.dev.front0 = some x → x.op = 0x0020 → s.dev.cmdSession x = true →
    s.dev.spareEn = true →
    Completes (.libValidate dt) s fun t => t.dev.host.begun = some x ∧
      ∃ v, t.dev.sheaf.lib = some v ∧ v.desc = x ∧ v.lib = x.arg 12 12)

/-- A ring-0 command that needs a session and has none completes with NO_SESSION and has no other effect on the queues:
SESSION_CLOSE, SESSION_KEEPALIVE, MODE_SET, RESUME, LIB_VALIDATE, CAL_RUN, SELF_TEST, MET_BUILD_BEGIN, MET_BUILD_END,
MET_EXPORT. -/
def Obligations.CommandsWithoutSessionAnswerNoSession : Prop :=
  ∀ (s : State) (x : Desc) (dt : Nat), s.dev.up = true → s.dev.front0 = some x → s.dev.cmdSession x = false →
    ∀ p ∈ [(0x0003, Instr.sessionClose dt), (0x0004, .sessionKeepalive dt), (0x0010, .modeSet dt), (0x0011, .resume dt),
        (0x0020, .libValidate dt), (0x0030, .calRun dt), (0x0031, .selfTest dt), (0x0110, .metBuildBegin dt),
        (0x0111, .metBuildEnd dt), (0x0112, .metExport dt)],
      x.op = p.1 → Completes p.2 s fun t =>
        Answers s.dev t.dev (s.dev.edgeStamp 1) x stNO_SESSION (s.dev.plainDetail x) ∧ t.dev.host.session = s.dev.host.session ∧
        t.dev.host.begun = none ∧ t.dev.top.mode = s.dev.top.mode ∧ t.dev.cal = s.dev.cal ∧ t.dev.met = s.dev.met

/-- SESSION_TIMEOUT, CHALLENGE_EXPIRY, SESSION_LOCKOUT_END, RELAY_TIMEOUT, IRQ_DELAY_EXPIRY: each falls at its instant. -/
def Obligations.HostTimeoutsComplete : Prop :=
  (∀ (s : State) (c : Session), s.dev.up = true → s.dev.host.session = some c → Completes .sessionTimeout s fun t =>
    t.dev.host.session = none ∧ t.dev.clk.up = max s.dev.clk.up (c.keepAt + 12500000000) ∧ Logged s.dev t.dev 0x1002 (toLE 1 1)) ∧
  (∀ (s : State) (k u : Nat), s.dev.host.chal = some (k, u) → Completes .challengeExpiry s fun t =>
    t.dev.host.chal = none ∧ t.dev.clk.up = max s.dev.clk.up (u + 1250000000)) ∧
  (∀ (s : State) (u : Nat), s.dev.host.lockAt = some u → Completes .sessionLockoutEnd s fun t =>
    t.dev.host.lockAt = none ∧ t.dev.host.fails = 0 ∧ t.dev.clk.up = max s.dev.clk.up (u + 75000000000)) ∧
  (∀ (s : State) (r : Relay) (rest : List Relay), s.dev.up = true → s.dev.host.relays = r :: rest →
    Completes .relayTimeout s fun t => t.dev.host.relays = rest ∧ t.dev.clk.up = max s.dev.clk.up (r.sentAt + 125000000) ∧
      Answers s.dev t.dev (s.dev.edgeStamp 1) r.desc stRELAY_FAILED (s.dev.plainDetail r.desc)) ∧
  (∀ (s : State) (n : Nat), s.dev.up = true → n < 15 → s.dev.get (Reg.RING_n_CTL n) Fd.RING_n_CTL_IRQ_US ≠ 0 →
    (s.dev.ringSt n).unsig ≠ 0 → Completes (.irqDelayExpiry n) s fun t =>
      (t.dev.ringSt n).unsig = 0 ∧
      (s.dev.msixMasked n = true → bit t.dev.host.pba n = true) ∧
      (s.dev.msixMasked n = false → ∃ a w, .msix n a w ∈ t.dev.host.waitOut ++ t.dev.outs))

/-- DOORBELL, DESCRIPTOR_FETCH, RING_ENABLE, RING_DISABLE, FETCH_ERR_CLEAR. -/
def Obligations.RingCommandsComplete : Prop :=
  (∀ (s : State) (n v dt : Nat), s.dev.linkUp = true → n < 15 → isSubmit n = true →
    (v + 2 ^ 32 - s.dev.rd (Reg.RING_n_CONS n)) % 2 ^ 32 ≤ s.dev.ringSize n →
    (v + 2 ^ 32 - s.dev.rd (Reg.RING_n_PROD n)) % 2 ^ 32 ≤ s.dev.ringSize n → v < 2 ^ 32 →
    Completes (.doorbell (0x1000 * n) 4 v dt) s fun t => t.dev.rd (Reg.RING_n_PROD n) = v) ∧
  (∀ (s : State) (n v dt : Nat), s.dev.linkUp = true → n < 15 → isSubmit n = false → v < 2 ^ 32 →
    (s.dev.rd (Reg.RING_n_PROD n) + 2 ^ 32 - v) % 2 ^ 32 ≤ s.dev.ringFill n →
    Completes (.doorbell (0x1000 * n) 4 v dt) s fun t => t.dev.rd (Reg.RING_n_CONS n) = v) ∧
  (∀ (s : State) (n v dt : Nat), s.dev.linkUp = true → n < 15 → isSubmit n = true → v < 2 ^ 32 →
    s.dev.ringSize n < (v + 2 ^ 32 - s.dev.rd (Reg.RING_n_CONS n)) % 2 ^ 32 →
    Completes (.doorbell (0x1000 * n) 4 v dt) s fun t => t.dev.get (Reg.RING_n_STAT n) Fd.RING_n_STAT_DBERR = 1 ∧
      t.dev.rd (Reg.RING_n_PROD n) = s.dev.rd (Reg.RING_n_PROD n) ∧ Logged s.dev t.dev 0x1005 (toLE 1 n ++ toLE 4 v)) ∧
  (∀ (s : State) (o len v dt : Nat), bellRing o = none ∨ len ≠ 4 ∨ s.dev.linkUp = false →
    Completes (.doorbell o len v dt) s fun t => t.dev = s.dev.after dt) ∧
  (∀ (s : State) (b : List Byte) (dt : Nat), s.dev.mayFetch 0 = true → s.dev.retiring 0 = false →
    let x : Desc := { ring := 0, count := s.dev.rd (Reg.RING_n_CONS 0), body := padTo 64 b }
    rejected x = none → x.relay = false → s.dev.host.resv1 + entriesOf x.op ≤ s.dev.ringFree 1 →
    Completes (.descriptorFetch 0 (some b) dt) s fun t => t.dev.host.q0 = s.dev.host.q0 ++ [x] ∧
      t.dev.rd (Reg.RING_n_CONS 0) = (s.dev.rd (Reg.RING_n_CONS 0) + 1) % 2 ^ 32) ∧
  (∀ (s : State) (n dt : Nat), s.dev.mayFetch n = true → n = 0 ∨ n = 14 →
    Completes (.descriptorFetch n none dt) s fun t => t.dev.get (Reg.RING_n_STAT n) Fd.RING_n_STAT_FETCH_ERR = 1 ∧
      t.dev.rd (Reg.RING_n_CONS n) = s.dev.rd (Reg.RING_n_CONS n) ∧
      Logged s.dev t.dev 0x1008 (toLE 1 n ++ toLE 4 (s.dev.nextCount n))) ∧
  (∀ (s : State) (n v dt : Nat), s.dev.linkUp = true → n < 15 →
    Completes (.ringEnable n v dt) s fun t => t.dev.ringEn n = true ∧ t.dev.rd (Reg.RING_n_PROD n) = 0 ∧
      t.dev.rd (Reg.RING_n_CONS n) = 0 ∧
      (s.dev.ringEn n = false → t.dev.get (Reg.RING_n_CTL n) Fd.RING_n_CTL_LOG2SIZE = bits v 4 0) ∧
      (s.dev.ringEn n = true → t.dev.get (Reg.RING_n_CTL n) Fd.RING_n_CTL_LOG2SIZE = s.dev.get (Reg.RING_n_CTL n) Fd.RING_n_CTL_LOG2SIZE)) ∧
  (∀ (s : State) (n v dt : Nat), s.dev.linkUp = true → n < 15 → s.dev.ringEn n = true → n ≠ 1 →
    (isSubmit n = true → n = 0 ∨ s.dev.top.mode = .dormant ∨ s.dev.top.mode = .configure) →
    Completes (.ringDisable n v dt) s fun t => t.dev.ringEn n = false) ∧
  (∀ (s : State) (n v dt : Nat), s.dev.linkUp = true → n < 15 → s.dev.ringEn n = true →
    (n = 1 ∧ (s.dev.outstanding = true ∨ s.dev.host.layerResv ≠ 0)) ∨
      (isSubmit n = true ∧ n ≠ 0 ∧ s.dev.top.mode ≠ .dormant ∧ s.dev.top.mode ≠ .configure) →
    Completes (.ringDisable n v dt) s fun t => t.dev.rd (Reg.RING_n_CTL n) = s.dev.rd (Reg.RING_n_CTL n) ∧
      Logged s.dev t.dev 0x1007 (toLE 1 n ++ toLE 1 s.dev.top.mode.code)) ∧
  (∀ (s : State) (n dt : Nat), s.dev.linkUp = true → n < 15 → Completes (.fetchErrClear n dt) s fun t =>
    t.dev.get (Reg.RING_n_STAT n) Fd.RING_n_STAT_FETCH_ERR = 0 ∧ ∀ a, a ≠ Reg.RING_n_STAT n → t.dev.rd a = s.dev.rd a)

/-- TELEMETRY_PERIOD, LATCHING_READ, CLEAR_ON_READ, LDG_LAYER_READ, and REGISTER_WRITE of a plain register. -/
def Obligations.RegisterAccessesComplete : Prop :=
  (∀ (s : State), s.dev.up = true → s.dev.rd Reg.RING_TELEM_CTL / 65536 ≠ 0 →
    s.dev.top.tick % (64 * (s.dev.rd Reg.RING_TELEM_CTL / 65536)) = 0 → s.dev.host.telemAt ≠ some s.dev.top.tick →
    Completes .telemetryPeriod s fun t => t.dev.host.telemAt = some s.dev.top.tick ∧
      (s.dev.flag Reg.RING_TELEM_CTL Fd.RING_TELEM_CTL_TILE = true → ∀ k < 16, (s.dev.tile k).present = true → (t.dev.tile k).charge = 0) ∧
      (s.dev.flag Reg.RING_TELEM_CTL Fd.RING_TELEM_CTL_TILE = false → s.dev.flag Reg.RING_TELEM_CTL Fd.RING_TELEM_CTL_STG = true →
        0 < s.dev.ringFree 3 → ∃ st : Stamp, st.tick = s.dev.top.tick ∧ st.ns = s.dev.top.edgeAt / 2 ^ 32 ∧
          PutsEntry s.dev t.dev 3 (telemEntry st 0x02 0 s.dev.id
            (toLES 8 s.dev.stg.pos ++ toLE 4 (s.dev.rd Reg.STG_PERIOD) ++ toLE 4 s.dev.stgStat)))) ∧
  (∀ (s : State) (a dt : Nat), s.dev.linkUp = true → a < 0x2000000 → a % 4 = 0 → s.dev.mirrorOff a = false →
    a ≠ Reg.TIME_TXQ_HDR → getKey a s.dev.latch = none →
    Completes (.latchingRead a 4 dt) s fun t =>
      t.dev.outs = .readValue a (BitVec.ofNat 32 (((s.dev.after dt).word a) % 2 ^ 32)) :: s.dev.outs ∧
      ∀ b, latchedBy a = [b] → getKey b t.dev.latch = some (BitVec.ofNat 32 ((s.dev.after dt).view b))) ∧
  (∀ (s : State) (a dt : Nat) (r : RegRow), s.dev.linkUp = true → a < 0x2000000 → a % 4 = 0 → s.dev.mirrorOff a = false →
    a ≠ Reg.TIME_TXQ_HDR → regRow a = some r → r.rc ≠ 0 → s.dev.rd a < 2 ^ 32 →
    Completes (.clearOnRead a 4 dt) s fun t => t.dev.rd a &&& r.rc = r.reset &&& r.rc) ∧
  (∀ (s : State) (k dt : Nat), s.dev.linkUp = true → k < 4 → getKey (Reg.LDG_k_LAYER k) s.dev.latch = none →
    Completes (.ldgLayerRead (some k) dt) s fun t => ∀ i, i < 6 →
      getKey (Reg.LDG_k_CNT_i_LO k i) t.dev.latch = some (BitVec.ofNat 32 ((s.dev.after dt).view (Reg.LDG_k_CNT_i_LO k i))) ∧
      getKey (Reg.LDG_k_CNT_i_HI k i) t.dev.latch = some (BitVec.ofNat 32 ((s.dev.after dt).view (Reg.LDG_k_CNT_i_HI k i)))) ∧
  (∀ (s : State) (a v dt : Nat) (r : RegRow), s.dev.linkUp = true → a < 0x2000000 → a % 4 = 0 → neverWritten a = false →
    (needsOpen a = true → s.dev.hasSession = true) → ¬(0x180000 ≤ a ∧ a < 0x200000) → ¬(0xE10000 ≤ a ∧ a < 0xE30000) →
    regRow a = some r → (s.dev.after dt).writeOwn a r.base ((a - r.base) / r.s1) (v % 2 ^ 32) = none → r.w1c = 0 →
    Completes (.registerWrite a 4 v dt) s fun t =>
      t.dev.rd a &&& r.rw = v &&& r.rw ∧ (∀ b, b ≠ a → t.dev.rd b = s.dev.rd b) ∧
      OnlyChanges [.registers, .clock, .glean] s.dev t.dev)

/-- A register write with no open session changes nothing outside the blocks that take writes without one; the mirrors of the
safety and metrology partitions and the ledger are never written; and without the link no write arrives. -/
def Obligations.WritesNeedSession : Prop :=
  ∀ (s : State) (a len v dt : Nat),
    ((needsOpen (a % 0x2000000) = true ∧ s.dev.hasSession = false) ∨ neverWritten (a % 0x2000000) = true ∨ s.dev.linkUp = false) →
    Completes (.registerWrite a len v dt) s fun t => t.dev = s.dev.after dt

/-! ### The Sheaf stream -/

/-- SEGMENT, LAYER_BEGIN, CLASS_TABLE, STRIPE_BEGIN, LAYER_END, SHEAF_CHECK, FENCE: a record in its place is taken. -/
def Obligations.SheafHeaderRecordsComplete : Prop :=
  (∀ (s : State) (n dt : Nat) (words : List (BitVec 64)) (x : Desc) (rest : List Desc), n < 8 → s.dev.up = true →
    s.dev.hostReads = true → (s.dev.portion n).stopped = false → (s.dev.portion n).waiting = x :: rest → segOk (x.arg 23 16) (x.arg 27 24) = true →
    words.length = x.arg 27 24 / 8 →
    Completes (.segment n words dt) s fun t => (t.dev.portion n).waiting = rest ∧
      (t.dev.portion n).segs = (s.dev.portion n).segs ++ [{ desc := x, words, begun := false }]) ∧
  (∀ (s : State) (n dt i : Nat) (g : Segment) (r : List (BitVec 64)), NextRecord s.dev n 0x10 i g r →
    (s.dev.portion n).ord = .first → wf (rw r 0) 63 56 = 0 → wf (rw r 0) 31 25 = 0 → wf (rw r 1) 63 48 = 0 → wf (rw r 1) 47 0 ≠ 0 →
    Completes (.layerBegin n dt) s fun t => Parses t.dev n i g r ∧ (t.dev.portion n).ord = .afterBegin ∧
      (t.dev.portion n).lSeen = (s.dev.portion n).lSeen + 1 ∧ (t.dev.portion n).lastStroke = none ∧
      ∃ l, (t.dev.portion n).layers = (s.dev.portion n).layers ++ [l] ∧ l.lseq = (s.dev.portion n).lSeen ∧ l.begin_ = r) ∧
  (∀ (s : State) (n dt i : Nat) (g : Segment) (r : List (BitVec 64)) (l : LayerHdr), NextRecord s.dev n 0x13 i g r →
    (s.dev.portion n).ord = .afterBegin → (s.dev.portion n).layer = some l → wf (rw r 0) 63 24 = 0 →
    (∀ k < 16, wf (rw r (1 + k / 4)) (16 * (k % 4) + 15) (16 * (k % 4) + 12) = 0) →
    Completes (.classTable n dt) s fun t => Parses t.dev n i g r ∧ (t.dev.portion n).ord = .afterClass ∧
      (t.dev.portion n).layer.map (·.cls) = some r) ∧
  (∀ (s : State) (n dt i : Nat) (g : Segment) (r : List (BitVec 64)) (h : LayerHdr) (l : Layer), NextRecord s.dev n 0x12 i g r →
    (s.dev.portion n).ord = .afterClass ∨ ((s.dev.portion n).ord = .body ∧
      ∀ x, (s.dev.portion n).stripes.getLast? = some x → (s.dev.portion n).checksDone (stripeWinnow x.hdr) (stripeN x.hdr) = true) →
    (s.dev.portion n).layer = some h → s.dev.layer? h.lseq = some l →
    wf (rw r 0) 63 43 = 0 → wf (rw r 0) 31 27 = 0 → wf (rw r 2) 63 25 = 0 → wf (rw r 0) 42 40 = n →
    ws (rw r 1) 0 % 64 = 0 → ws (rw r 1) 1 % 64 = 0 → 1 ≤ stripeN r → stripeN r ≤ 16777216 → ws (rw r 1) 0 ≤ 2145386496 →
    ws (rw r 1) 1 + 64 * (stripeN r : Int) ≤ 2147483648 →
    (∀ k, (s.dev.portion n).lastStroke = some k → wf (rw r 0) 39 32 = k + 1) →
    ((s.dev.portion n).lastStroke = none → wf (rw r 0) 39 32 = 0 ∨ s.dev.sheaf.abortedStroke = some (l.lseq, wf (rw r 0) 39 32)) →
    (l.reqWinnow = true → stripeWinnow r = true) →
    Completes (.stripeBegin n dt) s fun t => Parses t.dev n i g r ∧ (t.dev.portion n).ord = .body ∧
      (t.dev.portion n).sSeen = (s.dev.portion n).sSeen + 1 ∧ (t.dev.portion n).expRow = 0 ∧
      ∃ st, (t.dev.portion n).stripes.getLast? = some st ∧ st.sseq = (s.dev.portion n).sSeen ∧ st.hdr = r ∧ st.recs = []) ∧
  (∀ (s : State) (n dt i : Nat) (g : Segment) (r : List (BitVec 64)) (l : LayerHdr) (st : Stripe), NextRecord s.dev n 0x11 i g r →
    (s.dev.portion n).ord = .body → (s.dev.portion n).layer = some l → (s.dev.portion n).stripes.getLast? = some st →
    wf (rw r 0) 63 56 = 0 → wf (rw r 0) 55 32 = wf (rw l.begin_ 0) 55 32 → (s.dev.portion n).lastStroke = some (wf (rw r 0) 31 24) →
    (s.dev.portion n).checksDone (stripeWinnow st.hdr) (stripeN st.hdr) = true →
    Completes (.layerEnd n dt) s fun t => Parses t.dev n i g r ∧ (t.dev.portion n).ord = .first ∧
      (t.dev.portion n).layer.map (·.ended) = some true) ∧
  (∀ (s : State) (n dt i : Nat) (g : Segment) (r : List (BitVec 64)) (st : Stripe), NextRecord s.dev n 0x40 i g r →
    (s.dev.portion n).ord = .body → (s.dev.portion n).stripes.getLast? = some st → stripeWinnow st.hdr = true →
    wf (rw r 0) 63 56 = 0 → wf (rw r 0) 31 25 = 0 → wf (rw r 1) 63 32 = 0 → wf (rw r 0) 55 32 = (s.dev.portion n).expRow →
    (s.dev.portion n).expRow < rowsOf (stripeN st.hdr) → (s.dev.portion n).gotBand.contains (wf (rw r 0) 24 24) = false →
    Completes (.sheafCheck n dt) s fun t => Parses t.dev n i g r ∧
      (t.dev.portion n).stripes.getLast?.map (·.checks) =
        some (st.checks ++ [((s.dev.portion n).expRow, wf (rw r 0) 24 24, wf (rw r 1) 31 0)])) ∧
  (∀ (s : State) (n dt i : Nat) (g : Segment) (r : List (BitVec 64)) (st : Stripe), NextRecord s.dev n 0x41 i g r →
    (s.dev.portion n).ord = .body → (s.dev.portion n).stripes.getLast? = some st → wf (rw r 0) 63 25 = 0 →
    wf (rw r 1) 63 32 ≤ stripeN st.hdr →
    Completes (.fence n dt) s fun t => Parses t.dev n i g r ∧
      (t.dev.portion n).stripes.getLast?.map (·.fences) =
        some (st.fences ++ [{ struck := wf (rw r 0) 24 24 == 1, id := wf (rw r 1) 31 0, line := wf (rw r 1) 63 32 }]))

/-- RECT, TRAP, REF, AREF, RAW_BLOCK: a geometry record in its place enters the stripe with its extents. -/
def Obligations.SheafGeometryRecordsComplete : Prop :=
  (∀ (s : State) (n dt i : Nat) (g : Segment) (r : List (BitVec 64)) (st : Stripe) (x : Geo),
    (s.dev.portion n).ord = .body → (s.dev.portion n).stripes.getLast? = some st → geoFields r = .ok x →
    let lo := firstLine (ptsBox (vertices x)).y0 (ws (rw st.hdr 1) 1)
    let hi := lastLine (ptsBox (vertices x)).y1 (ws (rw st.hdr 1) 1)
    GeoFits s.dev n st lo hi →
    (NextRecord s.dev n 0x31 i g r → Completes (.rect n dt) s fun t => Parses t.dev n i g r ∧ TakesGeo t.dev n st x lo hi) ∧
    (NextRecord s.dev n 0x30 i g r → Completes (.trap n dt) s fun t => Parses t.dev n i g r ∧ TakesGeo t.dev n st x lo hi)) ∧
  (∀ (s : State) (n dt i cell o nx ny addr m : Nat) (dx dy px py : Int) (b : Box) (g : Segment) (r : List (BitVec 64)) (st : Stripe)
      (l : Layer),
    (s.dev.portion n).ord = .body → (s.dev.portion n).stripes.getLast? = some st →
    geoFields r = .ok (.aref cell o dx dy nx ny px py) → s.dev.layer? st.lseq = some l → s.dev.hbmWaits = false →
    (((s.dev.after dt).begun n i).cell none (rqThr (2 * n)) l.libBase l.libLimit cell).1 = .found b addr m →
    let lo := firstLine (arefBox b o dx dy nx ny px py).y0 (ws (rw st.hdr 1) 1)
    let hi := lastLine (arefBox b o dx dy nx ny px py).y1 (ws (rw st.hdr 1) 1)
    GeoFits s.dev n st lo hi →
    (NextRecord s.dev n 0x32 i g r → Completes (.ref_ n dt) s fun t =>
      Parses t.dev n i g r ∧ TakesGeo t.dev n st (.aref cell o dx dy nx ny px py) lo hi) ∧
    (NextRecord s.dev n 0x33 i g r → Completes (.aref n dt) s fun t =>
      Parses t.dev n i g r ∧ TakesGeo t.dev n st (.aref cell o dx dy nx ny px py) lo hi)) ∧
  (∀ (s : State) (n dt i line lines cnt pix : Nat) (g : Segment) (r : List (BitVec 64)) (st : Stripe), NextRecord s.dev n 0x38 i g r →
    (s.dev.portion n).ord = .body → (s.dev.portion n).stripes.getLast? = some st →
    wf (rw r 0) 31 24 = 0 → wf (rw r 1) 63 39 = 0 → wf (rw r 1) 31 25 = 0 → wf (rw r 0) 63 32 = line → wf (rw r 1) 38 32 = lines →
    wf (rw r 1) 24 16 = cnt → wf (rw r 1) 15 0 = pix → 1 ≤ lines → lines ≤ 64 → 1 ≤ cnt → cnt ≤ 256 → pix % 16 = 0 → 4096 * n ≤ pix →
    pix + 16 * cnt ≤ 4096 * (n + 1) → line + lines ≤ stripeN st.hdr → GeoFits s.dev n st line ((line + lines : Nat) - 1) →
    Completes (.rawBlock n dt) s fun t => Parses t.dev n i g r ∧
      TakesGeo t.dev n st (.raw line lines pix cnt (unpack12 ((r.drop 2).flatMap fun x => toLE 8 x.toNat))) line ((line + lines : Nat) - 1))

/-- A record whose TYPE no portion may hold stops its portion and is logged as event 0x3101. -/
def Obligations.UnknownRecordStopsItsPortion : Prop :=
  ∀ (s : State) (n dt i : Nat) (g : Segment) (p : Instr),
    p ∈ [Instr.layerBegin n dt, .classTable n dt, .stripeBegin n dt, .layerEnd n dt, .rect n dt, .trap n dt, .ref_ n dt, .aref n dt,
      .rawBlock n dt, .sheafCheck n dt, .fence n dt] →
    n < 8 → s.dev.up = true → s.dev.expoOrHold = true → (s.dev.portion n).stopped = false →
    (s.dev.portion n).segs.findIdx? (fun s => !s.squashed && decide (s.pos < s.words.length)) = some i →
    (s.dev.portion n).segs[i]? = some g → recLen (g.words.drop g.pos) = none → (s.dev.sheaf.fails.all fun f => f.portion != n) = true →
    Completes p s fun t => (t.dev.portion n).stopped = true ∧
      ∃ row, Logged s.dev t.dev 0x3101 (toLE 1 n ++ toLE 1 (wf (rw (g.words.drop g.pos) 0) 7 0) ++
        toLE 2 (g.desc.count % 65536) ++ toLE 4 (8 * g.pos) ++ toLE 4 row)

/-- LIB_VALIDATE_DONE, LAYER_ACCEPT, STROKE_ACCEPT, FENCE_REACHED, SEGMENT_COMPLETE, LAYER_CLOSE, LAYER_COMPLETION. -/
def Obligations.LayerCommandsComplete : Prop :=
  (∀ (s : State) (v : LibCheck) (dt : Nat), s.dev.up = true → s.dev.sheaf.lib = some v →
    (s.dev.sheaf.rebuilds.any fun r => r.thr == some 16) = false → s.dev.hbmWaits = false →
    Completes (.libValidateDone dt) s fun t => t.dev.sheaf.lib = none ∧ t.dev.host.begun = none ∧
      (((s.dev.after dt).libAll ⟨16, 16, 3⟩ v.base v.limit (v.limit + 1) 0).1 = none →
        ∃ st, Answers s.dev t.dev st v.desc stOK []) ∧
      ∀ f, ((s.dev.after dt).libAll ⟨16, 16, 3⟩ v.base v.limit (v.limit + 1) 0).1 = some f →
        ∃ st, Answers s.dev t.dev st v.desc stLIB_INVALID (toLE 3 f.cell)) ∧
  (∀ (s : State) (dt k : Nat) (h : LayerHdr) (hs : List LayerHdr), s.dev.up = true → s.dev.expoOrHold = true →
    ((List.range 8).filterMap fun n => s.dev.hdrOf n s.dev.sheaf.nextLseq) = h :: hs → hs.length = 7 →
    ((h :: hs).all fun x => !x.cls.isEmpty) = true →
    firstDiffer ((h :: hs).map (·.begin_)) = none → firstDiffer ((h :: hs).map (·.cls)) = none →
    s.dev.host.resv1 + 2 ≤ s.dev.ringFree 1 → s.dev.freeSlot = some k →
    Completes (.layerAccept dt) s fun t => t.dev.sheaf.nextLayer = s.dev.sheaf.nextLayer + 1 ∧
      t.dev.sheaf.nextLseq = s.dev.sheaf.nextLseq + 1 ∧ (t.dev.slot k).st = .opened ∧ (t.dev.slot k).layer = s.dev.sheaf.nextLayer ∧
      ∃ l, t.dev.sheaf.layers = s.dev.sheaf.layers ++ [l] ∧ l.lseq = s.dev.sheaf.nextLseq ∧ l.num = s.dev.sheaf.nextLayer ∧
        l.tag = wf (rw h.begin_ 0) 55 32 ∧ l.duEnergy = wf (rw h.begin_ 1) 47 0 ∧ l.scales = classScales h.cls ∧ l.slot = k) ∧
  (∀ (s : State) (dt : Nat) (l : Layer) (s0 : Stripe) (ss : List Stripe), s.dev.up = true → s.dev.expoOrHold = true →
    ((List.range 8).filterMap fun n => s.dev.stripe? n s.dev.sheaf.nextSseq) = s0 :: ss → ss.length = 7 →
    (s.dev.sheaf.fails.all fun f => !(f.header && decide (f.sseq ≤ s.dev.sheaf.nextSseq))) = true → firstDiffer ((s0 :: ss).map fun x => stripeKey x.hdr) = none →
    s.dev.layer? s0.lseq = some l →
    sumN ((s.dev.heat.strokes.filter (·.layer == l.num)).map fun o => (o.n + 7) / 8) + (stripeN s0.hdr + 7) / 8 ≤ s.dev.heat.rows →
    Completes (.strokeAccept dt) s fun t => t.dev.sheaf.nextSseq = s.dev.sheaf.nextSseq + 1 ∧
      t.dev.sheaf.nextQ = s.dev.sheaf.nextQ + stripeN s0.hdr ∧ t.dev.rd Reg.THR_WFAULT = 0 ∧
      ∃ x, t.dev.sheaf.strokes = s.dev.sheaf.strokes ++ [x] ∧ x.sseq = s.dev.sheaf.nextSseq ∧ x.layer = l.num ∧
        x.n = stripeN s0.hdr ∧ x.q0 = s.dev.sheaf.nextQ ∧ x.winnow = stripeWinnow s0.hdr) ∧
  (∀ (s : State) (n id dt : Nat) (st : Stripe) (f : Fence), s.dev.up = true → n < 8 →
    ((s.dev.portion n).stripes.find? fun x => (s.dev.stroke? x.sseq).any (fun y => !y.aborted) && x.fences.any (FenceDue s.dev n id x)) =
      some st → st.fences.find? (FenceDue s.dev n id st) = some f →
    Completes (.fenceReached n id dt) s fun t =>
      Logged s.dev t.dev (if f.struck then 0x3302 else 0x3301) (toLE 4 f.id ++ toLE 4 f.line ++ toLE 1 n)) ∧
  (∀ (s : State) (n i dt : Nat) (g : Segment), s.dev.up = true → n < 8 → s.dev.ldg.pend = [] →
    (s.dev.portion n).segs.findIdx? (fun x => (x.squashed || x.words.length == x.pos && !x.words.isEmpty) &&
      (x.owed.all fun r => s.dev.refDone n r) && !(s.dev.sheaf.layers.any fun l => s.dev.seamWaits l.num)) = some i → (s.dev.portion n).segs[i]? = some g →
    Completes (.segmentComplete n dt) s fun t => (t.dev.portion n).segs = (s.dev.portion n).segs.eraseIdx i ∧
      Answers s.dev t.dev (s.dev.edgeStamp 1) g.desc (if g.squashed then stSQUASHED else stOK) (toLE 4 (8 * g.pos))) ∧
  (∀ (s : State) (dt last : Nat) (l : Layer), s.dev.up = true → (s.dev.sheaf.layers.find? fun l => l.closedAt.isNone) = some l →
    l.ended = some last →
    ((s.dev.sheaf.strokes.filter (·.lseq == l.lseq)).any fun x => x.stroke == last && x.ended) = true →
    ((s.dev.sheaf.strokes.filter (·.lseq == l.lseq)).all fun x => x.ended) = true →
    Completes (.layerClose dt) s fun t =>
      (t.dev.layer? l.lseq).map (·.closedAt) = some (some (heatTime (s.dev.top.edgeAt >>> 32))) ∧ t.dev.cal.closed = true ∧
      t.dev.heat.closes.getLast? = some (l.num, heatTime (s.dev.top.edgeAt >>> 32))) ∧
  (∀ (s : State) (dt : Nat) (l : Layer), s.dev.up = true → s.dev.ldg.pend = [] →
    (s.dev.sheaf.layers.find? fun l => l.closedAt.isSome && !l.complete) = some l → nth (s.dev.slot l.slot).cnt cUNC 0 = 0 →
    s.dev.ra.strikes = [] → s.dev.heat.deps = [] → s.dev.seamWaits l.num = false → l.slot < 4 →
    Completes (.layerCompletion dt) s fun t => t.dev.layer? l.lseq = none ∧
      (t.dev.slot l.slot).st = (if l.abandoned then .abandoned else .completed))

/-! ### The Threshers -/

/-- BLOCK_ROW_BEGIN, BLOCK_EXPANDED, REBUILD_START, REBUILD_COMPLETE, THRESHER_DISABLE, THRESHER_ENABLE,
THRESHER_REINSTATE. -/
def Obligations.ThresherCommandsComplete : Prop :=
  (∀ (s : State) (k dt band sseq row : Nat) (x : Stroke), s.dev.up = true → s.dev.expoOrHold = true → s.dev.serves k = some band →
    s.dev.bandPos band = (sseq, row) → s.dev.stroke? sseq = some x → (s.dev.thr k).busy = none → s.dev.rebuilding k = none →
    s.dev.nextRebuild k = none → x.aborted = false → row < rowsOf x.n → s.dev.malformedBlock sseq band row = false →
    (∀ i < linesOfRow x.n row, s.dev.slotFree band (x.q0 + 64 * row + i) = true) → k ≤ 16 →
    Completes (.blockRowBegin k dt) s fun t => (t.dev.thr k).busy = some (sseq, band, row) ∧
      t.dev.block? sseq band row = some { sseq, band, row, thr := k }) ∧
  (∀ (s : State) (k dt band sseq row : Nat) (glitch : List (Nat × Nat × Nat)) (poison : Bool) (x : Stroke) (l : Layer) (st : Stripe) (b : Block),
    s.dev.up = true → s.dev.expoOrHold = true → k ≤ 16 → (s.dev.thr k).busy = some (sseq, band, row) → s.dev.stroke? sseq = some x →
    s.dev.layerOf sseq = some l → s.dev.stripe? (band / 2) sseq = some st → s.dev.recsIn (band / 2) sseq row = true →
    s.dev.malformedBlock sseq band row = false → s.dev.block? sseq band row = some b →
    let e := (((s.dev.after dt).setThr k fun th => { th with busy := none }).expand k x l st.recs band row).1
    Completes (.blockExpanded k glitch poison dt) s fun t => (t.dev.thr k).busy = none ∧
      (poison = false → e.poisoned = false → e.err = none → ∃ c, t.dev.block? sseq band row = some c ∧
        c.vals = faulty e.vals glitch ∧ c.crc = blockCrc (faulty e.vals glitch) ∧ c.thr = k ∧
        (x.winnow = false → c.st = .strikable)) ∧
      (poison = true → (t.dev.block? sseq band row).map (·.st) = some .reexpanding)) ∧
  (∀ (s : State) (k dt : Nat) (r : Rebuild), s.dev.up = true → s.dev.expoOrHold = true → s.dev.nextRebuild k = some r →
    (s.dev.thr k).busy = none → s.dev.rebuilding k = none → (k ≠ 16 → s.dev.thrIn k = true) →
    Completes (.rebuildStart k dt) s fun t => ∃ x ∈ t.dev.sheaf.rebuilds, x.sseq = r.sseq ∧ x.band = r.band ∧ x.row = r.row ∧ x.thr = some k) ∧
  (∀ (s : State) (k dt : Nat) (glitch : List (Nat × Nat × Nat)) (poison : Bool)
      (again : List (Nat × Nat × List (BitVec 64))) (r : Rebuild) (x : Stroke) (l : Layer) (st : Stripe) (b : Block),
    s.dev.up = true → s.dev.expoOrHold = true → s.dev.rebuilding k = some r → s.dev.stroke? r.sseq = some x →
    s.dev.layerOf r.sseq = some l → s.dev.stripe? (r.band / 2) r.sseq = some st → s.dev.block? r.sseq r.band r.row = some b →
    s.dev.recsIn (r.band / 2) r.sseq r.row = true → s.dev.hostReads = true →
    Completes (.rebuildComplete k glitch poison again dt) s fun t => t.dev.rebuilding k = none) ∧
  (∀ (s : State) (n dt : Nat), s.dev.hostOk = true → n < 16 → s.dev.flag (Reg.THR_n_CTL n) Fd.THR_n_CTL_EN = true →
    (s.dev.thr n).retired = false → s.dev.spareEn = true → s.dev.sheaf.subst = none →
    Completes (.thresherDisable n dt) s fun t => t.dev.flag (Reg.THR_n_CTL n) Fd.THR_n_CTL_EN = false ∧
      t.dev.sheaf.subst = some n ∧
      Logged s.dev t.dev 0x3405 (toLE 1 n ++ toLE 1 0 ++ toLE 2 0 ++ toLE 4 (s.dev.bandPos n).2)) ∧
  (∀ (s : State) (n dt : Nat), s.dev.hostOk = true → n < 16 → s.dev.flag (Reg.THR_n_CTL n) Fd.THR_n_CTL_EN = true →
    (s.dev.thr n).retired = false → s.dev.spareEn = false ∨ s.dev.sheaf.subst.isSome = true →
    Completes (.thresherDisable n dt) s fun t => t.dev.flag (Reg.THR_n_CTL n) Fd.THR_n_CTL_EN = true ∧
      t.dev.sheaf = s.dev.sheaf ∧ Logged s.dev t.dev 0x3404 (toLE 1 n ++ toLE 1 (s.dev.sheaf.subst.getD 0xFF))) ∧
  (∀ (s : State) (dt : Nat), s.dev.hostOk = true → s.dev.spareEn = true → s.dev.sheaf.subst = none →
    Completes (.thresherDisable 16 dt) s fun t => t.dev.spareEn = false ∧ t.dev.sheaf.lib = none) ∧
  (∀ (s : State) (n dt : Nat), s.dev.hostOk = true → n ≤ 16 → s.dev.flag (Reg.THR_n_CTL n) Fd.THR_n_CTL_EN = false →
    Completes (.thresherEnable n dt) s fun t => t.dev.flag (Reg.THR_n_CTL n) Fd.THR_n_CTL_EN = true ∧
      (s.dev.sheaf.subst = some n → (s.dev.thr n).retired = false → t.dev.sheaf.subst = none)) ∧
  (∀ (s : State) (n dt : Nat), s.dev.hostOk = true → n ≤ 16 → (s.dev.thr n).retired = true →
    Completes (.thresherReinstate n dt) s fun t => (t.dev.thr n).retired = false ∧ (t.dev.thr n).matched = [])

/-! ### The Tillers -/

/-- TILLER_ENTRY_COMPUTE, CORRECTION_REPLAY, COLUMN_DISABLE, COLUMN_ENABLE, SHADOW_WRITE, SHARE_CONFIG_APPLY,
HEALTH_COMMIT, TEMP_LATCH, RAMP_COMPLETE. -/
def Obligations.TillerCommandsComplete : Prop :=
  (∀ (s : State) (c dt sseq line : Nat) (clsBad ceilBad : Option Nat) (x : Stroke) (l : Layer) (hs : HStroke) (dose : List Nat),
    s.dev.up = true → s.dev.expoOrHold = true → c < 128 → (s.dev.col c).en = true → (s.dev.col c).queue.length < 64 →
    s.dev.nextPass c 4096 (s.dev.col c).nextLine = (sseq, line) → s.dev.stroke? sseq = some x → s.dev.layerOf sseq = some l →
    s.dev.hstroke? sseq = some hs → s.dev.prevClosed l = true → s.dev.strikable sseq (c / 8) line = true →
    (s.dev.after dt).mayCompute (s.dev.col c) = true → ((s.dev.after dt).readDose c x line).1 = some dose →
    Completes (.tillerEntryCompute c clsBad ceilBad dt) s fun t => (t.dev.col c).nextLine = (sseq, line + 1) ∧
      ∃ e ∈ (t.dev.col c).queue, e.sseq = x.sseq ∧ e.line = line ∧ e.dose = dose) ∧
  (∀ (s : State) (c dt : Nat) (clsBad ceilBad : Option Nat) (e0 : Entry) (x : Stroke) (l : Layer) (hs : HStroke) (dose : List Nat),
    s.dev.up = true → s.dev.expoOrHold = true → c < 128 → (s.dev.col c).queue.find? (·.stale) = some e0 →
    s.dev.stroke? e0.sseq = some x → s.dev.layerOf e0.sseq = some l → s.dev.hstroke? e0.sseq = some hs →
    (s.dev.after dt).mayReplay = true → s.dev.strikable e0.sseq (c / 8) e0.line = true → ((s.dev.after dt).readDose c x e0.line).1 = some dose →
    Completes (.correctionReplay c clsBad ceilBad dt) s fun t =>
      ∃ e ∈ (t.dev.col c).queue, e.sseq = x.sseq ∧ e.line = e0.line ∧ e.dose = dose ∧ (e.stale = true → e.ptick = true)) ∧
  (∀ (s : State) (n dt : Nat), s.dev.hostOk = true → n < 128 → Completes (.columnDisable n dt) s fun t =>
    (t.dev.col n).enPend = some false ∧ t.dev.flag (Reg.TIL_n_CTL n) Fd.TIL_n_CTL_EN = false ∧ (t.dev.col n).en = (s.dev.col n).en) ∧
  (∀ (s : State) (n dt : Nat), s.dev.hostOk = true → n < 128 → Completes (.columnEnable n dt) s fun t =>
    (t.dev.col n).enPend = some true ∧ t.dev.flag (Reg.TIL_n_CTL n) Fd.TIL_n_CTL_EN = true ∧ (t.dev.col n).en = (s.dev.col n).en) ∧
  (∀ (s : State) (n v dt : Nat), s.dev.hostOk = true → n < 128 → Completes (.shadowWrite n 0 v dt) s fun t =>
    t.dev.rd (Reg.TIL_n_DELAY n) = v % 256 ∧ (t.dev.col n).delay = (s.dev.col n).delay ∧
    (s.dev.top.sealOpen = false → (t.dev.col n).shDelay = some (v % 256)) ∧
    (s.dev.top.sealOpen = true → (t.dev.col n).shDelay = (s.dev.col n).shDelay ∧ (t.dev.col n).shDelayIn = some (v % 256))) ∧
  (∀ (s : State) (n v dt : Nat), s.dev.hostOk = true → n < 128 → Completes (.shadowWrite n 1 v dt) s fun t =>
    (t.dev.col n).wNext = (s.dev.col n).wNext ∧
    (s.dev.top.sealOpen = false → (t.dev.col n).shShare = some (min (v % 65536) 32768)) ∧
    (s.dev.top.sealOpen = true → (t.dev.col n).shShare = (s.dev.col n).shShare ∧
      (t.dev.col n).shShareIn = some (min (v % 65536) 32768))) ∧
  (∀ (s : State) (n v dt : Nat), s.dev.hostOk = true → n < 128 → 16 ≤ bits v 12 0 → bits v 12 0 ≤ 4096 →
    Completes (.shadowWrite n 2 v dt) s fun t => (t.dev.col n).rampAct = (s.dev.col n).rampAct ∧
      (s.dev.top.sealOpen = false → (t.dev.col n).shRamp = some (bit v 31, bits v 12 0)) ∧
      (s.dev.top.sealOpen = true → (t.dev.col n).shRamp = (s.dev.col n).shRamp ∧
        (t.dev.col n).shRampIn = some (bit v 31, bits v 12 0))) ∧
  (∀ (s : State) (k dt : Nat) (h w : Bool), s.dev.up = true → k < 16 → nth s.dev.ra.cfgWait k none = some (h, w) →
    nth s.dev.ra.cfgStruck k false = false ∨ s.dev.prevInUse k = false →
    Completes (.shareConfigApply k dt) s fun t => nth t.dev.ra.cfgWait k none = none ∧
      Logged s.dev t.dev 0x4D02 (toLE 1 k ++ toLE 1 (b2n h + 2 * b2n w) ++ toLE 2 0 ++ toLE 8 s.dev.top.tick)) ∧
  (∀ (s : State) (bank dt : Nat), s.dev.hostOk = true → bank < 2 → s.dev.ra.healthPend = 0 →
    Completes (.healthCommit bank dt) s fun t => t.dev.ra.healthPend = 0xFFFF ∧ t.dev.ra.healthBank = bank ∧
      t.dev.get Reg.TIL_HEALTH_CTL Fd.TIL_HEALTH_CTL_BANK = bank) ∧
  (∀ (s : State) (bank dt : Nat), s.dev.hostOk = true → bank < 2 → s.dev.ra.healthPend ≠ 0 →
    Completes (.healthCommit bank dt) s fun t => t.dev.ra = s.dev.ra ∧
      Logged s.dev t.dev 0x4D04 (toLE 1 bank ++ toLE 1 0 ++ toLE 2 s.dev.ra.healthPend)) ∧
  (∀ (s : State) (dt : Nat), s.dev.up = true → s.dev.top.tick % 256 = 0 → s.dev.ra.latchedAt ≠ some s.dev.top.tick →
    Completes (.tempLatch dt) s fun t => t.dev.ra.latchedAt = some s.dev.top.tick ∧ t.dev.ra.tvAt = s.dev.top.tick + 64 ∧
      ∀ k < 16, (s.dev.tile k).report = true → (t.dev.tile k).report = false ∧
        (nth t.dev.ra.tvNext k (0, 0, 0x4000)).1 = asr ((s.dev.tile k).temps.foldl (· + ·) 0 + 2) 2) ∧
  (∀ (s : State) (k dt : Nat), s.dev.up = true → k < 16 → (∀ j < 8, s.dev.rampDone (8 * k + j) = true) →
    Completes (.rampComplete k dt) s fun t => (nth t.dev.cal.tiles k {}).bank = 1 - (nth s.dev.cal.tiles k {}).bank ∧
      (∀ j < 8, (t.dev.col (8 * k + j)).rampAct = false) ∧
      Logged s.dev t.dev 0x4D05 (toLE 1 k ++ toLE 1 0 ++ toLE 2 (s.dev.rampLen (8 * k)) ++ toLE 8 (((s.dev.col (8 * k)).rampQ).getD 0)))

/-! ### The stage port -/

/-- STAGE_SAMPLE, STAGE_SAMPLE_RECORD, QUAD_INDEX, QUAD_COUNT_ERROR, HOLD_REQ_ASSERT, HOLD_REQ_DEASSERT, LAYER_SYNC,
RETREAT_REQ_FALL. -/
def Obligations.StageCommandsComplete : Prop :=
  (∀ (s : State) (b0 b1 : Option Biss) (q0 q1 : Int), s.dev.up = true → s.dev.isMaster = true → s.dev.top.mode ≠ .dormant →
    let at_ := s.dev.nextSample s.dev.stgPeriod * s.dev.stgPeriod
    Completes (.stageSample b0 b1 q0 q1) s fun t => t.dev.stg.lastT = some at_ ∧
      nth t.dev.stg.quad 0 0 = toS 40 (ofS 40 (nth s.dev.stg.quad 0 0 + q0)) ∧
      nth t.dev.stg.quad 1 0 = toS 40 (ofS 40 (nth s.dev.stg.quad 1 0 + q1)) ∧ t.dev.clk.now = max s.dev.clk.now (nsT at_)) ∧
  (∀ (s : State) (dt i : Nat) (k : KIn), s.dev.up = true → s.dev.top.mode ≠ .dormant → s.dev.isMaster = false →
    s.dev.timeLocked = true → bit (s.dev.rd Reg.STG_MASTER) 31 = true → bits (s.dev.rd Reg.STG_MASTER) 11 0 = k.frame.src →
    s.dev.kin.findIdx? (·.frame.ptype == 0x01) = some i → s.dev.kin[i]? = some k → k.frame.poison = false →
    (s.dev.after dt).ns ≤ (sampleOf k.frame.payload).t + 1000 * (sampleOf k.frame.payload).useDelay →
    Completes (.stageSampleRecord dt) s fun t => t.dev.kin = s.dev.kin.eraseIdx i ∧
      ∃ m, t.dev.stg.recs = { sampleOf k.frame.payload with missed := m } :: s.dev.stg.recs) ∧
  (∀ (s : State) (dt i : Nat) (k : KIn), s.dev.up = true → s.dev.top.mode ≠ .dormant →
    s.dev.isMaster = true ∨ bit (s.dev.rd Reg.STG_MASTER) 31 = false ∨ bits (s.dev.rd Reg.STG_MASTER) 11 0 ≠ k.frame.src →
    s.dev.kin.findIdx? (·.frame.ptype == 0x01) = some i → s.dev.kin[i]? = some k →
    Completes (.stageSampleRecord dt) s fun t => t.dev.kin = s.dev.kin.eraseIdx i ∧ t.dev.stg = s.dev.stg ∧
      Logged s.dev t.dev 0x9B04 (toLE 2 k.frame.src ++ toLE 2 (sampleOf k.frame.payload).seq)) ∧
  (∀ (s : State) (q dt : Nat) (edges : Int), s.dev.up = true → q < 2 → Completes (.quadIndex q edges dt) s fun t =>
    nth t.dev.stg.quad q 0 = toS 40 (ofS 40 (nth s.dev.stg.quad q 0 + edges)) ∧
    t.dev.rd (Reg.STG_QIDX_q q) = ofS 32 (nth t.dev.stg.quad q 0)) ∧
  (∀ (s : State) (q dt : Nat), s.dev.up = true → q < 2 → Completes (.quadCountError q dt) s fun t =>
    nth t.dev.stg.qerr q false = true ∧ ∀ p < 2, p ≠ q → nth t.dev.stg.qerr p false = nth s.dev.stg.qerr p false) ∧
  (∀ (s : State) (dt : Nat), s.dev.up = true → s.dev.stg.holdReq = false → Completes (.holdReqAssert dt) s fun t =>
    t.dev.stg.holdReq = true ∧
    (s.dev.top.mode ≠ .dormant → bit s.dev.stg.ctl 2 = true → Logged s.dev t.dev 0x9B06 (toLE 1 1)) ∧
    (s.dev.top.mode = .expose → bit s.dev.stg.ctl 2 = true → Wants t.dev (.hold 0x05))) ∧
  (∀ (s : State) (dt : Nat), s.dev.up = true → s.dev.stg.holdReq = true → Completes (.holdReqDeassert dt) s fun t =>
    t.dev.stg.holdReq = false ∧
    (s.dev.top.mode ≠ .dormant → bit s.dev.stg.ctl 2 = true → Logged s.dev t.dev 0x9B06 (toLE 1 0))) ∧
  (∀ (s : State) (dt : Nat), s.dev.up = true → s.dev.top.mode ≠ .dormant → (s.dev.after dt).edgeNow = false →
    Completes (.layerSync dt) s fun t =>
    (s.dev.stg.closed = true → t.dev.stg.closed = false ∧ t.dev.stg.syncSeen = true ∧
      t.dev.rd Reg.STG_SYNC_CNT = sat 32 (s.dev.rd Reg.STG_SYNC_CNT + 1)) ∧
    (s.dev.stg.closed = false → s.dev.closeDue = none → t.dev.stg = s.dev.stg ∧ Logged s.dev t.dev 0x9B05 [])) ∧
  (∀ (s : State) (dt : Nat), s.dev.up = true → s.dev.top.mode ≠ .dormant → (s.dev.after dt).edgeNow = true →
    Completes (.layerSync dt) s fun t => t.dev.stg = { s.dev.stg with syncLate := true }) ∧
  (∀ (s : State) (dt : Nat) (y : Int), s.dev.up = true → (s.dev.after dt).onEdge = true → s.dev.stg.retreat = true →
    (s.dev.after dt).posAt (s.dev.after dt).ns (s.dev.top.edgeAt >>> 32) = some y →
    y ≤ 65536 * ((s.dev.startTick : Int) - (s.dev.ra.holdD : Int)) →
    Completes (.retreatReqFall dt) s fun t => t.dev.stg.retreat = false)

/-! ### The heat memory -/

/-- AGE_SWEEP_VISIT, SEAM_MESSAGE, SEAM_MESSAGE_DEADLINE, HEAT_PARAM_APPLY, FTAB_COMMIT. -/
def Obligations.HeatCommandsComplete : Prop :=
  (∀ (s : State) (dt : Nat), s.dev.up = true → s.dev.sweepOn = true → 0 < s.dev.heat.rows → s.dev.hbmWaits = false →
    Completes (.ageSweepVisit dt) s fun t =>
      t.dev.heat.sweepAt = (s.dev.heat.sweepAt % (2 * s.dev.heat.rows * 16) + 1) % (2 * s.dev.heat.rows * 16) ∧
      getKey (s.dev.heat.sweepAt % (2 * s.dev.heat.rows * 16)) t.dev.heat.visits = some (heatTime (s.dev.after dt).ns)) ∧
  (∀ (s : State) (dt i tx : Nat) (k : KIn) (x : Stroke) (hs : HStroke), s.dev.up = true → (s.dev.after dt).onEdge = true →
    s.dev.kin.findIdx? (·.frame.ptype == 0x10) = some i → s.dev.kin[i]? = some k → (s.dev.ra.cur.bind s.dev.stroke?) = some x →
    s.dev.hstroke? x.sseq = some hs → k.frame.src = s.dev.neighbour true → s.dev.heat.xchgE = true → x.blendE = true →
    s.dev.strikeHeat (seamOf k true).tick = some tx → s.dev.seamValid x k (seamOf k true) = true →
    Completes (.seamMessage dt) s fun t => t.dev.kin = s.dev.kin.eraseIdx i ∧
      t.dev.heat.seamGot = (true, ((seamOf k true).tick - 10) / 8) :: s.dev.heat.seamGot) ∧
  (∀ (s : State) (dt tk : Nat) (x : Stroke), s.dev.up = true → (s.dev.after dt).onEdge = true → (s.dev.ra.cur.bind s.dev.stroke?) = some x →
    s.dev.ra.sTick = some tk → s.dev.heat.xchgE = true → x.blendE = true → 18 ≤ tk → (tk - 18) % 8 = 0 → (tk - 18) / 8 < (x.n + 7) / 8 →
    s.dev.heat.seamGot.contains (true, (tk - 18) / 8) = false → (s.dev.kin.all fun k => k.frame.ptype != 0x10) = true →
    Completes (.seamMessageDeadline true dt) s fun t =>
      t.dev.rd Reg.HEAT_SEAM_MISS = sat 32 (s.dev.rd Reg.HEAT_SEAM_MISS + 1) ∧
      t.dev.heat.seamGot = (true, (tk - 18) / 8) :: s.dev.heat.seamGot ∧
      (nth s.dev.heat.seamMissed 1 false = false → Logged s.dev t.dev 0x5E03 (toLE 1 1 ++ toLE 1 x.stroke ++ toLE 4 ((tk - 18) / 8)))) ∧
  (∀ (s : State) (dt : Nat), s.dev.up = true → (s.dev.after dt).onEdge = true → s.dev.heatFree = true →
    s.dev.heatTurn 0 = true → s.dev.heat.pend ≠ 0 →
    Completes (.heatParamApply dt) s fun t => t.dev.heat = s.dev.heatRegs s.dev.heat ∧ t.dev.ra.epoch = s.dev.ra.epoch + 1 ∧
      Logged s.dev t.dev 0x5E04 (toLE 1 s.dev.heat.pend ++ toLE 1 (s.dev.ra.epoch + 1) ++ toLE 8 s.dev.top.tick)) ∧
  (∀ (s : State) (bank dt : Nat), s.dev.hostOk = true → bank < 2 → s.dev.heat.ftabNext = none →
    Completes (.ftabCommit bank dt) s fun t => t.dev.heat.ftabNext.map Prod.fst = some bank ∧ bit t.dev.heat.pend 3 = true) ∧
  (∀ (s : State) (bank dt : Nat), s.dev.hostOk = true → bank < 2 → s.dev.heat.ftabNext.isSome = true →
    Completes (.ftabCommit bank dt) s fun t => t.dev.heat = s.dev.heat ∧ Logged s.dev t.dev 0x5E06 (toLE 1 bank))

/-! ### The metrology partition -/

/-- MET_POWER_ON, VDD_MET_LOSS, MET_BUILD_BEGIN, MET_BUILD_END, MET_EXPORT, MET_RECORD_EXPORT. -/
def Obligations.MetrologyBuildCommandsComplete : Prop :=
  (∀ (s : State) (nv : Option (List (List Byte) × Nat)) (rom : Bool) (otp : Option Nat) (dt : Nat), s.dev.met.on = false →
    Completes (.metPowerOn nv rom otp dt) s fun t => t.dev.met.on = true ∧ t.dev.met.boot = s.dev.met.boot + 1 ∧
      t.dev.met.sealOpen = false ∧ t.dev.met.pub = edPublic t.dev.met.key ∧ (s.dev.met.key ≠ [] → t.dev.met.key = s.dev.met.key) ∧
      (otp.isSome = true → bit t.dev.met.errs 3 = true ∧ t.dev.met.noSign = true)) ∧
  (∀ (s : State) (dt : Nat), Completes (.vddMetLoss dt) s fun t => t.dev.met.on = false ∧
    (t.dev.met.layers.map (·.num)) = s.dev.met.layers.map (·.num) ∧ (∀ l ∈ t.dev.met.layers, l.part = true ∧ l.acc = 0) ∧
    t.dev.met.nv = s.dev.met.nv) ∧
  (∀ (s : State) (x : Desc) (dt : Nat), s.dev.up = true → s.dev.front0 = some x → x.op = 0x0110 → s.dev.cmdSession x = true →
    s.dev.met.build.isOpen = false → Completes (.metBuildBegin dt) s fun t =>
      t.dev.met.build = { isOpen := true, num := s.dev.met.build.num + 1, tag := x.arg 15 12 } ∧ t.dev.ldg.buildOpen = true ∧
      Answers s.dev t.dev (s.dev.edgeStamp 1) x stOK []) ∧
  (∀ (s : State) (x : Desc) (dt : Nat), s.dev.up = true → s.dev.front0 = some x → x.op = 0x0111 → s.dev.cmdSession x = true →
    s.dev.met.build.isOpen = true → s.dev.met.build.endSeq = none → Completes (.metBuildEnd dt) s fun t =>
      (s.dev.met.layers ≠ [] → t.dev.met.build.isOpen = true ∧ t.dev.met.build.endBy = some x ∧ t.dev.host.begun = some x) ∧
      (s.dev.met.layers = [] → t.dev.met.build.isOpen = false)) ∧
  (∀ (s : State) (x : Desc) (w dt : Nat), s.dev.up = true → s.dev.front0 = some x → x.op = 0x0112 → s.dev.cmdSession x = true →
    s.dev.met.wrote = some w → Completes (.metExport dt) s fun t =>
      (x.arg 19 12 ≤ w → t.dev.met.again = some (x.arg 19 12, w, x) ∧ t.dev.host.begun = some x) ∧
      (w < x.arg 19 12 → Answers s.dev t.dev (s.dev.edgeStamp 1) x stOK [])) ∧
  (∀ (s : State) (q ofs dt : Nat) (bytes : List Byte), s.dev.up = true → s.dev.met.on = true → s.dev.met.nextCopy = some (q, false) →
    s.dev.met.recOf q = some bytes → s.dev.dataOfs 13 256 = some ofs → 0 < s.dev.ringFree 13 →
    Completes (.metRecordExport dt) s fun t => t.dev.met.exported = some q ∧
      Out.hostWrite (s.dev.rd64 (Reg.RING_n_DATA_LO 13) (Reg.RING_n_DATA_HI 13) + ofs) bytes false ∈ t.dev.host.waitOut ++ t.dev.outs)

/-- MET_SEAL_CHANGE, MET_SERVICE_POLL, MET_DISPLAY_UPDATE, MET_XTAL_STOP, MET_XTAL_RESTORED, MET_NV_RETRY. -/
def Obligations.MetrologyDeviceCommandsComplete : Prop :=
  (∀ (s : State) (o : Bool) (dt : Nat), s.dev.met.on = true → s.dev.met.sealOpen ≠ o → Completes (.metSealChange o dt) s fun t =>
    t.dev.met.sealOpen = o ∧ (s.dev.up = true → Logged s.dev t.dev 0xF204 (toLE 1 (b2n o)))) ∧
  (∀ (s : State) (img : List Byte) (p : MetParam) (dt : Nat), s.dev.met.on = true → s.dev.met.sealOpen = true →
    s.dev.met.checkImage img = (0, p) → Completes (.metServicePoll 1 img dt) s fun t =>
      t.dev.met.param = p ∧ t.dev.met.ec = s.dev.met.ec + 1 ∧ Out.i2c 0x2F [0] ∈ t.dev.outs ∧
      (s.dev.up = true → Logged s.dev t.dev 0xF203 (toLE 2 p.ver ++ toLE 2 (s.dev.met.ec + 1) ++ toLE 4 p.crc))) ∧
  (∀ (s : State) (img : List Byte) (dt : Nat), s.dev.met.on = true → s.dev.met.sealOpen = true → (s.dev.met.checkImage img).1 ≠ 0 →
    Completes (.metServicePoll 1 img dt) s fun t => t.dev.met = s.dev.met ∧
      t.dev.outs = .i2c 0x2F (toLE 1 (s.dev.met.checkImage img).1) :: s.dev.outs) ∧
  (∀ (s : State) (ack : Bool) (dt : Nat), s.dev.met.on = true → Completes (.metDisplayUpdate ack dt) s fun t =>
    Out.i2c 0x2E ((s.dev.after dt).metScreen ++ toLE 4 (crc32 (s.dev.after dt).metScreen)) ∈ t.dev.outs ∧
    t.dev.met.noAck = (if ack then 0 else s.dev.met.noAck + 1) ∧ (ack = true → t.dev.met.dispAbsent = false) ∧
    (ack = false → 2 ≤ s.dev.met.noAck → t.dev.met.dispAbsent = true)) ∧
  (∀ (s : State) (dt : Nat), s.dev.met.on = true → s.dev.met.xtal = true → Completes (.metXtalStop dt) s fun t =>
    t.dev.met.xtal = false ∧ bit t.dev.met.errs 1 = true) ∧
  (∀ (s : State) (dt : Nat), s.dev.met.on = true → s.dev.met.xtal = false → Completes (.metXtalRestored dt) s fun t =>
    t.dev.met.xtal = true ∧ bit t.dev.met.errs 1 = false) ∧
  (∀ (s : State) (w : Bool) (dt : Nat), s.dev.met.on = true → Completes (.metNvRetry w dt) s fun t =>
    t.dev.met.nvOk = w ∧ (w = true → bit t.dev.met.errs 4 = false))

/-! ### Calibration -/

/-- CAL_RUN, SELF_TEST, CAL_RUN_START, CALIBRATION_STRIKE, CAL_RUN_END, CAL_BANK_INTO_FORCE, TILE_UNPLUG. -/
def Obligations.CalibrationCommandsComplete : Prop :=
  (∀ (s : State) (x : Desc) (dt : Nat), s.dev.up = true → s.dev.front0 = some x → s.dev.cmdSession x = true →
    (x.op = 0x0030 → Completes (.calRun dt) s fun t =>
      (s.dev.top.mode = .dormant ∨ s.dev.top.mode = .safe →
        Answers s.dev t.dev (s.dev.edgeStamp 1) x stBAD_MODE (s.dev.plainDetail x) ∧ t.dev.cal = s.dev.cal) ∧
      (s.dev.top.mode ≠ .dormant → s.dev.top.mode ≠ .safe → t.dev.cal.reqs = s.dev.cal.reqs ++
        [{ desc := some x, selfTest := false, mask := x.arg 13 12, asked := x.arg 13 12, fit := x.arg 14 14, apply := x.arg 19 16,
           calib := s.dev.top.mode == .configure || s.dev.top.mode == .calibrate }])) ∧
    (x.op = 0x0031 → Completes (.selfTest dt) s fun t =>
      (s.dev.top.mode = .dormant ∨ s.dev.top.mode = .safe →
        Answers s.dev t.dev (s.dev.edgeStamp 1) x stBAD_MODE (s.dev.plainDetail x) ∧ t.dev.cal = s.dev.cal) ∧
      (s.dev.top.mode ≠ .dormant → s.dev.top.mode ≠ .safe → t.dev.cal.reqs = s.dev.cal.reqs ++
        [{ desc := some x, selfTest := true, mask := x.arg 13 12, asked := x.arg 13 12, fit := 0, apply := 0,
           calib := s.dev.top.mode == .configure || s.dev.top.mode == .calibrate,
           afterClose := s.dev.top.mode == .expose || s.dev.top.mode == .hold }]))) ∧
  (∀ (s : State) (r : CalReq) (dt : Nat), s.dev.up = true → s.dev.cal.run = none → s.dev.calNext = some r →
    r.selfTest = true ∨ s.dev.get Reg.CAL_WIDTH Fd.CAL_WIDTH_W_LO + 256 ≤ s.dev.get Reg.CAL_WIDTH Fd.CAL_WIDTH_W_HI →
    Completes (.calRunStart dt) s fun t => ∃ run, t.dev.cal.run = some run ∧ run.req = r ∧
      run.turn = decide (s.dev.top.mode ≠ .calibrate) ∧
      Logged s.dev t.dev 0x8A01 (toLE 1 (b2n r.selfTest) ++ toLE 1 (b2n run.turn) ++ toLE 2 run.mask)) ∧
  (∀ (s : State) (r : CalRun), s.dev.up = true → s.dev.cal.run = some r → s.dev.cal.edge = true → s.dev.saf.safe = false →
    s.dev.stg.lost = false → s.dev.parked r (s.dev.top.edgeAt >>> 32) = true →
    ({ s.dev with cal := { s.dev.cal with edge := false } }).strobeRise.1 = true →
    Completes .calibrationStrike s fun t => t.dev.top.isStrike = true ∧ t.dev.cal.edge = false ∧
      ∃ u, t.dev.cal.run = some u ∧ u.last = s.dev.top.tick) ∧
  (∀ (s : State) (r : CalRun) (dt : Nat), s.dev.up = true → s.dev.cal.run = some r → r.done = true →
    Completes (.calRunEnd dt) s fun t => t.dev.cal.run = none ∧
      ∃ mask total, Logged s.dev t.dev 0x8A02 (toLE 1 (b2n r.req.selfTest) ++ toLE 1 0 ++ toLE 2 mask ++ toLE 4 total)) ∧
  (∀ (s : State) (k dt : Nat), s.dev.up = true → s.dev.ra.sTick = some 0 → k < 16 → (s.dev.calTile k).early = true →
    Completes (.calBankIntoForce dt) s fun t => (t.dev.calTile k).bank = 1 - (s.dev.calTile k).bank ∧
      (t.dev.calTile k).early = false ∧ (t.dev.calTile k).pend = none) ∧
  (∀ (s : State) (k dt : Nat), s.dev.up = true → k < 16 → (s.dev.tile k).present = true → Completes (.tileUnplug k dt) s fun t =>
    ((s.dev.after dt).edgeNow = false → (t.dev.tile k).present = false ∧ (t.dev.tile k).st = .absent ∧ t.dev.cal.run = none ∧
      Logged s.dev t.dev 0x7102 (toLE 1 k ++ toLE 1 s.dev.top.mode.code)) ∧
    ((s.dev.after dt).edgeNow = true → (t.dev.tile k).plugLate = some false ∧ (t.dev.tile k).present = true ∧ t.dev.log = s.dev.log))

/-! ### Acknowledgements and the head tiles -/

/-- STATUS_RECORD, STRIKE_RECORD, ACK_EXPECT_TIMEOUT, ACK_LATE_TIMEOUT. -/
def Obligations.AcknowledgementsComplete : Prop :=
  (∀ (s : State) (k dt : Nat) (bs : List Byte), s.dev.up = true → k < 16 → Completes (.statusRecord k bs dt) s fun t =>
    (recordOk bs 2 28 = true → (t.dev.tile k).report = true ∧
      (t.dev.tile k).temps = (List.range 4).map fun i => toS 16 (fieldLE bs (8 + 2 * i + 1) (8 + 2 * i))) ∧
    (recordOk bs 2 28 = false → t.dev.head = s.dev.head ∧
      t.dev.rd (Reg.HEAD_t_LINK_ERR k) = sat 32 (s.dev.rd (Reg.HEAD_t_LINK_ERR k) + 1))) ∧
  (∀ (s : State) (k dt : Nat) (bs : List Byte) (poison : Bool) (x : Strike), s.dev.up = true → k < 16 → recordOk bs 1 100 = true →
    (s.dev.ra.strikes.find? fun x => x.tile == k && x.tick % 2 ^ 40 == (strikeRecOf bs).tick) = some x →
    Completes (.strikeRecord k bs poison dt) s fun t =>
      (x.failed k (strikeRecOf bs) = none →
        ∀ y, y ∈ t.dev.ra.strikes ↔ y ∈ s.dev.ra.strikes ∧ ¬(y.tile = x.tile ∧ y.tick = x.tick)) ∧
      (∀ c, x.failed k (strikeRecOf bs) = some c →
        t.dev.rd (Reg.HEAD_t_MISMATCH k) = sat 32 (s.dev.rd (Reg.HEAD_t_MISMATCH k) + 1) ∧
        Logged s.dev t.dev 0x7108 (tickDetail k x.tick ++ toLE 1 c) ∧ (x.cal = false → Wants t.dev (.hold 0x09)))) ∧
  (∀ (s : State) (k : Nat) (x : Strike), s.dev.up = true → k < 16 → (s.dev.ra.strikes.find? fun x => x.tile == k && !x.held) = some x →
    Completes (.ackExpectTimeout k) s fun t =>
      t.dev.clk = (s.dev.clk.reach (x.at_ + nsT x.expect)).cycles 1 ∧
      t.dev.rd (Reg.HEAD_t_MISS k) = sat 32 (s.dev.rd (Reg.HEAD_t_MISS k) + 1) ∧
      Logged s.dev t.dev 0x7107 (tickDetail k x.tick) ∧ (x.cal = false → Wants t.dev (.hold 0x09))) ∧
  (∀ (s : State) (k : Nat) (x : Strike), s.dev.up = true → k < 16 → (s.dev.ra.strikes.find? fun x => x.tile == k && !x.cal) = some x →
    Completes (.ackLateTimeout k) s fun t =>
      (∀ y ∈ t.dev.ra.strikes, ¬(y.tile = x.tile ∧ y.tick = x.tick)) ∧ Logged s.dev t.dev 0x710A (tickDetail k x.tick))

/-- TILE_PLUG, TILE_BRINGUP, ID_HEADER_READ, FACTORY_CAL_COPY_DONE, RETURN_LANE_WORD_LOCK, LINK_RECORD,
BRINGUP_STEP_TIMEOUT. -/
def Obligations.TileBringupCommandsComplete : Prop :=
  (∀ (s : State) (k dt : Nat), s.dev.up = true → k < 16 → (s.dev.tile k).present = false → Completes (.tilePlug k dt) s fun t =>
    ((s.dev.after dt).edgeNow = false → (t.dev.tile k).present = true ∧ (t.dev.tile k).identDue = true ∧
      Logged s.dev t.dev 0x7101 (toLE 1 k)) ∧
    ((s.dev.after dt).edgeNow = true → (t.dev.tile k).plugLate = some true ∧ (t.dev.tile k).present = false)) ∧
  (∀ (s : State) (k dt : Nat), s.dev.up = true → k < 16 → s.dev.top.mode = .configure → (s.dev.tile k).present = true →
    (s.dev.tile k).identDue = true → Completes (.tileBringup k dt) s fun t =>
      (t.dev.tile k).st = .ident ∧ (t.dev.tile k).step = 1 ∧ (t.dev.tile k).identDue = false) ∧
  (∀ (s : State) (k dt : Nat) (h : List Byte), s.dev.up = true → k < 16 → (s.dev.tile k).st = .ident → (s.dev.tile k).step = 1 →
    Completes (.idHeaderRead k (some h) dt) s fun t =>
      (hdrFail h = none → (t.dev.tile k).st = .training ∧ (t.dev.tile k).step = 3 ∧ (t.dev.tile k).s = fieldLE h 11 10 ∧
        (t.dev.tile k).serial = fieldLE h 23 16 ∧ (t.dev.tile k).calCrc = fieldLE h 47 44) ∧
      (∀ o, hdrFail h = some o → (t.dev.tile k).st = .refused ∧ (t.dev.tile k).refuse = o ∧
        Logged s.dev t.dev 0x7103 (toLE 1 k ++ toLE 1 o)) ∧
      (s.dev.saf.on = true → nth t.dev.saf.spacing k none = some (fieldLE h 11 10)) ∧
      (s.dev.met.on = true → nth t.dev.met.tser k 0 = fieldLE h 23 16)) ∧
  (∀ (s : State) (k dt : Nat) (b : List Byte), s.dev.up = true → k < 16 → (s.dev.tile k).copy = true → s.dev.hbmWaits = false → b.length = 491520 →
    crc32 b = (s.dev.tile k).calCrc → Completes (.factoryCalCopyDone k (some b) dt) s fun t =>
      (t.dev.tile k).copy = false ∧ (t.dev.tile k).hasCal = true ∧ Logged s.dev t.dev 0x710C (toLE 1 k)) ∧
  (∀ (s : State) (k dt : Nat), s.dev.up = true → k < 16 → (s.dev.tile k).st = .training → (s.dev.tile k).step = 3 →
    Completes (.returnLaneWordLock k dt) s fun t => (t.dev.tile k).step = 4 ∧ (t.dev.tile k).fails = 0 ∧
      Out.headTrain k 0xC3 ∈ t.dev.outs) ∧
  (∀ (s : State) (k dt : Nat) (bs : List Byte), s.dev.up = true → k < 16 → recordOk bs 3 16 = true → (s.dev.tile k).st = .training →
    4 ≤ (s.dev.tile k).step → (s.dev.tile k).step ≤ 6 → byteAt bs 1 = k → byteAt bs 3 = 1 →
    ((s.dev.tile k).step = 6 → fieldLE bs 7 4 = 0) → Completes (.linkRecord k bs dt) s fun t =>
      ((s.dev.tile k).step < 6 → (t.dev.tile k).step = (s.dev.tile k).step + 1 ∧ (t.dev.tile k).st = .training) ∧
      ((s.dev.tile k).step = 6 → (t.dev.tile k).st = .up ∧ Logged s.dev t.dev 0x7104 (toLE 1 k ++ toLE 1 3))) ∧
  (∀ (s : State) (k : Nat), s.dev.up = true → k < 16 → (s.dev.tile k).st = .ident ∨ (s.dev.tile k).st = .training →
    Completes (.bringupStepTimeout k false) s fun t =>
      t.dev.clk.up = max s.dev.clk.up ((s.dev.tile k).stepAt + bringupLimit (s.dev.tile k).step) ∧
      ((s.dev.tile k).fails < 2 → (t.dev.tile k).fails = (s.dev.tile k).fails + 1 ∧ (t.dev.tile k).st = (s.dev.tile k).st) ∧
      (2 ≤ (s.dev.tile k).fails → (t.dev.tile k).st = .degraded ∧
        Logged s.dev t.dev 0x7105 (toLE 1 k ++ toLE 1 (s.dev.tile k).step ++ toLE 1 (s.dev.tile k).rate))) ∧
  (∀ (s : State) (k : Nat), s.dev.up = true → k < 16 → (s.dev.tile k).copy = true →
    Completes (.bringupStepTimeout k true) s fun t =>
      t.dev.clk.up = max s.dev.clk.up ((s.dev.tile k).copyAt + bringupLimit 2) ∧
      ((s.dev.tile k).copyFails < 2 → (t.dev.tile k).copyFails = (s.dev.tile k).copyFails + 1 ∧ (t.dev.tile k).copy = true) ∧
      (2 ≤ (s.dev.tile k).copyFails → (t.dev.tile k).st = .degraded ∧ (t.dev.tile k).copy = false ∧
        Logged s.dev t.dev 0x7105 (toLE 1 k ++ toLE 1 2 ++ toLE 1 (s.dev.tile k).rate)))

/-- RETRAIN, REIDENT, TILE_LINK_FAULT, TILE_EYE_SCAN_START, EYE_RECORD, RETURN_LANE_SCAN_DONE, TILE_EYE_SCAN_TIMEOUT. -/
def Obligations.TileLinkCommandsComplete : Prop :=
  (∀ (s : State) (k dt : Nat), s.dev.hostOk = true → k < 16 → s.dev.top.mode = .configure ∨ s.dev.top.mode = .hold →
    (s.dev.tile k).st = .up ∨ (s.dev.tile k).st = .degraded ∨ (s.dev.tile k).st = .fault ∨ (s.dev.tile k).st = .training →
    Completes (.retrain k dt) s fun t => (t.dev.tile k).st = .training ∧ (t.dev.tile k).step = 3 ∧ (t.dev.tile k).speed = 0) ∧
  (∀ (s : State) (k dt : Nat), s.dev.hostOk = true → k < 16 → (s.dev.tile k).st = .refused → Completes (.reident k dt) s fun t =>
    (t.dev.tile k).identDue = true ∧ (t.dev.tile k).st = .refused) ∧
  (∀ (s : State) (k dt : Nat) (e : Bool), s.dev.up = true → k < 16 → (s.dev.tile k).st = .up →
    Completes (.tileLinkFault k e false dt) s (fun t => (t.dev.tile k).st = .fault ∧ (t.dev.tile k).eyeBusy = false ∧
      Logged s.dev t.dev 0x7106 (toLE 1 k ++ toLE 1 (b2n e))) ∧
    Completes (.tileLinkFault k e true dt) s (fun t => (t.dev.tile k).st = .leaving ∧ (t.dev.tile k).eyeBusy = false ∧
      t.dev.log = s.dev.log)) ∧
  (∀ (s : State) (k lane dwell dt : Nat), s.dev.hostOk = true → k < 16 → lane < 4 → dwell < 8 → (s.dev.tile k).st = .up →
    (s.dev.tile k).eyeBusy = false → Completes (.tileEyeScanStart k lane dwell dt) s fun t =>
      (t.dev.tile k).eyeBusy = true ∧ (t.dev.tile k).eyeLane = lane ∧ (t.dev.tile k).eyeAt = s.dev.clk.up + dt) ∧
  (∀ (s : State) (k dt : Nat) (bs : List Byte), s.dev.up = true → k < 16 → recordOk bs 4 16 = true → (s.dev.tile k).eyeBusy = true →
    bits (byteAt bs 1) 5 4 = (s.dev.tile k).eyeLane → (s.dev.tile k).eyeLane < 3 → byteAt bs 1 % 16 = k →
    Completes (.eyeRecord k bs dt) s fun t => (t.dev.tile k).eyeBusy = false ∧
      t.dev.rd (Reg.HEAD_t_EYE_l k (s.dev.tile k).eyeLane) =
        byteAt bs 2 * 2 ^ 24 + byteAt bs 3 * 2 ^ 16 + byteAt bs 4 * 256 + byteAt bs 5) ∧
  (∀ (s : State) (k dt : Nat) (m : List Nat), s.dev.up = true → k < 16 → (s.dev.tile k).eyeBusy = true → (s.dev.tile k).eyeLane = 3 →
    Completes (.returnLaneScanDone k m dt) s fun t => (t.dev.tile k).eyeBusy = false ∧
      t.dev.rd (Reg.HEAD_t_EYE_l k 3) =
        nth m 0 0 % 256 * 2 ^ 24 + nth m 1 0 % 256 * 2 ^ 16 + nth m 2 0 % 256 * 256 + nth m 3 0 % 256) ∧
  (∀ (s : State) (k : Nat), s.dev.up = true → k < 16 → (s.dev.tile k).eyeBusy = true → (s.dev.tile k).eyeLane < 3 →
    Completes (.tileEyeScanTimeout k) s fun t => (t.dev.tile k).eyeBusy = false ∧ (t.dev.tile k).eyeTmo = true ∧
      t.dev.clk.up = max s.dev.clk.up ((s.dev.tile k).eyeAt + 125000000))

/-! ### Channel programs -/

/-- CHANNEL_START, CHANNEL_DOORBELL, RESTART, ABORT. -/
def Obligations.ChannelStartsComplete : Prop :=
  (∀ (s : State) (dt : Nat) (x : Desc) (rest : List Desc), s.dev.up = true → s.dev.host.q14 = x :: rest → x.arg 12 12 < 32 →
    (s.dev.chan (x.arg 12 12)).st.running = false → Completes (.channelStart dt) s fun t =>
      t.dev.host.q14 = rest ∧ x ∈ t.dev.host.out14 ∧
      let y := t.dev.chan (x.arg 12 12)
      y.st = .run ∧ y.pc = x.arg 23 16 ∧ y.hbm = bit (x.arg 13 13) 0 ∧ y.sofs = 0 ∧ y.dofs = 0 ∧ y.act = List.replicate 4 false) ∧
  (∀ (s : State) (dt : Nat) (x : Desc) (rest : List Desc), s.dev.up = true → s.dev.host.q14 = x :: rest →
    (s.dev.chan (x.arg 12 12)).st.running = true → Completes (.channelStart dt) s fun t =>
      t.dev.host.q14 = rest ∧ t.dev.eng = s.dev.eng ∧ Answers s.dev t.dev (s.dev.edgeStamp 1) x stBUSY (s.dev.plainDetail x)) ∧
  (∀ (s : State) (o len dt : Nat), bellChannel o = none ∨ len ≠ 4 → Completes (.channelDoorbell o len dt) s fun t =>
    t.dev = s.dev.after dt) ∧
  (∀ (s : State) (c dt : Nat), s.dev.linkUp = true → c < 32 → Completes (.channelDoorbell (0xE100 + 4 * c) 4 dt) s fun t =>
    ((s.dev.chan c).st = .park → (t.dev.chan c).st = .run ∧ (t.dev.chan c).db = false) ∧
    ((s.dev.chan c).st = .run ∨ (s.dev.chan c).st = .wait → (t.dev.chan c).st = (s.dev.chan c).st ∧ (t.dev.chan c).db = true) ∧
    ((s.dev.chan c).st = .idle ∨ (s.dev.chan c).st = .stop → t.dev = s.dev.after dt)) ∧
  (∀ (s : State) (c dt : Nat), s.dev.hostOk = true → c < 32 → s.dev.flag Reg.CPE_BUSERR_STAT Fd.CPE_BUSERR_STAT_VALID = false →
    (s.dev.chan c).st = .stop → Completes (.restart c dt) s fun t =>
      let x := s.dev.chan c
      let y := t.dev.chan c
      y.st = .run ∧ y.pc = x.pc ∧ y.sofs = x.sofs ∧ y.dofs = x.dofs ∧ y.act = x.act ∧ y.lcnt = x.lcnt ∧
      ∀ u r p, x.saved = some (u, r, p) → u < 8 → (s.dev.unit u).owner = some c →
        (t.dev.unit u).r = r ∧ (t.dev.unit u).poison = p ∧ (t.dev.unit u).owner = some c) ∧
  (∀ (s : State) (c dt : Nat), s.dev.hostOk = true → c < 32 →
    s.dev.flag Reg.CPE_BUSERR_STAT Fd.CPE_BUSERR_STAT_VALID = true ∨ (s.dev.chan c).st ≠ .stop →
    Completes (.restart c dt) s fun t => t.dev = s.dev.after dt) ∧
  (∀ (s : State) (c dt : Nat), s.dev.hostOk = true → c < 32 → Completes (.abort c dt) s fun t =>
    (t.dev.chan c).st = .idle ∧ (t.dev.chan c).claim = none ∧
    (∀ u < 8, (s.dev.chan c).claim = some u → (t.dev.unit u).owner = none) ∧
    ((s.dev.chan c).st.running = true → Logged s.dev t.dev 0x2A01 (toLE 1 c ++ toLE 1 7 ++ toLE 8 (s.dev.chan c).pc)))

/-- END, LOOP, WAIT, WAIT_SATISFIED, WAIT_TIMEOUT, CPE_BUS_ERROR. -/
def Obligations.ChannelControlCompletes : Prop :=
  (∀ (s : State) (c word dt w : Nat) (d1 : Dev), Executes (s.dev.after dt) c 0 word w d1 → Completes (.end_ c word dt) s fun t =>
    let x := s.dev.chan c
    let y := t.dev.chan c
    y.pc = x.pc ∧ y.count = x.count + 1 ∧
    (x.db = true → y.st = .run ∧ y.db = false) ∧
    (x.db = false → y.st = .park ∧ y.reason = 0 ∧
      ∀ z, d1.host.out14.find? (fun z => z.arg 12 12 == c) = some z → x.poison = false →
        Answers d1 t.dev (d1.edgeStamp 1) z stOK (toLE 8 x.pc ++ toLE 1 (b2n x.hbm) ++ toLE 1 0 ++ toLE 1 c ++ toLE 1 0 ++
          toLE 4 (sat 32 (x.count + 1)) ++ toLE 8 x.written))) ∧
  (∀ (s : State) (c word dt w : Nat) (d1 : Dev), Executes (s.dev.after dt) c 4 word w d1 → bits w 31 8 ≠ 0 → bits w 47 32 ≠ 0 →
    Completes (.loop c word dt) s fun t =>
      let x := s.dev.chan c
      let y := t.dev.chan c
      let l := bits w 5 4
      let left := if nth x.act l false then nth x.lcnt l 0 else bits w 31 8 - 1
      y.st = .run ∧ y.count = x.count + 1 ∧
      (0 < left → y.pc = ofS 64 ((x.pc : Int) - 16 * (bits w 47 32 : Nat)) ∧ nth y.act l false = true ∧ nth y.lcnt l 0 = left - 1 ∧
        y.sofs = toS 64 (ofS 64 (x.sofs + toS 40 (bits w 87 48))) ∧ y.dofs = toS 64 (ofS 64 (x.dofs + toS 40 (bits w 127 88)))) ∧
      (left = 0 → y.pc = (x.pc + 16) % 2 ^ 64 ∧ nth y.act l false = false ∧
        y.sofs = toS 64 (ofS 64 (x.sofs - ((bits w 31 8 - 1 : Nat) : Int) * toS 40 (bits w 87 48))) ∧
        y.dofs = toS 64 (ofS 64 (x.dofs - ((bits w 31 8 - 1 : Nat) : Int) * toS 40 (bits w 127 88)))) ∧
      ∀ k < 4, k ≠ l → nth y.act k false = nth x.act k false ∧ nth y.lcnt k 0 = nth x.lcnt k 0) ∧
  (∀ (s : State) (c word dt w : Nat) (d1 : Dev), Executes (s.dev.after dt) c 5 word w d1 → bits w 7 4 ≤ 4 →
    Completes (.wait c word dt) s fun t => (t.dev.chan c).st = .wait ∧ (t.dev.chan c).pc = (s.dev.chan c).pc ∧
      ∃ v, (t.dev.chan c).wait = some v ∧ v.kind = bits w 7 4 ∧ v.struck = bit w 8 ∧ v.tmo = bits w 31 16 ∧ v.mask = bits w 47 32 ∧
        v.value = bits w 127 64 ∧ v.tick = s.dev.top.tick ∧ v.since = s.dev.clk.up + dt) ∧
  (∀ (s : State) (c word dt w : Nat) (d1 : Dev), Executes (s.dev.after dt) c 5 word w d1 → 4 < bits w 7 4 →
    Completes (.wait c word dt) s fun t => Stops d1 t.dev c 3) ∧
  (∀ (s : State) (c dt : Nat) (v : Wait), c < 32 → (s.dev.chan c).wait = some v → (s.dev.chan c).st = .wait →
    (s.dev.after dt).waitHolds c v = true → Completes (.waitSatisfied c dt) s fun t => GoesOn s.dev t.dev c ∧
      (t.dev.chan c).wait = none ∧ (t.dev.chan c).db = ((s.dev.chan c).db && v.kind != 4)) ∧
  (∀ (s : State) (c : Nat) (v : Wait), c < 32 → (s.dev.chan c).wait = some v → (s.dev.chan c).st = .wait → v.tmo ≠ 0 →
    (s.dev.reachUp (v.since + 1250000 * v.tmo + 1)).waitHolds c v = false → Completes (.waitTimeout c) s fun t => Stops s.dev t.dev c 4) ∧
  (∀ (s : State) (kind addr mask dt : Nat) (parts : List ChPart), s.dev.up = true → s.dev.chanRunning = true →
    kind < 4 ∨ (kind = 4 ∧ ((s.dev.after dt).hbmRead (rqChan 0) (addr / 16 * 16) 16).1.2 = true) →
    Completes (.cpeBusError kind addr mask parts dt) s fun t =>
      (∀ c < 32, (s.dev.chan c).st.running = true → (t.dev.chan c).st = .stop ∧ (t.dev.chan c).reason = 1) ∧
      Logged s.dev t.dev 0x2A02 (toLE 8 (addr % 2 ^ 64) ++ toLE 1 kind) ∧
      (s.dev.flag Reg.CPE_BUSERR_STAT Fd.CPE_BUSERR_STAT_VALID = false →
        t.dev.rd Reg.CPE_BUSERR_LO = addr % 2 ^ 32 ∧ t.dev.rd Reg.CPE_BUSERR_HI = addr / 2 ^ 32 % 2 ^ 32 ∧
        t.dev.rd Reg.CPE_BUSERR_STAT = 2 ^ 31 + kind ∧
        ∀ c < 32, bit (t.dev.rd Reg.CPE_BUSERR_CH) c = (bit mask c && (s.dev.chan c).st.running)) ∧
      (s.dev.flag Reg.CPE_BUSERR_STAT Fd.CPE_BUSERR_STAT_VALID = true →
        t.dev.rd Reg.CPE_BUSERR_LO = s.dev.rd Reg.CPE_BUSERR_LO ∧ t.dev.rd Reg.CPE_BUSERR_HI = s.dev.rd Reg.CPE_BUSERR_HI ∧
        t.dev.rd Reg.CPE_BUSERR_STAT = s.dev.rd Reg.CPE_BUSERR_STAT ∧ t.dev.rd Reg.CPE_BUSERR_CH = s.dev.rd Reg.CPE_BUSERR_CH))

/-- LINK: the program counter moves to ADDR in the space named by SPACE; accumulators and loop levels are unchanged. -/
def Obligations.LinkSetsTheProgramCounter : Prop :=
  ∀ (s : State) (c word dt w : Nat) (d1 : Dev), Executes (s.dev.after dt) c 7 word w d1 →
    (bits w 127 64 % 16 = 0 → Completes (.link c word dt) s fun t =>
      let x := s.dev.chan c
      let y := t.dev.chan c
      y.st = .run ∧ y.pc = bits w 127 64 ∧ y.hbm = bit w 4 ∧ y.count = x.count + 1 ∧ y.sofs = x.sofs ∧ y.dofs = x.dofs ∧
      y.act = x.act ∧ y.lcnt = x.lcnt) ∧
    (bits w 127 64 % 16 ≠ 0 → Completes (.link c word dt) s fun t => Stops d1 t.dev c 3 ∧
      (t.dev.chan c).sofs = (s.dev.chan c).sofs ∧ (t.dev.chan c).act = (s.dev.chan c).act)

/-- MOVE, FILL, SIGNAL: the channel moves its bytes and goes on. -/
def Obligations.ChannelMovesComplete : Prop :=
  (∀ (s : State) (c word dt w : Nat) (data : List Byte) (d1 : Dev), Executes (s.dev.after dt) c 1 word w d1 → bits w 43 12 = 0 →
    Completes (.move c word data dt) s fun t => GoesOn s.dev t.dev c ∧ t.dev.hbm = d1.hbm ∧ t.dev.outs = d1.outs) ∧
  (∀ (s : State) (c word dt w len : Nat) (data : List Byte) (d1 : Dev) (src dst : Bool × Int), Executes (s.dev.after dt) c 1 word w d1 →
    len = bits w 43 12 → 0 < len → src = s.dev.dataAddr c (bits w 84 44) (s.dev.chan c).sofs →
    dst = s.dev.dataAddr c (bits w 125 85) (s.dev.chan c).dofs →
    ¬ (src.1 = dst.1 ∧ src.2 < dst.2 ∧ dst.2 < src.2 + len ∧ dst.2 - src.2 < 128) → outOfRange src len = false →
    outOfRange dst len = false → (src.1 = false → s.dev.hostReads = true ∧ len ≤ data.length) →
    Completes (.move c word data dt) s fun t => GoesOn s.dev t.dev c ∧ (t.dev.chan c).written = (s.dev.chan c).written + len ∧
      (t.dev.chan c).sofs = (s.dev.chan c).sofs ∧ (t.dev.chan c).dofs = (s.dev.chan c).dofs ∧
      (src.1 = false → dst.1 = false → (dst.2 % ((2 ^ bits w 9 7 : Nat) : Int)).toNat + len ≤ 2 ^ bits w 9 7 →
        WritesHost t.dev dst.2.toNat (data.take len) false) ∧
      (src.1 = false → dst.1 = true → dst.2 % 16 = 0 → len = 16 → 4 ≤ bits w 9 7 →
        t.dev.hword (dst.2.toNat / 16) = cleanWord (ofLE (data.take 16)))) ∧
  (∀ (s : State) (c word dt w : Nat) (d1 : Dev), Executes (s.dev.after dt) c 2 word w d1 → bits w 43 12 = 0 →
    Completes (.fill c word dt) s fun t => GoesOn s.dev t.dev c ∧ t.dev.hbm = d1.hbm ∧ t.dev.outs = d1.outs) ∧
  (∀ (s : State) (c word dt w len : Nat) (d1 : Dev) (dst : Bool × Int), Executes (s.dev.after dt) c 2 word w d1 →
    len = bits w 43 12 → 0 < len → dst = s.dev.dataAddr c (bits w 125 85) (s.dev.chan c).dofs → outOfRange dst len = false →
    Completes (.fill c word dt) s fun t => GoesOn s.dev t.dev c ∧ (t.dev.chan c).written = (s.dev.chan c).written + len ∧
      (dst.1 = false → (dst.2 % ((2 ^ bits w 9 7 : Nat) : Int)).toNat + len ≤ 2 ^ bits w 9 7 →
        WritesHost t.dev dst.2.toNat ((List.range len).map fun (i : Nat) =>
          BitVec.ofNat 8 (bits w 75 44 >>> (8 * (((dst.2 + (i : Int)) % 4).toNat)))) false)) ∧
  (∀ (s : State) (c word dt w : Nat) (d1 : Dev) (a : Bool × Int), Executes (s.dev.after dt) c 6 word w d1 →
    a = s.dev.dataAddr c (bits w 47 7) (s.dev.chan c).sofs → (bit w 5 = true → a.2 % 8 = 0 ∧ outOfRange a 8 = false) →
    Completes (.signal c word dt) s fun t => GoesOn s.dev t.dev c ∧
      (bit w 4 = true → Logged d1 t.dev 0x2A10 (toLE 8 (bits w 127 64) ++ toLE 1 c)) ∧
      (bit w 5 = true → a.1 = false → WritesHost t.dev a.2.toNat (toLE 8 (bits w 127 64)) false))

/-- CHECK: the unit is fed; FINAL compares and releases it. -/
def Obligations.ChannelChecksComplete : Prop :=
  (∀ (s : State) (c word dt w u len : Nat) (data : List Byte) (d1 : Dev) (src : Bool × Int), Executes (s.dev.after dt) c 3 word w d1 →
    u = bits w 9 7 → len = bits w 43 12 → src = s.dev.dataAddr c (bits w 84 44) (s.dev.chan c).sofs → outOfRange src len = false →
    (bit w 10 = true ∨ (s.dev.chan c).claim = some u) → (s.dev.unit u).owner.any (· != c) = false →
    (len ≠ 0 → src.1 = false → s.dev.hostReads = true ∧ len ≤ data.length) → bit w 11 = false →
    Completes (.check c word data dt) s fun t => GoesOn s.dev t.dev c ∧ (t.dev.chan c).claim = some u ∧
      (bit w 10 = true → (t.dev.unit u).owner = some c) ∧
      (bit w 10 = false → src.1 = false → t.dev.unit u = (s.dev.unit u).feed ((data.take len).map (·, false))) ∧
      (bit w 10 = true → len = 0 → (t.dev.unit u).poison = false ∧
        (t.dev.unit u).r = s.dev.rd64 (Reg.CHK_u_INIT_LO u) (Reg.CHK_u_INIT_HI u) % 2 ^ (t.dev.unit u).width)) ∧
  (∀ (s : State) (c word dt w u len : Nat) (data : List Byte) (d1 : Dev) (src : Bool × Int) (y : ChkUnit),
    Executes (s.dev.after dt) c 3 word w d1 → u = bits w 9 7 → len = bits w 43 12 →
    src = s.dev.dataAddr c (bits w 84 44) (s.dev.chan c).sofs → src.1 = false → s.dev.hostReads = true → len ≤ data.length → bit w 10 = false →
    (s.dev.chan c).claim = some u → (s.dev.unit u).owner.any (· != c) = false → bit w 11 = true →
    y = (s.dev.unit u).feed ((data.take len).map (·, false)) →
    Completes (.check c word data dt) s fun t => (t.dev.chan c).claim = none ∧ (t.dev.unit u).owner = none ∧
      t.dev.rd (Reg.CHK_u_RES_LO u) = y.result % 2 ^ 32 ∧ t.dev.rd (Reg.CHK_u_RES_HI u) = y.result / 2 ^ 32 % 2 ^ 32 ∧
      (y.poison = false → y.result = y.expect → GoesOn s.dev t.dev c ∧ t.dev.flag (Reg.CHK_u_STAT u) Fd.CHK_u_STAT_MISMATCH = false) ∧
      (y.poison = true ∨ y.result ≠ y.expect → t.dev.flag (Reg.CHK_u_STAT u) Fd.CHK_u_STAT_MISMATCH = true ∧
        t.dev.flag (Reg.CHK_u_STAT u) Fd.CHK_u_STAT_POISON = y.poison ∧
        Logged s.dev t.dev 0x2B01 (toLE 1 u ++ toLE 1 c ++ toLE 1 (b2n y.poison) ++ toLE 1 0 ++ toLE 8 y.result) ∧
        (bit w 85 = false → GoesOn s.dev t.dev c) ∧
        (bit w 85 = true → (t.dev.chan c).st = .stop ∧ (t.dev.chan c).reason = 6))) ∧
  (∀ (s : State) (c word dt w u len : Nat) (data : List Byte) (d1 : Dev) (src : Bool × Int), Executes (s.dev.after dt) c 3 word w d1 →
    u = bits w 9 7 → len = bits w 43 12 → src = s.dev.dataAddr c (bits w 84 44) (s.dev.chan c).sofs → outOfRange src len = false →
    (bit w 10 = true ∨ (s.dev.chan c).claim = some u) → (s.dev.unit u).owner.any (· != c) = false →
    (len ≠ 0 → src.1 = false → s.dev.hostReads = true ∧ len ≤ data.length) → bit w 11 = true →
    Completes (.check c word data dt) s fun t => (t.dev.chan c).claim = none ∧ (t.dev.unit u).owner = none ∧
      (t.dev.chan c).count = (s.dev.chan c).count + 1 ∧
      (bit w 85 = false → GoesOn s.dev t.dev c) ∧
      (bit w 85 = true → GoesOn s.dev t.dev c ∨ ((t.dev.chan c).st = .stop ∧ (t.dev.chan c).reason = 6)))

/-! ### Cameras -/

/-- FRAME_START, FRAME_END, LINE_START, LINE_END, CSI_LONG_PACKET, MAP_COMPLETE. -/
def Obligations.CameraFramesComplete : Prop :=
  (∀ (s : State) (port vc dt c : Nat) (x : CamSet), s.dev.up = true → s.dev.top.mode ≠ .dormant → port < 4 → vc < 16 → c < 4 →
    (s.dev.cam c).frame = none → camPortOf c (s.dev.rd (Reg.CAM_c_CFG c)) = port → vcOf (s.dev.rd (Reg.CAM_c_VC c)) 0 = vc →
    (∀ y, (s.dev.cam c).startAt = some y → y.1 ≠ s.dev.clk.up + dt ∨ y.2 = port) →
    s.dev.camRuns c = true ∨ s.dev.camCounts = true → (s.dev.cam c).staged = none → (s.dev.cam c).active = some x →
    Completes (.frameStart port vc dt) s fun t => (t.dev.cam c).count = ((s.dev.cam c).count + 1) % 2 ^ 32 ∧
      (t.dev.cam c).fsAt = s.dev.clk.up + dt ∧ (t.dev.cam c).inCfg = s.dev.rd (Reg.CAM_c_CFG c) ∧
      (t.dev.cam c).inSize = s.dev.rd (Reg.CAM_c_SIZE c) ∧ (t.dev.cam c).inVc = s.dev.rd (Reg.CAM_c_VC c) ∧
      ∃ f, (t.dev.cam c).frame = some f ∧ f.port = port ∧ f.num = (s.dev.cam c).count ∧ f.set = x ∧
        f.width = bits (s.dev.rd (Reg.CAM_c_SIZE c)) 12 0 ∧ f.height = bits (s.dev.rd (Reg.CAM_c_SIZE c)) 28 16 ∧
        f.tf = ((s.dev.after dt).ns : Int) - (x.tofs : Int)) ∧
  (∀ (s : State) (port vc dt c : Nat), s.dev.up = true → s.dev.top.mode ≠ .dormant → port < 4 → vc < 16 → c < 4 →
    (s.dev.cam c).frame = none → camPortOf c (s.dev.rd (Reg.CAM_c_CFG c)) = port → vcOf (s.dev.rd (Reg.CAM_c_VC c)) 0 = vc →
    (∀ y, (s.dev.cam c).startAt = some y → y.1 ≠ s.dev.clk.up + dt ∨ y.2 = port) →
    (s.dev.cam c).staged = none → (s.dev.cam c).active = none →
    Completes (.frameStart port vc dt) s fun t => (t.dev.cam c).count = ((s.dev.cam c).count + 1) % 2 ^ 32 ∧
      (t.dev.cam c).frame = none ∧ t.dev.rd (Reg.CAM_c_DISCARD c) = sat 32 (s.dev.rd (Reg.CAM_c_DISCARD c) + 1)) ∧
  (∀ (s : State) (port vc dt c : Nat) (x : CamSet), s.dev.up = true → s.dev.top.mode ≠ .dormant → port < 4 → vc < 16 → c < 4 →
    (s.dev.cam c).frame = none → camPortOf c (s.dev.rd (Reg.CAM_c_CFG c)) = port → vcOf (s.dev.rd (Reg.CAM_c_VC c)) 0 = vc →
    (∀ y, (s.dev.cam c).startAt = some y → y.1 ≠ s.dev.clk.up + dt ∨ y.2 = port) →
    (s.dev.cam c).staged = some x → ((s.dev.cam c).count + 2 ^ 32 - x.tag) % 2 ^ 32 < 2 ^ 31 →
    Completes (.frameStart port vc dt) s fun t => (t.dev.cam c).active = some x ∧ (t.dev.cam c).staged = none ∧
      t.dev.rd (Reg.CAM_c_ACT_TAG c) = x.tag % 2 ^ 32 ∧
      (((s.dev.cam c).count + 2 ^ 32 - x.tag) % 2 ^ 32 ≠ 0 →
        Logged s.dev t.dev 0x6A06 (toLE 1 c ++ toLE 3 0 ++ toLE 4 x.tag ++ toLE 4 (((s.dev.cam c).count + 2 ^ 32 - x.tag) % 2 ^ 32)))) ∧
  (∀ (s : State) (port vc dt c e : Nat) (f : CamFrame), s.dev.up = true → s.dev.top.mode ≠ .dormant → port < 4 → vc < 16 → c < 4 →
    (s.dev.cam c).frame = some f → f.expOf port vc = some e → e < f.exps.length → (nth f.exps e {}).begun = false →
    Completes (.frameStart port vc dt) s fun t => (t.dev.cam c).count = (s.dev.cam c).count ∧
      ∃ g, (t.dev.cam c).frame = some g ∧ g.num = f.num ∧ (nth g.exps e {}).begun = true) ∧
  (∀ (s : State) (port vc dt c e : Nat) (f : CamFrame), s.dev.up = true → s.dev.top.mode ≠ .dormant → port < 4 → vc < 16 → c < 4 →
    (s.dev.cam c).frame = some f → f.expOf port vc = some e → e < f.exps.length → (nth f.exps e {}).begun = true →
    (nth f.exps e {}).ended = false → (s.dev.cam c).skips.contains (port, vc) = false →
    Completes (.frameEnd port vc dt) s fun t =>
      ((∀ k < f.exps.length, k ≠ e → (nth f.exps k {}).ended = true) → (t.dev.cam c).frame = none ∧
        (∃ m, (t.dev.cam c).waiting = (s.dev.cam c).waiting ++ [m] ∧ m.cam = c ∧ m.frame = f.num ∧ m.tf = ofS 64 f.tf) ∧
        t.dev.rd (Reg.CAM_c_FRAMES c) = sat 32 (s.dev.rd (Reg.CAM_c_FRAMES c) + 1)) ∧
      ((∃ k < f.exps.length, k ≠ e ∧ (nth f.exps k {}).ended = false) →
        ∃ g, (t.dev.cam c).frame = some g ∧ (nth g.exps e {}).ended = true) ∧
      ((nth f.exps e {}).lines.length < f.height →
        Logged s.dev t.dev 0x6A02 (toLE 1 c ++ toLE 1 e ++ toLE 2 (nth f.exps e {}).lines.length ++ toLE 4 f.num))) ∧
  (∀ (s : State) (port vc dt c e : Nat) (f : CamFrame), s.dev.up = true → s.dev.top.mode ≠ .dormant → port < 4 → vc < 16 → c < 4 →
    (s.dev.cam c).frame = some f → f.expOf port vc = some e → e < f.exps.length →
    (Completes (.lineStart port vc dt) s fun t => (∃ g, (t.dev.cam c).frame = some g ∧ (nth g.exps e {}).lineOpen = true) ∧
      t.dev.rd (Reg.CAM_c_PKT_ERR c) = (if (nth f.exps e {}).lineOpen then sat 32 (s.dev.rd (Reg.CAM_c_PKT_ERR c) + 1)
        else s.dev.rd (Reg.CAM_c_PKT_ERR c))) ∧
    (Completes (.lineEnd port vc dt) s fun t => (∃ g, (t.dev.cam c).frame = some g ∧ (nth g.exps e {}).lineOpen = false) ∧
      t.dev.rd (Reg.CAM_c_PKT_ERR c) = (if (nth f.exps e {}).lineOpen then s.dev.rd (Reg.CAM_c_PKT_ERR c)
        else sat 32 (s.dev.rd (Reg.CAM_c_PKT_ERR c) + 1)))) ∧
  (∀ (s : State) (port dt c e : Nat) (p : CsiPacket) (f : CamFrame), s.dev.up = true → s.dev.top.mode ≠ .dormant → port < 4 → c < 4 →
    (s.dev.cam c).frame = some f → f.port = port → f.expOf port p.vc = some e → e < f.exps.length → p.hdrOk = true →
    (s.dev.cam c).skips.contains (port, p.vc) = false → (nth f.exps e {}).begun = true → (nth f.exps e {}).ended = false →
    p.dtype ∈ [0x2B, 0x2C, 0x2D, 0x2E] → 10 + 2 * (p.dtype - 0x2B) = f.bits → (nth f.exps e {}).lines.length < f.height →
    p.wc = f.width * f.bits / 8 → p.crcOk = true → (nth f.exps 0 {}).lines.length ≤ (nth f.exps e {}).lines.length + 65 →
    Completes (.csiLongPacket port p dt) s fun t => ∃ g, (t.dev.cam c).frame = some g ∧
      (nth g.exps e {}).lines = (nth f.exps e {}).lines ++ [(p.pixels ++ List.replicate f.width 0).take f.width]) ∧
  (∀ (s : State) (c dt : Nat) (m : HMap) (r : List HMap), s.dev.up = true → c < 4 → (s.dev.cam c).waiting = m :: r →
    Completes (.mapComplete c dt) s fun t => (t.dev.cam c).waiting = r ∧
      t.dev.heat.maps = s.dev.heat.maps ++ [{ m with doneTick := s.dev.top.tick }])

/-- ASSIMILATION: the oldest complete map leaves the queue; the state of a covered cell moves towards its rise. -/
def Obligations.AssimilationCompletes : Prop :=
  (∀ (s : State) (dt : Nat) (m : HMap) (r : List HMap), s.dev.up = true → (s.dev.after dt).onEdge = true → s.dev.heatTurn 2 = true →
    s.dev.heat.maps = m :: r → Completes (.assimilation dt) s fun t => t.dev.heat.maps = r ∧
      (m.counted = true → t.dev.hbm = s.dev.hbm ∧ t.dev.rf = s.dev.rf) ∧
      (m.counted = false → m.sseq = none → t.dev.hbm = s.dev.hbm ∧
        t.dev.rd Reg.HEAT_ASSIM_SKIP = sat 32 (s.dev.rd Reg.HEAT_ASSIM_SKIP + m.cells.length))) ∧
  (∀ (s : State) (dt row col rise : Nat) (m : HMap) (r : List HMap) (hs : HStroke) (g : HSeg) (d1 : Dev), s.dev.up = true →
    (s.dev.after dt).onEdge = true → s.dev.heatTurn 2 = true → s.dev.heat.maps = m :: r → m.counted = false → m.cells = [(row, col, rise)] → m.sseq.bind s.dev.hstroke? = some hs →
    s.dev.hostWr = false → s.dev.tClose hs.layer = none → s.dev.ra.cur = m.sseq →
    pastEnd (s.dev.planeRow (hs.layer % 2) (hs.ofs + row)) 8448 = false → s.dev.planeRow (hs.layer % 2) (hs.ofs + row) % 16 = 0 → col < 4096 →
    (s.dev.after dt).readSeg rqHeat (hs.layer % 2) (hs.ofs + row) (col / 256) = (g, d1) → g.bad = false → g.h.any (·.2) = false →
    g.ltag = (hs.layer + 1) % 2 ^ 24 → g.tStrike = 0 ∨ gap (heatTime m.tf) g.tStrike = 0 →
    Completes (.assimilation dt) s fun t =>
      let w := if m.zeroW then 0 else min 32768 (nth s.dev.heat.wts m.cam 0)
      let now := heatTime (s.dev.after dt).ns
      let f := decayFactor (gap (heatTime m.tf) now) s.dev.heat.fast
      let old := (nth (s.dev.bringCur g now).h (col % 256) (0, false)).1
      let wi := s.dev.planeRow (hs.layer % 2) (hs.ofs + row) / 16 + 32 * (col / 256) + col % 256 / 8
      nth (states8 (t.dev.hword wi).data) (col % 8) 0 = assimilated old (decayed rise f) w % 65536)

/-- PQ_PUSH, PARAM_STAGING, CAMERA_TIMEOUT, CAMERA_DISABLE, CAMERA_ENABLE, CAMERA_PLUG, CAMERA_UNPLUG. -/
def Obligations.CameraControlCompletes : Prop :=
  (∀ (s : State) (c v dt tag : Nat), s.dev.hostOk = true → c < 4 → (s.dev.cam c).queue.length < 8 →
    tag = (if bit (s.dev.rd (Reg.CAM_c_PQ_HI c)) 31
      then ((s.dev.cam c).count + bits (s.dev.cam c).inCfg 2 0) % 2 ^ 32 else v % 2 ^ 32) →
    (∀ l, (s.dev.cam c).lastTag = some l → 0 < (tag + 2 ^ 32 - l) % 2 ^ 32 ∧ (tag + 2 ^ 32 - l) % 2 ^ 32 < 2 ^ 31) →
    Completes (.pqPush c v dt) s fun t => (t.dev.cam c).queue = (s.dev.cam c).queue ++
        [(bits (s.dev.rd (Reg.CAM_c_PQ_LO c)) 31 6 * 64 + bits (s.dev.rd (Reg.CAM_c_PQ_HI c)) 2 0 * 2 ^ 32, tag)] ∧
      (t.dev.cam c).lastTag = some tag ∧ (t.dev.cam c).rej = false ∧ t.dev.rd (Reg.CAM_c_PQ_TAG c) = tag) ∧
  (∀ (s : State) (c v dt : Nat), s.dev.hostOk = true → c < 4 → 8 ≤ (s.dev.cam c).queue.length → bit (s.dev.rd (Reg.CAM_c_PQ_HI c)) 31 = false →
    Completes (.pqPush c v dt) s fun t => (t.dev.cam c).queue = (s.dev.cam c).queue ∧ (t.dev.cam c).rej = true ∧
      Logged s.dev t.dev 0x6A07 (toLE 1 c ++ toLE 1 0 ++ toLE 2 0 ++ toLE 4 v)) ∧
  (∀ (s : State) (c dt addr tag : Nat) (q : List (Nat × Nat)) (y : CamSet), s.dev.up = true → c < 4 → (s.dev.cam c).queue = (addr, tag) :: q →
    (s.dev.cam c).staged = none → s.dev.hbmWaits = false → ((s.dev.after dt).readSet c addr tag).1 = some y →
    Completes (.paramStaging c dt) s fun t => (t.dev.cam c).staged = some y ∧ (t.dev.cam c).queue = (s.dev.cam c).queue) ∧
  (∀ (s : State) (c dt addr tag : Nat) (q : List (Nat × Nat)), s.dev.up = true → c < 4 → (s.dev.cam c).queue = (addr, tag) :: q →
    (s.dev.cam c).staged = none → s.dev.hbmWaits = false → ((s.dev.after dt).readSet c addr tag).1 = none →
    Completes (.paramStaging c dt) s fun t => (t.dev.cam c).staged = none ∧ (t.dev.cam c).queue = q ∧
      Logged s.dev t.dev 0x6A07 (toLE 1 c ++ toLE 1 2 ++ toLE 2 0 ++ toLE 4 tag)) ∧
  (∀ (s : State) (c : Nat), s.dev.up = true → c < 4 → s.dev.get (Reg.CAM_c_TIMEOUT c) Fd.CAM_c_TIMEOUT_US ≠ 0 → s.dev.expoOrHold = true →
    s.dev.camRuns c = true → Completes (.cameraTimeout c) s fun t => (t.dev.cam c).stop = 2 ∧ (t.dev.cam c).frame = none ∧
      (t.dev.cam c).stale = true ∧ Logged s.dev t.dev 0x6A05 (toLE 1 c ++ toLE 1 2)) ∧
  (∀ (s : State) (c dt : Nat), s.dev.hostOk = true → c < 4 → s.dev.flag (Reg.CAM_c_CTL c) Fd.CAM_c_CTL_EN = true →
    Completes (.cameraDisable c dt) s fun t => (t.dev.cam c).stop = 3 ∧ (t.dev.cam c).frame = none ∧
      t.dev.flag (Reg.CAM_c_CTL c) Fd.CAM_c_CTL_EN = false ∧ Logged s.dev t.dev 0x6A05 (toLE 1 c ++ toLE 1 3)) ∧
  (∀ (s : State) (c dt : Nat), s.dev.hostOk = true → c < 4 → s.dev.camRuns c = false →
    Completes (.cameraEnable c dt) s fun t => (t.dev.cam c).stop = 0 ∧ t.dev.flag (Reg.CAM_c_CTL c) Fd.CAM_c_CTL_EN = true ∧
      (t.dev.cam c).active = (s.dev.cam c).active ∧ (t.dev.cam c).queue = (s.dev.cam c).queue ∧ t.dev.camRuns c = true) ∧
  (∀ (s : State) (port dt : Nat), s.dev.up = true → port < 4 → (s.dev.cam port).plugged = false →
    Completes (.cameraPlug port dt) s fun t => (t.dev.cam port).plugged = true ∧ Logged s.dev t.dev 0xF404 (toLE 1 port)) ∧
  (∀ (s : State) (port dt : Nat), s.dev.up = true → port < 4 → (s.dev.cam port).plugged = true →
    Completes (.cameraUnplug port dt) s fun t => (t.dev.cam port).plugged = false ∧
      Logged s.dev t.dev 0xF405 (toLE 1 port ++ toLE 1 s.dev.top.mode.code) ∧
      ∀ c < 4, s.dev.camPort c = port → (t.dev.cam c).stop = 1 ∧ (t.dev.cam c).queue = [] ∧ (t.dev.cam c).staged = none ∧
        (t.dev.cam c).active = none ∧ (t.dev.cam c).frame = none ∧ t.dev.flag (Reg.CAM_c_CTL c) Fd.CAM_c_CTL_EN = false)

/-! ### The fabric -/

/-- KRY_PORT_ENABLE, KRY_PORT_DISABLE, KRY_RETRAIN, FAST_RETRAIN, KRY_IDLE_TIMEOUT, KRY_ACK_TIMEOUT, IDLE, DLY, DLY_PERIOD,
KRY_EYE_SCAN_START, KRY_EYE_SCAN_DONE. -/
def Obligations.FabricLinkCommandsComplete : Prop :=
  (∀ (s : State) (p dt : Nat), s.dev.up = true → p < 4 → (s.dev.port p).enNow = true →
    ((s.dev.port p).st = .down ∨ (s.dev.port p).st = .disabled) → Completes (.kryPortEnable p dt) s fun t =>
      (t.dev.port p).st = .training ∧ (t.dev.port p).step = 1 ∧ (t.dev.port p).rate = 0 ∧ (t.dev.port p).stepAt = s.dev.clk.up + dt ∧
      SendsFlit t.dev p (0xC3 + 7 * 2 ^ 12)) ∧
  (∀ (s : State) (p v dt : Nat), s.dev.hostOk = true → p < 4 → bit v 0 = false → Completes (.kryPortDisable p v dt) s fun t =>
    t.dev.flag (Reg.KRY_p_CTL p) Fd.KRY_p_CTL_EN = false ∧ t.dev.get (Reg.KRY_p_CTL p) Fd.KRY_p_CTL_MAXSPEED = bits v 3 2 ∧
    (t.dev.port p).ctlPend = true ∧ (t.dev.port p).st = (s.dev.port p).st) ∧
  (∀ (s : State) (p v dt : Nat), s.dev.hostOk = true → p < 4 → bit v 1 = true → Completes (.kryRetrain p v dt) s fun t =>
    (t.dev.port p).rtPend = true ∧ (t.dev.port p).ctlPend = true ∧ (t.dev.port p).st = (s.dev.port p).st ∧
    t.dev.flag (Reg.KRY_p_CTL p) Fd.KRY_p_CTL_EN = bit v 0) ∧
  (∀ (s : State) (p reason dt : Nat), s.dev.up = true → p < 4 → (s.dev.port p).st.live = true →
    (reason = 0 ∨ (reason = 1 ∧ (s.dev.port p).noisy (s.dev.clk.up + dt) = true)) →
    Completes (.fastRetrain p reason dt) s fun t => (t.dev.port p).st = .retraining ∧ (t.dev.port p).eye = none ∧
      (t.dev.port p).step = (match (s.dev.port p).rate with | 3 => 4 | 2 => 3 | _ => 1) ∧
      t.dev.rd (Reg.KRY_p_RETRAIN p) = sat 32 (s.dev.rd (Reg.KRY_p_RETRAIN p) + 1) ∧
      Logged s.dev t.dev 0xD103 (toLE 1 p ++ toLE 1 reason)) ∧
  (∀ (s : State) (p : Nat), s.dev.up = true → p < 4 → (s.dev.port p).st.live = true →
    Completes (.kryIdleTimeout p) s fun t => (t.dev.port p).st = .retraining ∧
      t.dev.clk.up = max s.dev.clk.up ((s.dev.port p).idleAt + 12500) ∧ Logged s.dev t.dev 0xD103 (toLE 1 p ++ toLE 1 3)) ∧
  (∀ (s : State) (p : Nat), s.dev.up = true → p < 4 → (s.dev.port p).st.live = true → (s.dev.port p).replay ≠ [] →
    Completes (.kryAckTimeout p) s fun t => t.dev.clk.up = max s.dev.clk.up ((s.dev.port p).ackAt + 2500) ∧
      (t.dev.port p).replay = (s.dev.port p).replay ∧ (∀ y ∈ (s.dev.port p).replay, Out.frame p y.1 y.2 (frameFlits y.2 y.1) ∈ t.dev.outs) ∧
      ((s.dev.port p).replays < 7 → (t.dev.port p).replays = (s.dev.port p).replays + 1 ∧ (t.dev.port p).st = (s.dev.port p).st) ∧
      (7 ≤ (s.dev.port p).replays → (t.dev.port p).st = .retraining ∧ Logged s.dev t.dev 0xD103 (toLE 1 p ++ toLE 1 2))) ∧
  (∀ (s : State) (p w dt : Nat), s.dev.up = true → p < 4 → (s.dev.port p).st.live = true → flitOk w 0x0F (2 ^ 16 - 2 ^ 10) = true →
    Completes (.idle p w dt) s fun t =>
      let v := if bit w 8 then 2 else 0
      t.dev.rd (Reg.KRY_p_LIMIT_v p v) = bits w 63 32 ∧ t.dev.rd (Reg.KRY_p_LIMIT_v p (v + 1)) = bits w 95 64 ∧
      (t.dev.port p).idleAt = s.dev.clk.up + dt ∧
      (bit w 9 = true → ∀ y ∈ (s.dev.port p).replay, 32768 ≤ (bits w 31 16 + 65536 - y.1) % 65536 → Out.frame p y.1 y.2 (frameFlits y.2 y.1) ∈ t.dev.outs) ∧
      (s.dev.kq = [] → bit w 9 = false → (t.dev.port p).replay =
        (s.dev.port p).replay.filter fun y => !decide ((bits w 31 16 + 65536 - y.1) % 65536 < 32768))) ∧
  (∀ (s : State) (p w dt : Nat), s.dev.up = true → p < 4 → (s.dev.port p).st.live = true → flitOk w 0x0F (2 ^ 16 - 2 ^ 10) = false →
    Completes (.idle p w dt) s fun t =>
      t.dev.port p = { s.dev.port p with errs := ((s.dev.clk.up + dt) :: (s.dev.port p).errs).take 17 } ∧
      t.dev.rd (Reg.KRY_p_CRCERR p) = sat 32 (s.dev.rd (Reg.KRY_p_CRCERR p) + 1)) ∧
  (∀ (s : State) (p w turn dt : Nat), s.dev.up = true → p < 4 → (s.dev.port p).st.live = true →
    flitOk w 0x99 (2 ^ 16 - 2 ^ 9 + (2 ^ 96 - 2 ^ 64)) = true →
    Completes (.dly p w turn dt) s fun t =>
      (bit w 8 = false → SendsFlit t.dev p (0x99 + 2 ^ 8 + bits w 31 16 * 2 ^ 16 +
        (((s.dev.after dt).after turn).clk.now - (s.dev.after dt).clk.now) / 2 ^ 28 % 2 ^ 32 * 2 ^ 32)) ∧
      ∀ t1, bit w 8 = true → getKey (bits w 31 16) (s.dev.port p).dlyAt = some t1 →
        let e : Int := (((s.dev.after dt).clk.now / 2 ^ 28 - t1 : Nat) : Int) - (bits w 63 32 : Nat)
        let l := (e :: (s.dev.port p).dly).take 16
        (t.dev.port p).dly = l ∧
          t.dev.rd (Reg.KRY_p_LINKDLY p) = (Int.fdiv (l.foldl (· + ·) 0 + l.length) (2 * l.length)).toNat % 2 ^ 32) ∧
  (∀ (s : State) (dt : Nat), s.dev.up = true → Completes (.dlyPeriod dt) s fun t => ∀ p < 4, (s.dev.port p).st.live = true →
    (t.dev.port p).dlySeq = ((s.dev.port p).dlySeq + 1) % 65536 ∧ SendsFlit t.dev p (0x99 + (s.dev.port p).dlySeq * 2 ^ 16)) ∧
  (∀ (s : State) (p v dt : Nat), s.dev.hostOk = true → p < 4 → bit v 0 = true → (s.dev.port p).st = .up → (s.dev.port p).eye = none →
    Completes (.kryEyeScanStart p v dt) s fun t => (t.dev.port p).eye = some (bits v 1 1, s.dev.clk.up + dt) ∧
      t.dev.flag (Reg.KRY_p_EYE_CTL p) Fd.KRY_p_EYE_CTL_BUSY = true ∧
      t.dev.get (Reg.KRY_p_EYE_CTL p) Fd.KRY_p_EYE_CTL_DWELL = bits v 5 3 ∧
      t.dev.get (Reg.KRY_p_EYE_CTL p) Fd.KRY_p_EYE_CTL_LANE = bits v 1 1) ∧
  (∀ (s : State) (p dt lane at0 : Nat) (m : List Nat), s.dev.up = true → p < 4 → (s.dev.port p).eye = some (lane, at0) → lane < 2 →
    Completes (.kryEyeScanDone p m dt) s fun t => (t.dev.port p).eye = none ∧
      t.dev.flag (Reg.KRY_p_EYE_CTL p) Fd.KRY_p_EYE_CTL_BUSY = false ∧
      t.dev.rd (Reg.KRY_p_EYE_l p lane) = nth m 0 0 % 256 * 2 ^ 24 + nth m 1 0 % 256 * 2 ^ 16 + nth m 2 0 % 256 * 256 + nth m 3 0 % 256 ∧
      Logged s.dev t.dev 0xD109 (toLE 1 p ++ toLE 1 lane ++ (List.range 4).flatMap fun i => toLE 1 (nth m i 0 % 256)))

/-- TRAIN, HELLO, KRY_BRINGUP_STEP_TIMEOUT, ENUM, ROOT_ENUM_START, KRY_CONFIRM, KRY_REENUM, KRY_ROUTE_COMMIT. -/
def Obligations.FabricBringupCommandsComplete : Prop :=
  (∀ (s : State) (p w dt : Nat), s.dev.up = true → p < 4 → flitOk w 0xC3 (2 ^ 96 - 2 ^ 15 + 0x0800) = true →
    bits w 9 8 = stepSpeed (s.dev.port p).step → bit w 10 = true →
    ((s.dev.port p).step = 1 ∨ (s.dev.port p).step = 3 ∨ (s.dev.port p).step = 4) →
    Completes (.train p w true dt) s fun t => (t.dev.port p).rate = stepSpeed (s.dev.port p).step + 1 ∧
      SendsFlit t.dev p (0xC3 + stepSpeed (s.dev.port p).step * 2 ^ 8 + 2 ^ 10 + 7 * 2 ^ 12) ∧
      ((s.dev.port p).st = .retraining → (t.dev.port p).step = 5) ∧
      ((s.dev.port p).st ≠ .retraining → (s.dev.port p).step = 1 → (t.dev.port p).step = 2 ∧ (t.dev.port p).speeds = bits w 14 12) ∧
      ((s.dev.port p).st ≠ .retraining → (s.dev.port p).step = 3 → s.dev.kCan p 2 = true → (t.dev.port p).step = 4) ∧
      ((s.dev.port p).st ≠ .retraining → (s.dev.port p).step = 4 → (t.dev.port p).st = .up ∧ (t.dev.port p).step = 0 ∧
        Logged s.dev t.dev 0xD101 (toLE 1 p ++ toLE 1 3))) ∧
  (∀ (s : State) (p w dt serial : Nat), s.dev.up = true → p < 4 → ((s.dev.port p).step = 2 ∨ (s.dev.port p).step = 5) →
    helloOk w = true → serial = bits w 95 32 → Completes (.hello p w dt) s fun t =>
      (t.dev.port p).nbr = some (serial, bit w 8, bit w 9) ∧
      t.dev.rd (Reg.KRY_p_NBR_LO p) = serial % 2 ^ 32 ∧ t.dev.rd (Reg.KRY_p_NBR_HI p) = serial / 2 ^ 32 ∧
      (bits w 11 10 ≠ (p + 2) % 4 → (t.dev.port p).st = .quarantined ∧ Logged s.dev t.dev 0xD104 (toLE 1 p ++ toLE 1 0 ++ toLE 8 serial)) ∧
      (bits w 11 10 = (p + 2) % 4 → s.dev.confirmed = true → (s.dev.port p).conf = none → (t.dev.port p).st = .quarantined ∧
        Logged s.dev t.dev 0xD104 (toLE 1 p ++ toLE 1 2 ++ toLE 8 serial)) ∧
      (bits w 11 10 = (p + 2) % 4 → s.dev.confirmed = true → (s.dev.port p).conf ≠ none → (s.dev.port p).conf ≠ some serial →
        (t.dev.port p).st = .quarantined ∧ Logged s.dev t.dev 0xD104 (toLE 1 p ++ toLE 1 1 ++ toLE 8 serial)) ∧
      (bits w 11 10 = (p + 2) % 4 → (s.dev.confirmed = false ∨ (s.dev.port p).conf = some serial) →
        ((s.dev.port p).step = 5 → (t.dev.port p).st.live = true ∧ (t.dev.port p).step = 0) ∧
        ((s.dev.port p).step = 2 → s.dev.kCan p 1 = true → (t.dev.port p).step = 3 ∧
          (newNeighbour (s.dev.port p) w serial = true → (t.dev.port p).replay = [] ∧ (t.dev.port p).fseqTx = 0 ∧
            ∀ v < 4, t.dev.rd (Reg.KRY_p_SENT_v p v) = 0 ∧ t.dev.rd (Reg.KRY_p_LIMIT_v p v) = bufOf v)))) ∧
  (∀ (s : State) (p : Nat), s.dev.up = true → p < 4 → (s.dev.port p).step ≠ 0 → Completes (.kryBringupStepTimeout p) s fun t =>
    let x := s.dev.port p
    t.dev.clk.up = max s.dev.clk.up (x.stepAt + stepLimit x) ∧
    (x.fails < 2 → (t.dev.port p).fails = x.fails + 1 ∧ (t.dev.port p).st = x.st ∧
      (t.dev.port p).step = (if x.st = .retraining then x.again else x.step)) ∧
    (2 ≤ x.fails → x.st = .retraining → (t.dev.port p).st = .training ∧ (t.dev.port p).step = 1) ∧
    (2 ≤ x.fails → x.st ≠ .retraining → (t.dev.port p).step = 0 ∧
      (t.dev.port p).st = (match x.rate with | 0 => .down | 3 => .up | _ => .degraded) ∧
      Logged s.dev t.dev 0xD102 (toLE 1 p ++ toLE 1 x.step ++ toLE 1 x.rate))) ∧
  (∀ (s : State) (p w dt me : Nat), s.dev.up = true → p < 4 → (s.dev.port p).st.live = true → enumOk w = true → bit w 28 = false →
    s.dev.isRoot = false → s.dev.idValid = false → (s.dev.gen = bits w 27 20 → s.dev.kry.rootSerial = bits w 95 32) →
    offeredId (bits w 19 8) p = some me → Completes (.enum p w dt) s fun t =>
      t.dev.idValid = true ∧ t.dev.id = me ∧ t.dev.gen = bits w 27 20 ∧ t.dev.kry.rootSerial = bits w 95 32 ∧
      (t.dev.port p).nbrId = bits w 19 8) ∧
  (∀ (s : State) (p w dt : Nat), s.dev.up = true → p < 4 → (s.dev.port p).st.live = true → enumOk w = true → bit w 28 = true →
    s.dev.idValid = true → s.dev.gen = bits w 27 20 → s.dev.kry.rootSerial = bits w 95 32 → Completes (.enum p w dt) s fun t =>
      t.dev.confirmed = true ∧ t.dev.id = s.dev.id) ∧
  (∀ (s : State) (p w dt me : Nat), s.dev.up = true → p < 4 → (s.dev.port p).st.live = true → enumOk w = true → bit w 28 = false →
    s.dev.isRoot = false → s.dev.idValid = true → s.dev.gen = bits w 27 20 → offeredId (bits w 19 8) p = some me → me ≠ s.dev.id →
    Completes (.enum p w dt) s fun t => t.dev.id = s.dev.id ∧ t.dev.flag Reg.KRY_ID Fd.KRY_ID_CONFLICT = true ∧
      Logged s.dev t.dev 0xD106 (toLE 2 s.dev.id ++ toLE 2 me ++ toLE 1 0 ++ toLE 1 p)) ∧
  (∀ (s : State) (dt : Nat), s.dev.up = true → s.dev.isRoot = true → s.dev.idValid = false →
    ((s.dev.kry.ports.any (·.nbr.isSome)) = true ∨ s.dev.kry.dormantAt + 250000000 ≤ s.dev.clk.up + dt) →
    Completes (.rootEnumStart dt) s fun t => t.dev.idValid = true ∧ t.dev.id = 0 ∧ t.dev.gen = 1 ∧ t.dev.confirmed = false ∧
      t.dev.kry.rootSerial = s.dev.top.otpSerial) ∧
  (∀ (s : State) (v dt : Nat), s.dev.hostOk = true → bit v 31 = true → s.dev.isRoot = true →
    (s.dev.top.mode = .dormant ∨ s.dev.top.mode = .configure) → s.dev.idValid = true → Completes (.kryConfirm v dt) s fun t =>
      let m := (s.dev.after dt).mapAll s.dev.kin.length
      t.dev.get Reg.KRY_ENUM Fd.KRY_ENUM_COUNT = bits v 12 0 ∧
      (bits v 12 0 = m.get Reg.KRY_MAP_COUNT Fd.KRY_MAP_COUNT_COUNT → m.flag Reg.KRY_MAP_COUNT Fd.KRY_MAP_COUNT_ANY_CONFLICT = false →
        t.dev.confirmed = true ∧ Logged s.dev t.dev 0xD107 (toLE 2 (bits v 12 0) ++ toLE 1 s.dev.gen)) ∧
      (bits v 12 0 ≠ m.get Reg.KRY_MAP_COUNT Fd.KRY_MAP_COUNT_COUNT ∨ m.flag Reg.KRY_MAP_COUNT Fd.KRY_MAP_COUNT_ANY_CONFLICT = true →
        t.dev.confirmed = s.dev.confirmed ∧ Logged s.dev t.dev 0xD106 (toLE 2 s.dev.id ++ toLE 2 0 ++ toLE 1 1))) ∧
  (∀ (s : State) (v dt : Nat), s.dev.hostOk = true → bit v 30 = true → s.dev.isRoot = true →
    (s.dev.top.mode = .dormant ∨ s.dev.top.mode = .configure) → Completes (.kryReenum v dt) s fun t =>
      t.dev.gen = (if (s.dev.gen + 1) % 256 = 0 then 1 else (s.dev.gen + 1) % 256) ∧ t.dev.id = 0 ∧ t.dev.idValid = true ∧
      t.dev.confirmed = false ∧ t.dev.kry.rootSerial = s.dev.top.otpSerial) ∧
  (∀ (s : State) (dt : Nat), s.dev.hostOk = true → Completes (.kryRouteCommit dt) s fun t =>
    t.dev.kry.route = (List.range 64).map fun i => s.dev.rd (Reg.KRY_ROUTE_i i))

/-- MAP_REPORT, RELAY_CMD, RELAY_CPL, RELAYED_EVENT, RELAYED_TELEMETRY, FRAME_FORWARD. -/
def Obligations.FabricFrameCommandsComplete : Prop :=
  (∀ (s : State) (dt i : Nat) (k : KIn), OldestIn s.dev 0x22 i k → s.dev.isRoot = true → k.frame.arg % 256 = s.dev.gen → k.frame.poison = false →
    Completes (.mapReport dt) s fun t =>
      let d := fieldLE k.frame.payload 9 8 % 4096
      t.dev.kin = s.dev.kin.eraseIdx i ∧ t.dev.rd (Reg.KRY_MAP_d_SER_LO d) = fieldLE k.frame.payload 3 0 ∧
      t.dev.rd (Reg.KRY_MAP_d_SER_HI d) = fieldLE k.frame.payload 7 4 ∧
      t.dev.flag (Reg.KRY_MAP_d_INFO d) Fd.KRY_MAP_d_INFO_VALID = true ∧
      (s.dev.flag (Reg.KRY_MAP_d_INFO d) Fd.KRY_MAP_d_INFO_VALID = true →
        t.dev.get Reg.KRY_MAP_COUNT Fd.KRY_MAP_COUNT_COUNT = s.dev.get Reg.KRY_MAP_COUNT Fd.KRY_MAP_COUNT_COUNT)) ∧
  (∀ (s : State) (dt i : Nat) (k : KIn), OldestIn s.dev 0x22 i k → (s.dev.isRoot = false ∨ k.frame.arg % 256 ≠ s.dev.gen ∨ k.frame.poison = true) →
    Completes (.mapReport dt) s fun t => t.dev.kin = s.dev.kin.eraseIdx i ∧ t.dev.rf = s.dev.rf) ∧
  (∀ (s : State) (dt i : Nat) (k : KIn) (x : Desc), OldestIn s.dev 0x20 i k →
    x = { ring := 0, count := 0, body := k.frame.payload, origin := some (k.frame.src, k.frame.arg % 65536) } →
    Completes (.relayCmd dt) s fun t =>
      (rejected x = none → t.dev.host.q0 = s.dev.host.q0 ++ [x] ∧ t.dev.kin = s.dev.kin.eraseIdx i) ∧
      (rejected x ≠ none → t.dev.host.q0 = s.dev.host.q0)) ∧
  (∀ (s : State) (dt i : Nat) (k : KIn) (r : Relay), OldestIn s.dev 0x21 i k →
    s.dev.host.relays.find? (fun r => r.num == k.frame.arg % 65536 && r.desc.target == k.frame.src) = some r → entriesOf r.desc.op = 1 →
    Completes (.relayCpl dt) s fun t => t.dev.kin = s.dev.kin.eraseIdx i ∧ t.dev.host.relays = s.dev.host.relays.erase r ∧
      PutsEntry s.dev t.dev 1 (relayedEntry r.desc (r.first.getD k.frame.payload))) ∧
  (∀ (s : State) (dt i : Nat) (k : KIn) (r : Relay), OldestIn s.dev 0x21 i k →
    s.dev.host.relays.find? (fun r => r.num == k.frame.arg % 65536 && r.desc.target == k.frame.src) = some r → entriesOf r.desc.op = 2 →
    Completes (.relayCpl dt) s fun t => t.dev.kin = s.dev.kin.eraseIdx i ∧
      (r.first = none → t.dev.rf = s.dev.rf ∧ ∃ y ∈ t.dev.host.relays, y.num = r.num ∧ y.first = some k.frame.payload) ∧
      (∀ b, r.first = some b → t.dev.host.relays = s.dev.host.relays.erase r ∧ PutsEntry s.dev t.dev 1 (relayedEntry r.desc b))) ∧
  (∀ (s : State) (dt i : Nat) (k : KIn), OldestIn s.dev 0x21 i k →
    s.dev.host.relays.find? (fun r => r.num == k.frame.arg % 65536 && r.desc.target == k.frame.src) = none →
    Completes (.relayCpl dt) s fun t => t.dev.kin = s.dev.kin.eraseIdx i ∧ t.dev.host.relays = s.dev.host.relays ∧
      t.dev.rd Reg.KRY_DISCARD = sat 32 (s.dev.rd Reg.KRY_DISCARD + 1)) ∧
  (∀ (s : State) (dt i : Nat) (k : KIn), OldestIn s.dev 0x30 i k → Completes (.relayedEvent dt) s fun t =>
    t.dev.kin = s.dev.kin.eraseIdx i ∧
    (0 < s.dev.ringFree 2 → (s.dev.ringSt 2).lostPend = 0 → PutsEntry s.dev t.dev 2 (copiedEntry k.frame.src k.frame.payload)) ∧
    (s.dev.ringFree 2 = 0 → t.dev.rd (Reg.RING_n_LOST 2) = sat 32 (s.dev.rd (Reg.RING_n_LOST 2) + 1) ∧ t.dev.outs = s.dev.outs)) ∧
  (∀ (s : State) (dt i : Nat) (k : KIn), OldestIn s.dev 0x31 i k → Completes (.relayedTelemetry dt) s fun t =>
    t.dev.kin = s.dev.kin.eraseIdx i ∧
    (0 < s.dev.ringFree 3 → PutsEntry s.dev t.dev 3 (copiedEntry k.frame.src k.frame.payload)) ∧
    (s.dev.ringFree 3 = 0 → t.dev.rd (Reg.RING_n_LOST 3) = sat 32 (s.dev.rd (Reg.RING_n_LOST 3) + 1) ∧ t.dev.outs = s.dev.outs)) ∧
  (∀ (s : State) (p dt : Nat) (flits : List (BitVec 128)) (f : KFrame), s.dev.up = true → p < 4 → (s.dev.port p).st.live = true →
    frameOf flits = some (f, ((s.dev.port p).fseqRx + 1) % 65536, false) → f.formatOk = true → f.hops ≤ 126 →
    (f.ptype = 0x22 ∨ s.dev.confirmed = true) →
    Completes (.frameForward p flits dt) s fun t => (t.dev.port p).fseqRx = ((s.dev.port p).fseqRx + 1) % 65536 ∧
      ((f.bcast = true ∨ s.dev.kRoute f.dst = none) → s.dev.kRefuses f = false →
        ∃ k ∈ t.dev.kin, k.port = p ∧ k.frame = f ∧ k.at_ = (s.dev.after dt).clk.now) ∧
      (∀ q, f.bcast = false → s.dev.kRoute f.dst = some q → q ≠ p → (s.dev.port q).st.dead = false →
        OnPort t.dev q { f with hops := f.hops + 1 })) ∧
  (∀ (s : State) (p dt : Nat) (flits : List (BitVec 128)), s.dev.up = true → p < 4 → (s.dev.port p).st.live = true → frameOf flits = none →
    Completes (.frameForward p flits dt) s fun t => (t.dev.port p).fseqRx = (s.dev.port p).fseqRx ∧ t.dev.kin = s.dev.kin ∧
      t.dev.rd (Reg.KRY_p_CRCERR p) = sat 32 (s.dev.rd (Reg.KRY_p_CRCERR p) + 1))

/-! ### Time and the Ethernet port -/

/-- TIME_MESSAGE, TIME_MESSAGE_SEND, SERVO_INTERVAL_EXPIRY, TIME_STEP_ARM, TIME_RATE_WRITE, TIME_SLEW_WRITE, SLEW_COMPLETE,
HOLDOVER_ENTER, HOLDOVER_TIMEOUT. -/
def Obligations.TimeCommandsComplete : Prop :=
  (∀ (s : State) (dt i : Nat) (k : KIn), OldestIn s.dev 0x02 i k → s.dev.timeRef = false → k.frame.poison = false →
    fieldLE k.frame.payload 21 20 ∉ s.dev.tim.seqs → Completes (.timeMessage dt) s fun t =>
      let b := k.frame.payload
      let o : Int := (k.at_ / 65536 : Nat) - (((fieldLE b 7 0 * 65536 + fieldLE b 11 8 / 65536 : Nat) : Int) + toS 64 (fieldLE b 19 12) +
        ((s.dev.rd (Reg.KRY_p_LINKDLY k.port) * 4096 : Nat) : Int))
      let p : Int := -(tdiv (o * 65536) (1000 * 2 ^ s.dev.syncLog : Nat))
      let freq := clampI (-2147483) 2147483 (s.dev.tim.freq + asr p (s.dev.get Reg.TIME_SYNC Fd.TIME_SYNC_KSHIFT))
      t.dev.kin = s.dev.kin.eraseIdx i ∧ t.dev.tim.lastSeq = some (fieldLE b 21 20) ∧
      t.dev.tim.seqs = (fieldLE b 21 20 :: s.dev.tim.seqs).take 32768 ∧ t.dev.tim.lastO = o ∧ t.dev.tim.missed = 0 ∧
      t.dev.tim.msgAt = s.dev.clk.up + dt ∧ t.dev.rd Reg.TIME_OFFSET = ofS 32 (clampI (-2147483648) 2147483647 o) ∧
      (o.natAbs ≤ 65536000 → s.dev.tim.lastEpoch = none ∨ s.dev.tim.lastEpoch = some (byteAt b 23) →
        t.dev.tim.freq = freq ∧ t.dev.clk.rate = clampI (-2147483) 2147483 (freq + p) ∧
        (65536 < o.natAbs → t.dev.tim.locked = false ∧ t.dev.tim.good = 0) ∧
        (o.natAbs ≤ 32768 → t.dev.tim.good = s.dev.tim.good + 1 ∧
          (15 ≤ s.dev.tim.good → s.dev.tim.locked = false → t.dev.tim.locked = true ∧
            Logged s.dev t.dev 0xE102 (toLES 4 o ++ toLE 2 (fieldLE b 21 20))))) ∧
      (65536000 < o.natAbs → s.dev.maySteps = true → t.dev.tim.stepArm = some (Int.fdiv (-o + 32768) 65536, true) ∧
        t.dev.tim.freq = 0 ∧ t.dev.tim.locked = false)) ∧
  (∀ (s : State) (dt i : Nat) (k : KIn), OldestIn s.dev 0x02 i k →
    (s.dev.timeRef = true ∨ k.frame.poison = true ∨ fieldLE k.frame.payload 21 20 ∈ s.dev.tim.seqs) →
    Completes (.timeMessage dt) s fun t => t.dev.kin = s.dev.kin.eraseIdx i ∧ t.dev.tim = s.dev.tim ∧ t.dev.rf = s.dev.rf) ∧
  (∀ (s : State), s.dev.up = true → s.dev.isRoot = true → s.dev.confirmed = true → s.dev.flag Reg.TIME_CTL Fd.TIME_CTL_SYNC_EN = true →
    Completes .timeMessageSend s fun t => t.dev.tim.seqOut = (s.dev.tim.seqOut + 1) % 65536 ∧ t.dev.tim.sentAt = some t.dev.clk.up ∧
      ∀ a, s.dev.tim.sentAt = some a → t.dev.clk.up = max s.dev.clk.up (a + 1250 * 2 ^ s.dev.syncLog)) ∧
  (∀ (s : State) (q : Nat), s.dev.up = true → s.dev.timeRef = false → s.dev.tim.lastSeq = some q → Completes .servoIntervalExpiry s fun t =>
    t.dev.tim.missed = s.dev.tim.missed + 1 ∧ t.dev.clk.rate = clampI (-2147483) 2147483 s.dev.tim.freq ∧
    t.dev.clk.up = max s.dev.clk.up (s.dev.tim.msgAt + (s.dev.tim.missed + 1) * 1250 * 2 ^ s.dev.syncLog) ∧
    (s.dev.tim.missed = 15 → s.dev.tim.locked = true → t.dev.tim.locked = false ∧
      Logged s.dev t.dev 0xE103 (toLES 4 s.dev.tim.lastO ++ toLE 2 q ++ toLE 1 1))) ∧
  (∀ (s : State) (v dt : Nat), s.dev.hostOk = true → Completes (.timeStepArm v dt) s fun t =>
    t.dev.rd Reg.TIME_STEP_HI = v % 2 ^ 32 ∧
    (s.dev.maySteps = true → t.dev.tim.stepArm = some (toS 64 (s.dev.rd Reg.TIME_STEP_LO + 2 ^ 32 * (v % 2 ^ 32)), false)) ∧
    (s.dev.maySteps = false → t.dev.tim = s.dev.tim)) ∧
  (∀ (s : State) (v dt : Nat), s.dev.hostOk = true → s.dev.timeRef = true → Completes (.timeRateWrite v dt) s fun t =>
    t.dev.tim.refRate = clampI (-2147483) 2147483 (toS 32 v) ∧ t.dev.tim.wroteAt = s.dev.clk.up + dt ∧ t.dev.tim.holdover = false ∧
    (s.dev.tim.slewLeft (s.dev.clk.up + dt) = 0 → t.dev.clk.rate = clampI (-2147483) 2147483 (toS 32 v)) ∧
    (s.dev.tim.holdover = true → Logged s.dev t.dev 0xE105 [])) ∧
  (∀ (s : State) (v dt : Nat), s.dev.hostOk = true → s.dev.timeRef = true → Completes (.timeSlewWrite v dt) s fun t =>
    t.dev.tim.slew = s.dev.tim.slewLeft (s.dev.clk.up + dt) + toS 32 v * (2 ^ 32 : Nat) ∧ t.dev.tim.slewAt = s.dev.clk.up + dt ∧
    t.dev.tim.holdover = false ∧ t.dev.clk.rate = clampI (-2147483) 2147483 s.dev.tim.refRate +
      (if 0 < t.dev.tim.slew then 429497 else if t.dev.tim.slew < 0 then -429497 else 0)) ∧
  (∀ (s : State), s.dev.up = true → s.dev.tim.slew ≠ 0 → Completes .slewComplete s fun t =>
    t.dev.tim.slew = 0 ∧
    t.dev.clk.up = max s.dev.clk.up (s.dev.tim.slewAt + (s.dev.tim.slew.natAbs * 5 + 4 * 429497 - 1) / (4 * 429497)) ∧
    (s.dev.timeRef = true → t.dev.clk.rate = clampI (-2147483) 2147483 s.dev.tim.refRate)) ∧
  (∀ (s : State) (v dt : Nat), s.dev.hostOk = true → bit v 0 = true → s.dev.timeRef = true → s.dev.tim.holdover = false →
    Completes (.holdoverEnter v dt) s fun t => t.dev.tim.holdover = true ∧ t.dev.flag Reg.TIME_CTL Fd.TIME_CTL_SYNC_EN = bit v 1 ∧
      Logged s.dev t.dev 0xE104 (toLE 1 0)) ∧
  (∀ (s : State), s.dev.up = true → s.dev.get Reg.TIME_SYNC Fd.TIME_SYNC_GM_TMO ≠ 0 → s.dev.timeRef = true → s.dev.tim.holdover = false →
    Completes .holdoverTimeout s fun t => t.dev.tim.holdover = true ∧ Logged s.dev t.dev 0xE104 (toLE 1 1) ∧
      t.dev.clk.up = max s.dev.clk.up (s.dev.tim.wroteAt + 1250000 * s.dev.get Reg.TIME_SYNC Fd.TIME_SYNC_GM_TMO + 1))

/-- ETH_TX_GO, ETH_LAUNCH, TXQ_POP, PTP_FRAME_RECEIVE, RX_SLOT_FREE. -/
def Obligations.EthernetCommandsComplete : Prop :=
  (∀ (s : State) (n v dt : Nat), s.dev.hostOk = true → n < 8 → bit v 31 = true → (s.dev.txSlot n).busy = false →
    s.dev.flag Reg.TIME_ETH_CTL Fd.TIME_ETH_CTL_EN = true → Completes (.ethTxGo n v dt) s fun t =>
      (bit v 27 = false → bit v 28 = false → (t.dev.txSlot n).busy = false ∧
        let b := ((List.range ((clampN 60 2044 (bits v 10 0) + 3) / 4)).flatMap fun i =>
          toLE 4 ((getKey i (s.dev.txSlot n).mem).getD 0).toNat).take (clampN 60 2044 (bits v 10 0))
        let ts := (s.dev.after dt).clk.now + s.dev.get Reg.TIME_ETH_LAT Fd.TIME_ETH_LAT_TXLAT * 2 ^ 28
        Out.eth (b ++ toLE 4 (crc32 b)) (ts / 2 ^ 32) (ts % 2 ^ 32) ∈ t.dev.outs) ∧
      (bit v 27 = true → (s.dev.after dt).clk.now < nsT (s.dev.launchAt n) → (t.dev.txSlot n).busy = true ∧
        (t.dev.txSlot n).order = s.dev.tim.nextOrder ∧ t.dev.tim.nextOrder = s.dev.tim.nextOrder + 1 ∧
        t.dev.flag (Reg.TIME_TXD_s_CTL n) Fd.TIME_TXD_s_CTL_BUSY = true) ∧
      (bit v 27 = true → nsT (s.dev.launchAt n) ≤ (s.dev.after dt).clk.now → (t.dev.txSlot n).busy = false ∧
        Logged s.dev t.dev 0xE107 (toLE 1 n ++ toLE 8 ((s.dev.after dt).ns - s.dev.launchAt n)))) ∧
  (∀ (s : State) (n : Nat), s.dev.up = true → n < 8 → (s.dev.txSlot n).busy = true →
    (∀ r < 8, (s.dev.txSlot r).busy = true → s.dev.launchAt n ≤ s.dev.launchAt r ∧
      (s.dev.launchAt r = s.dev.launchAt n → (s.dev.txSlot n).order ≤ (s.dev.txSlot r).order)) →
    Completes (.ethLaunch n) s fun t => (t.dev.txSlot n).busy = false ∧ nsT (s.dev.launchAt n) ≤ t.dev.clk.now ∧
      t.dev.flag (Reg.TIME_TXD_s_CTL n) Fd.TIME_TXD_s_CTL_BUSY = false) ∧
  (∀ (s : State) (dt : Nat), s.dev.linkUp = true → Completes (.txqPop dt) s fun t =>
    (s.dev.tim.txq = [] → t.dev.rd Reg.TIME_TXQ_HDR = 0 ∧ t.dev.outs = Out.readValue Reg.TIME_TXQ_HDR 0 :: s.dev.outs) ∧
    ∀ e rest, s.dev.tim.txq = e :: rest → t.dev.tim.txq = rest ∧ t.dev.rd Reg.TIME_TXQ_TS_FRAC = e.at_ % 2 ^ 32 ∧
      t.dev.rd Reg.TIME_TXQ_TS_LO = e.at_ / 2 ^ 32 % 2 ^ 32 ∧ t.dev.rd Reg.TIME_TXQ_TS_HI = e.at_ / 2 ^ 64 % 2 ^ 32 ∧
      t.dev.rd Reg.TIME_TXQ_HDR = (2 ^ 31 + b2n e.late * 2 ^ 30 + e.msgType * 2 ^ 24 + rest.length * 2 ^ 16 + e.seqId % 65536) % 2 ^ 32) ∧
  (∀ (s : State) (b : List Byte) (dt h : Nat) (x : Option Nat × Bool), ptpAt b = some (h, x) → s.dev.up = true →
    s.dev.flag Reg.TIME_ETH_CTL Fd.TIME_ETH_CTL_EN = true → Completes (.ptpFrameReceive b dt) s fun t =>
      (∀ r < 16, firstIdx 16 (fun r => (nth s.dev.tim.rx r none).isNone) = some r →
        (nth t.dev.tim.rx r none).map (·.bytes) = some b ∧ t.dev.rd (Reg.TIME_RXD_r_STAT r) = 2 ^ 31 + b.length % 2048 ∧
        Logged s.dev t.dev 0xE108 (toLE 1 r ++ toLE 2 b.length)) ∧
      (firstIdx 16 (fun r => (nth s.dev.tim.rx r none).isNone) = none → t.dev.tim = s.dev.tim ∧
        t.dev.get Reg.TIME_LATE Fd.TIME_LATE_RX_DROP = sat 16 (s.dev.get Reg.TIME_LATE Fd.TIME_LATE_RX_DROP + 1))) ∧
  (∀ (s : State) (r dt : Nat), s.dev.hostOk = true → r < 16 → Completes (.rxSlotFree r dt) s fun t =>
    nth t.dev.tim.rx r none = none ∧ t.dev.flag (Reg.TIME_RXD_r_STAT r) Fd.TIME_RXD_r_STAT_VALID = false ∧
    ∀ q < 16, q ≠ r → nth t.dev.tim.rx q none = nth s.dev.tim.rx q none)

/-! ### The panel and the trace port -/

/-- KEY_PRESS, KEY_RELEASE, GLEAN_ENABLE, GLEAN_DISABLE, GLEAN_PERIODIC_SAMPLE, PMC_SNAP, PMC_CLEAR. -/
def Obligations.PanelAndTraceCommandsComplete : Prop :=
  (∀ (s : State) (k dt : Nat), s.dev.up = true → k < 8 → bit s.dev.pnl.keys k = false → Completes (.keyPress k dt) s fun t =>
    let cfg := nth s.dev.pnl.cfg k 0
    bit t.dev.pnl.keys k = true ∧ bit (t.dev.rd Reg.PNL_PRESSED) k = true ∧
    Logged s.dev t.dev 0xF401 (toLE 1 k ++ toLE 1 (bits cfg 2 0) ++ toLE 1 (bits cfg 15 8) ++ toLE 1 s.dev.top.mode.code) ∧
    (bits cfg 2 0 = 1 → s.dev.expoOrHold = true → Wants t.dev (.hold 0x06)) ∧
    (bits cfg 2 0 = 2 → s.dev.top.mode = .hold → Wants t.dev (.resumeKey k)) ∧
    (bits cfg 2 0 = 2 → s.dev.top.mode ≠ .hold →
      Logged s.dev t.dev 0xF403 (toLE 1 k ++ toLE 1 s.dev.top.mode.code ++ toLE 1 s.dev.top.holdCause)) ∧
    (bits cfg 2 0 = 3 → s.dev.met.on = true → t.dev.met.showAt = some (s.dev.clk.up + dt))) ∧
  (∀ (s : State) (k dt : Nat), s.dev.up = true → k < 8 → bit s.dev.pnl.keys k = true → Completes (.keyRelease k dt) s fun t =>
    bit t.dev.pnl.keys k = false ∧ (∀ j < 8, j ≠ k → bit t.dev.pnl.keys j = bit s.dev.pnl.keys j) ∧ Logged s.dev t.dev 0xF402 (toLE 1 k)) ∧
  (∀ (s : State) (v dt : Nat), s.dev.linkUp = true → bit v 0 = true → s.dev.flag Reg.GLN_CTL Fd.GLN_CTL_EN = false →
    Completes (.gleanEnable v dt) s fun t => t.dev.rd Reg.GLN_CTL = bits v 9 4 * 16 + 1 ∧ t.dev.gln.seq = 0 ∧ t.dev.gln.sent = s.dev.gln.sent ∧
      t.dev.gln.buf = [] ∧ t.dev.gln.lostMark = false ∧ t.dev.gln.nextAt = s.dev.clk.up + dt + 16 * t.dev.glnRecord ∧
      t.dev.outs.length = s.dev.outs.length + 16) ∧
  (∀ (s : State) (v dt : Nat), s.dev.linkUp = true → bit v 0 = false → Completes (.gleanDisable v dt) s fun t =>
    t.dev.flag Reg.GLN_CTL Fd.GLN_CTL_EN = false ∧ t.dev.gln.buf = []) ∧
  (∀ (s : State), s.dev.up = true → s.dev.onEdge = true → s.dev.gln.sampledAt ≠ some s.dev.top.tick → Completes .gleanPeriodicSample s fun t =>
    t.dev.gln.sampledAt = some s.dev.top.tick ∧
    (s.dev.get Reg.GLN_PERIOD Fd.GLN_PERIOD_ARB ≠ 0 → s.dev.top.tick % (64 * s.dev.get Reg.GLN_PERIOD Fd.GLN_PERIOD_ARB) = 0 →
      (∀ a, (t.dev.arb a).grants = 0 ∧ (t.dev.arb a).promos = 0 ∧ (t.dev.arb a).cuts = 0) ∧
      (s.dev.flag Reg.GLN_CTL Fd.GLN_CTL_ARB_EN = true → s.dev.flag Reg.GLN_CTL Fd.GLN_CTL_EN = true →
        s.dev.flag Reg.GLN_CTL Fd.GLN_CTL_LDG_EN = false → s.dev.gln.buf = [] → s.dev.clk.up < s.dev.gln.nextAt →
        ∀ a < 20, ∃ g, t.dev.gln.buf[a]? = some g ∧ g.source = 0xB ∧ g.type = 4 ∧ g.code = a ∧
          g.det = padTo 12 (toLE 4 (sat 32 (s.dev.arb a).grants) ++ toLE 2 (sat 16 (s.dev.arb a).promos) ++ toLE 2 (sat 16 (s.dev.arb a).cuts))))) ∧
  (∀ (s : State) (v dt : Nat), s.dev.linkUp = true → bit v 2 = true → Completes (.pmcSnap v dt) s fun t =>
    t.dev.rd Reg.GLN_PMC_CTL = bits v 0 0 ∧ ∀ k < 8, t.dev.rd (Reg.GLN_PMC_k_LO k) = nth (s.dev.after dt).gln.pmc k 0 % 2 ^ 32 ∧
      t.dev.rd (Reg.GLN_PMC_k_HI k) = nth (s.dev.after dt).gln.pmc k 0 / 2 ^ 32 % 2 ^ 32) ∧
  (∀ (s : State) (v dt : Nat), s.dev.linkUp = true → bit v 1 = true → Completes (.pmcClear v dt) s fun t =>
    t.dev.rd Reg.GLN_PMC_CTL = bits v 0 0 ∧ ∀ k, nth t.dev.gln.pmc k 0 = 0)

/-! ### HBM3E -/

/-- HBM_REQUEST, HBM_AGE_PROMOTION, ARB_WITHDRAW, ARB_CUTOFF, ARB_COMMIT. -/
def Obligations.ArbitrationCommandsComplete : Prop :=
  (∀ (s : State) (dt : Nat) (q : HReq), s.dev.up = true → q.ok = true → s.dev.hbmc.pend = [] → s.dev.hbmc.remap = none →
    s.dev.flag (Reg.ARB_a_CTL q.arb) Fd.ARB_a_CTL_FREEZE = false → Completes (.hbmRequest [q] dt) s fun t => t.dev.hbmc.pend = [] ∧
      (t.dev.arb q.arb).last = q.req ∧ (t.dev.arb q.arb).grants = (s.dev.arb q.arb).grants + 1 ∧
      (q.write = none → Out.hbmData q.arb q.req ((s.dev.after dt).hbmRead ⟨q.arb, q.req, q.cls⟩ q.addr q.len).1.1
        ((s.dev.after dt).hbmRead ⟨q.arb, q.req, q.cls⟩ q.addr q.len).1.2 ∈ t.dev.outs) ∧
      (∀ bs, q.write = some bs → q.addr % 16 = 0 → q.len = 16 → pastEnd q.addr 16 = false →
        t.dev.hword (q.addr / 16) = cleanWord (ofLE bs))) ∧
  (∀ (s : State) (dt : Nat) (q : HReq), s.dev.up = true → q.ok = true → s.dev.hbmc.pend = [] →
    (s.dev.hbmc.remap.isSome = true ∨ s.dev.flag (Reg.ARB_a_CTL q.arb) Fd.ARB_a_CTL_FREEZE = true) →
    Completes (.hbmRequest [q] dt) s fun t => t.dev.hbm = s.dev.hbm ∧
      t.dev.hbmc.pend = [{ q, since := s.dev.clk.up + dt, last := s.dev.clk.up + dt }] ∧ Out.hint q.arb q.req 0 ∈ t.dev.outs) ∧
  (∀ (s : State) (a r lim : Nat) (p : Pend), s.dev.up = true → a < 20 →
    s.dev.hbmc.pend.find? (fun p => p.q.arb == a && p.q.req == r && !p.promoted) = some p → s.dev.ageLimit p.q.cls = some lim →
    Completes (.hbmAgePromotion a r) s fun t => { p with promoted := true } ∈ t.dev.hbmc.pend ∧
      t.dev.rd Reg.HBM_PROMO = sat 32 (s.dev.rd Reg.HBM_PROMO + 1) ∧ t.dev.clk.up = max s.dev.clk.up (p.since + lim + 1)) ∧
  (∀ (s : State) (dt : Nat) (p : Pend), s.dev.up = true → p.q.ok = true → s.dev.hbmc.pend = [p] → p.forgotten (s.dev.clk.up + dt) = false →
    s.dev.hbmc.remap = none → s.dev.flag (Reg.ARB_a_CTL p.q.arb) Fd.ARB_a_CTL_FREEZE = false →
    (Completes (.arbWithdraw p.q.arb p.q.req dt) s fun t => t.dev.hbmc.pend = [] ∧ t.dev.hbm = s.dev.hbm ∧
      t.dev.rd (Reg.ARB_a_WITHDRAW p.q.arb) = sat 32 (s.dev.rd (Reg.ARB_a_WITHDRAW p.q.arb) + 1)) ∧
    (Completes (.arbCutoff p.q.arb p.q.req dt) s fun t => t.dev.hbmc.pend = [] ∧ t.dev.hbm = s.dev.hbm ∧
      t.dev.rd (Reg.ARB_a_CUTOFF p.q.arb) = sat 32 (s.dev.rd (Reg.ARB_a_CUTOFF p.q.arb) + 1) ∧
      t.dev.rd (Reg.ARB_a_CUTOFF_ID p.q.arb) = 2 ^ 31 + 32 * b2n p.q.write.isSome + p.q.req ∧
      Logged s.dev t.dev 0xB101 (toLE 1 p.q.arb ++ toLE 1 p.q.req ++ toLE 1 (b2n p.q.write.isSome)))) ∧
  (∀ (s : State) (dt : Nat), s.dev.hostOk = true → Completes (.arbCommit dt) s fun t =>
    (∀ a < 20, t.dev.get (Reg.ARB_a_PRIO a) Fd.ARB_a_PRIO_ACT = s.dev.get (Reg.ARB_a_PRIO a) Fd.ARB_a_PRIO_PRIO) ∧
    (∀ i, nth t.dev.hbmc.cur i 0 = 0) ∧
    t.dev.get Reg.ARB_STAT Fd.ARB_STAT_COMMITS = (s.dev.get Reg.ARB_STAT Fd.ARB_STAT_COMMITS + 1) % 65536 ∧
    Logged s.dev t.dev 0xB102 (toLE 1 ((s.dev.get Reg.ARB_STAT Fd.ARB_STAT_COMMITS + 1) % 65536)))

/-- HBM_ORDER_WRITE, HBM_REMAP_DONE, HBM_REFRESH_DUE, STRIKE_CRITICAL_WINDOW_END, HBM_TEMP_CROSSING, SCRUB_READ. -/
def Obligations.MemoryControlCommandsComplete : Prop :=
  (∀ (s : State) (v dt : Nat), s.dev.hostOk = true → bits v 1 0 ≠ s.dev.get Reg.HBM_CFG Fd.HBM_CFG_ORDER →
    Completes (.hbmOrderWrite v dt) s fun t => t.dev.get Reg.HBM_CFG Fd.HBM_CFG_HIT_CAP = bits v 12 8 ∧
      (s.dev.top.mode = .configure → s.dev.chanRunning = false → s.dev.hbmc.remap = none →
        t.dev.get Reg.HBM_CFG Fd.HBM_CFG_ORDER = bits v 1 0 ∧ t.dev.flag Reg.HBM_STAT Fd.HBM_STAT_REMAP = true ∧
        t.dev.hbmc.remap = some (bits v 1 0, s.dev.clk.up + dt)) ∧
      ((s.dev.top.mode ≠ .configure ∨ s.dev.chanRunning = true ∨ s.dev.hbmc.remap ≠ none) →
        t.dev.get Reg.HBM_CFG Fd.HBM_CFG_ORDER = s.dev.get Reg.HBM_CFG Fd.HBM_CFG_ORDER ∧ t.dev.hbmc = s.dev.hbmc ∧
        Logged s.dev t.dev 0xA104 (toLE 1 (bits v 1 0) ++ toLE 1 s.dev.top.mode.code))) ∧
  (∀ (s : State) (dt o at0 : Nat), s.dev.hbmc.remap = some (o, at0) → Completes (.hbmRemapDone dt) s fun t =>
    t.dev.hbmc.remap = none ∧ t.dev.flag Reg.HBM_STAT Fd.HBM_STAT_REMAP = false ∧ t.dev.hbmOrder = min o 2 ∧
    (∀ wi, (t.dev.hword wi).written = false) ∧ Logged s.dev t.dev 0xA105 (toLE 1 (min o 2))) ∧
  (∀ (s : State) (p dt : Nat), p < 32 → s.dev.flag Reg.HBM_STAT Fd.HBM_STAT_TRAINED = true → Completes (.hbmRefreshDue p dt) s fun t =>
    let n := nth s.dev.hbmc.postponed p 0
    let busy := max (2 * (s.dev.clk.up + dt)) (nth s.dev.hbmc.busyTo p 0) + 1025
    (s.dev.windowed = false → nth t.dev.hbmc.busyTo p 0 = busy ∧ nth t.dev.hbmc.postponed p 0 = n) ∧
    (s.dev.windowed = true → n < 8 → (s.dev.after dt).clk.now < s.dev.windowEnd → nth t.dev.hbmc.postponed p 0 = n + 1 ∧
      nth t.dev.hbmc.busyTo p 0 = nth s.dev.hbmc.busyTo p 0) ∧
    (s.dev.windowed = true → 8 ≤ n → nth t.dev.hbmc.busyTo p 0 = busy ∧
      t.dev.rd Reg.HBM_REF_FORCED = sat 32 (s.dev.rd Reg.HBM_REF_FORCED + 1) ∧ Logged s.dev t.dev 0xA101 (toLE 1 p ++ toLE 1 n))) ∧
  (∀ (s : State), s.dev.up = true → Completes .strikeCriticalWindowEnd s fun t => s.dev.windowEnd ≤ t.dev.clk.now ∧
    t.dev.get Reg.HBM_REF_STAT Fd.HBM_REF_STAT_NOW = 0 ∧ ∀ p < 32, nth t.dev.hbmc.postponed p 0 = 0 ∧
      (nth s.dev.hbmc.postponed p 0 ≠ 0 →
        nth t.dev.hbmc.busyTo p 0 = max (2 * t.dev.clk.up) (nth s.dev.hbmc.busyTo p 0) + 1025 * nth s.dev.hbmc.postponed p 0)) ∧
  (∀ (s : State) (above : Bool) (temp dt : Nat), s.dev.up = true → s.dev.flag Reg.HBM_STAT Fd.HBM_STAT_HOT ≠ above →
    above = decide (85 < temp) → temp < 256 → Completes (.hbmTempCrossing above temp dt) s fun t =>
      t.dev.flag Reg.HBM_STAT Fd.HBM_STAT_HOT = above ∧ t.dev.get Reg.HBM_STAT Fd.HBM_STAT_TEMP = temp ∧
      Logged s.dev t.dev 0xA103 (toLE 1 (b2n above) ++ toLE 1 temp)) ∧
  (∀ (s : State) (p : Pass) (k ofs a size : Nat), s.dev.up = true → s.dev.top.mode ≠ .dormant → s.dev.hbmc.remap = none →
    s.dev.hbmc.pass = some p → p.region = some k → ofs = (if k = p.k then p.ofs else 0) → size = (nth p.regions k (0, 0)).2 →
    a = (nth p.regions k (0, 0)).1 + ofs → pastEnd a 64 = false →
    (∀ j < 4, (s.dev.hword (a / 16 + j)).written = true ∧ (s.dev.hword (a / 16 + j)).poison = false ∧
      cpcDecode (cpcSyndrome (s.dev.hword (a / 16 + j)).data (s.dev.hword (a / 16 + j)).chk) ≠ .uncorrectable) →
    Completes .scrubRead s fun t => t.dev.clk.up = max s.dev.clk.up p.next ∧
      (∀ j < 4, ∀ b < 128, cpcDecode (cpcSyndrome (s.dev.hword (a / 16 + j)).data (s.dev.hword (a / 16 + j)).chk) = .corrected b →
        t.dev.hword (a / 16 + j) = cleanWord ((s.dev.hword (a / 16 + j)).data ^^^ 2 ^ b)) ∧
      (ofs + 64 < size → ∃ x, t.dev.hbmc.pass = some x ∧ x.k = k ∧ x.ofs = ofs + 64 ∧ x.bad = p.bad))
end

