-- ==== Sys2Proof/Laws/Keyed.lean ====
section
/-!
SUPPORT. Keyed lists: what storing and removing a key does, and that both keep the canonical order.
-/
namespace Sys2Proof.Laws
open Sys2Proof Sys2Proof.Machine

/-! ### Keyed lists -/

/-- Every key of a list lies above k. -/
def keysAbove {α : Type} (k : Nat) (l : List (Nat × α)) : Prop := ∀ e ∈ l, k < e.1

/-- A keyed list whose keys rise, as a proposition. -/
def sorted {α : Type} (l : List (Nat × α)) : Prop := l.Pairwise fun a b => a.1 < b.1

theorem keysRise_iff {α : Type} (l : List (Nat × α)) : keysRise l = true ↔ sorted l := by
  induction l with
  | nil => simp [keysRise, sorted]
  | cons a r ih =>
    cases r with
    | nil => simp [keysRise, sorted]
    | cons b r =>
      simp only [keysRise, Bool.and_eq_true, decide_eq_true_eq, sorted, List.pairwise_cons] at ih ⊢
      constructor
      · intro ⟨h, k⟩
        have k' := ih.mp k
        refine ⟨fun e he => ?_, k'⟩
        rcases List.mem_cons.mp he with rfl | he
        · exact h
        · exact Nat.lt_trans h (k'.1 e he)
      · intro ⟨h, k⟩
        exact ⟨h b (by simp), ih.mpr k⟩

theorem mem_insKey {α : Type} {k : Nat} {v : α} {l : List (Nat × α)} {e : Nat × α} (h : e ∈ insKey k v l) :
    e = (k, v) ∨ (e ∈ l ∧ e.1 ≠ k) ∨ (e ∈ l ∧ ¬ sorted l) ∨ e ∈ l := by
  induction l with
  | nil => simp [insKey] at h; exact .inl h
  | cons a r ih =>
    simp only [insKey] at h
    split at h
    · rcases List.mem_cons.mp h with h | h
      · exact .inl h
      · exact .inr (.inr (.inr h))
    · split at h
      · rcases List.mem_cons.mp h with h | h
        · exact .inl h
        · exact .inr (.inr (.inr (List.mem_cons_of_mem _ h)))
      · rcases List.mem_cons.mp h with h | h
        · exact .inr (.inr (.inr (by simp [h])))
        · rcases ih h with h | h | h | h
          · exact .inl h
          · exact .inr (.inr (.inr (List.mem_cons_of_mem _ h.1)))
          · exact .inr (.inr (.inr (List.mem_cons_of_mem _ h.1)))
          · exact .inr (.inr (.inr (List.mem_cons_of_mem _ h)))

theorem insKey_mem {α : Type} {k : Nat} {v : α} {l : List (Nat × α)} {e : Nat × α} (h : e ∈ insKey k v l) :
    e = (k, v) ∨ e ∈ l := by
  rcases mem_insKey h with h | h | h | h
  · exact .inl h
  · exact .inr h.1
  · exact .inr h.1
  · exact .inr h

theorem delKey_mem {α : Type} {k : Nat} {l : List (Nat × α)} {e : Nat × α} (h : e ∈ delKey k l) : e ∈ l := by
  induction l with
  | nil => simp [delKey] at h
  | cons a r ih =>
    simp only [delKey] at h
    split at h
    · exact List.mem_cons_of_mem _ (ih h)
    · rcases List.mem_cons.mp h with h | h
      · simp [h]
      · exact List.mem_cons_of_mem _ (ih h)

theorem insKey_sorted {α : Type} {k : Nat} {v : α} {l : List (Nat × α)} (h : sorted l) : sorted (insKey k v l) := by
  induction l with
  | nil => simp [insKey, sorted]
  | cons a r ih =>
    obtain ⟨ka, va⟩ := a
    have hr : sorted r := (List.pairwise_cons.mp h).2
    have ha := (List.pairwise_cons.mp h).1
    simp only [insKey]
    split
    · rename_i hk
      refine List.pairwise_cons.mpr ⟨fun e he => ?_, h⟩
      rcases List.mem_cons.mp he with rfl | he
      · exact hk
      · exact Nat.lt_trans hk (ha e he)
    · split
      · rename_i hk
        subst hk
        exact List.pairwise_cons.mpr ⟨fun e he => ha e he, hr⟩
      · rename_i h1 h2
        refine List.pairwise_cons.mpr ⟨fun e he => ?_, ih hr⟩
        rcases insKey_mem he with rfl | he
        · show ka < k; omega
        · exact ha e he

theorem delKey_sorted {α : Type} {k : Nat} {l : List (Nat × α)} (h : sorted l) : sorted (delKey k l) := by
  induction l with
  | nil => simp [delKey, sorted]
  | cons a r ih =>
    have hr : sorted r := (List.pairwise_cons.mp h).2
    have ha := (List.pairwise_cons.mp h).1
    simp only [delKey]
    split
    · exact ih hr
    · exact List.pairwise_cons.mpr ⟨fun e he => ha e (delKey_mem he), ih hr⟩

/-- A value stored under a key reads back, in any list. -/
theorem getKey_insKey_self {α : Type} (k : Nat) (v : α) (l : List (Nat × α)) : getKey k (insKey k v l) = some v := by
  induction l with
  | nil => simp [insKey, getKey]
  | cons a r ih =>
    simp only [insKey]
    split
    · simp [getKey]
    · split
      · simp [getKey]
      · rename_i h1 h2
        simp [getKey, h2, ih]

/-- A stored value leaves every other key alone, in any list. -/
theorem getKey_insKey_other {α : Type} {k j : Nat} (v : α) (l : List (Nat × α)) (h : j ≠ k) :
    getKey j (insKey k v l) = getKey j l := by
  induction l with
  | nil => simp [insKey, getKey, h]
  | cons a r ih =>
    obtain ⟨ka, va⟩ := a
    simp only [insKey]
    split
    · simp [getKey, h]
    · split
      · rename_i hk
        subst hk
        simp [getKey, h]
      · simp only [getKey, ih]

/-- A removed key is gone, in any list. -/
theorem getKey_delKey_self {α : Type} (k : Nat) (l : List (Nat × α)) : getKey k (delKey k l) = none := by
  induction l with
  | nil => rfl
  | cons a r ih =>
    simp only [delKey]
    split
    · exact ih
    · rename_i hk
      simp [getKey, hk, ih]

/-- A filter that drops a key leaves nothing under it. -/
theorem getKey_filter_drop {α : Type} {k : Nat} {p : Nat × α → Bool} (h : ∀ v, p (k, v) = false) (l : List (Nat × α)) :
    getKey k (l.filter p) = none := by
  induction l with
  | nil => rfl
  | cons a r ih =>
    obtain ⟨ka, va⟩ := a
    rw [List.filter_cons]
    split
    · rename_i hp
      have hk : k ≠ ka := fun e => by subst e; rw [h] at hp; cases hp
      simp [getKey, hk, ih]
    · exact ih

/-- A filter that keeps a key leaves what is under it. -/
theorem getKey_filter_keep {α : Type} {k : Nat} {p : Nat × α → Bool} (h : ∀ v, p (k, v) = true) (l : List (Nat × α)) :
    getKey k (l.filter p) = getKey k l := by
  induction l with
  | nil => rfl
  | cons a r ih =>
    obtain ⟨ka, va⟩ := a
    rw [List.filter_cons]
    split
    · simp [getKey, ih]
    · rename_i hp
      have hk : k ≠ ka := fun e => by subst e; exact hp (h _)
      simp [getKey, hk, ih]

/-- Removal leaves every other key alone, in any list. -/
theorem getKey_delKey_other {α : Type} {k j : Nat} (l : List (Nat × α)) (h : j ≠ k) : getKey j (delKey k l) = getKey j l := by
  induction l with
  | nil => rfl
  | cons a r ih =>
    obtain ⟨ka, va⟩ := a
    simp only [delKey]
    split
    · rename_i hk
      subst hk
      simp [getKey, h, ih]
    · simp only [getKey, ih]

end Sys2Proof.Laws
end

