-- ==== Sys2Proof/Laws/Canon.lean ====
section
/-!
SUPPORT. The canonical forms of the register file and of HBM3E, and what keeps them.
-/
namespace Sys2Proof.Laws
open Sys2Proof Sys2Proof.Machine

/-- A part of a keyed list keeps the register file's form. -/
theorem rfOk_filter {l : List (Nat × Word)} (p : Nat × Word → Bool) (h : rfOk l) : rfOk (l.filter p) :=
  ⟨(keysRise_iff _).mpr (((keysRise_iff _).mp h.1).sublist List.filter_sublist),
    fun e he => h.2 e (List.mem_filter.mp he).1⟩

theorem rfOk_nil : rfOk [] := ⟨rfl, fun _ he => absurd he (List.not_mem_nil)⟩
theorem hbmOk_nil : hbmOk [] := ⟨rfl, fun _ he => absurd he (List.not_mem_nil)⟩

theorem rfOk_wr {l : List (Nat × Word)} (a v : Nat) (h : rfOk l) :
    rfOk (if v % 2 ^ 32 = resetOf a then delKey a l else insKey a (BitVec.ofNat 32 v) l) := by
  have hs := (keysRise_iff _).mp h.1
  split
  · exact ⟨(keysRise_iff _).mpr (delKey_sorted hs), fun e he => h.2 e (delKey_mem he)⟩
  · rename_i hv
    refine ⟨(keysRise_iff _).mpr (insKey_sorted hs), fun e he => ?_⟩
    rcases insKey_mem he with rfl | he
    · simpa [BitVec.toNat_ofNat] using hv
    · exact h.2 e he

theorem hbmOk_del {l : List (Nat × HWord)} {a : Nat} (h : hbmOk l) : hbmOk (delKey a l) :=
  ⟨(keysRise_iff _).mpr (delKey_sorted ((keysRise_iff _).mp h.1)), fun e he => h.2 e (delKey_mem he)⟩

theorem hbmOk_ins {l : List (Nat × HWord)} {a : Nat} {w : HWord} (hw : w ≠ {}) (h : hbmOk l) : hbmOk (insKey a w l) := by
  refine ⟨(keysRise_iff _).mpr (insKey_sorted ((keysRise_iff _).mp h.1)), fun e he => ?_⟩
  rcases insKey_mem he with rfl | he
  · exact hw
  · exact h.2 e he

end Sys2Proof.Laws
end

