-- ==== Sys2Proof/Laws/Ops.lean ====
section
/-!
SUPPORT. What the shared operations do, said once: registers, little-endian bytes, CRCs, tables of like things, HBM3E words.
-/
namespace Sys2Proof.Laws
open Sys2Proof Sys2Proof.Machine

/-! ### Registers -/

theorem rd_wr_self (d : Dev) (a v : Nat) : (d.wr a v).rd a = v % 2 ^ 32 := by
  simp only [Dev.wr, Dev.rd]
  by_cases h : v % 2 ^ 32 = resetOf a
  · rw [if_pos h, getKey_delKey_self]; exact h.symm
  · rw [if_neg h, getKey_insKey_self]; simp

theorem rd_wr_other (d : Dev) {a b : Nat} (v : Nat) (h : b ≠ a) : (d.wr a v).rd b = d.rd b := by
  simp only [Dev.wr, Dev.rd]
  by_cases k : v % 2 ^ 32 = resetOf a
  · rw [if_pos k, getKey_delKey_other _ h]
  · rw [if_neg k, getKey_insKey_other _ _ h]

/-- A write of a register changes the register file alone. -/
theorem wr_frame (d : Dev) (a v : Nat) : ∃ l, d.wr a v = { d with rf := l } := ⟨_, rfl⟩

theorem rd_set_other (d : Dev) {a b : Nat} (f : Fld) (x : Nat) (h : b ≠ a) : (d.set a f x).rd b = d.rd b :=
  rd_wr_other d _ h

theorem set_frame (d : Dev) (a : Nat) (f : Fld) (x : Nat) : ∃ l, d.set a f x = { d with rf := l } := wr_frame d _ _

theorem rd_bumpBy_self (d : Dev) (a n : Nat) : (d.bumpBy a n).rd a = sat 32 (d.rd a + n) := by
  unfold Dev.bumpBy
  rw [rd_wr_self]
  unfold sat
  split <;> omega

theorem rd_bumpBy_other (d : Dev) {a b : Nat} (n : Nat) (h : b ≠ a) : (d.bumpBy a n).rd b = d.rd b := rd_wr_other d _ h

/-- What a register reads depends on the register file alone. -/
theorem rd_congr {d e : Dev} (h : d.rf = e.rf) (a : Nat) : d.rd a = e.rd a := by unfold Dev.rd; rw [h]

/-! ### Little-endian bytes -/

@[simp] theorem toLE_length (n v : Nat) : (toLE n v).length = n := by
  induction n generalizing v with
  | zero => rfl
  | succ n ih => simp [toLE, ih]

theorem ofLE_toLE (n v : Nat) : ofLE (toLE n v) = v % 2 ^ (8 * n) := by
  induction n generalizing v with
  | zero => simp [toLE, ofLE]; omega
  | succ n ih =>
    have e : 2 ^ (8 * (n + 1)) = 256 * 2 ^ (8 * n) := by rw [Nat.mul_add, Nat.pow_add, Nat.mul_comm]
    rw [toLE, ofLE, ih, e, Nat.mod_mul]
    simp

@[simp] theorem padTo_length (n : Nat) (l : List Byte) : (padTo n l).length = n := by simp [padTo]

theorem fieldLE_append {a b : List Byte} {hi lo : Nat} (h : hi < a.length) : fieldLE (a ++ b) hi lo = fieldLE a hi lo := by
  unfold fieldLE
  by_cases hl : lo ≤ hi
  · rw [List.drop_append_of_le_length (by omega), List.take_append_of_le_length (by simp; omega)]
  · simp [show hi + 1 - lo = 0 by omega]

theorem byteAt_append {a b : List Byte} {i : Nat} (h : i < a.length) : byteAt (a ++ b) i = byteAt a i := by
  unfold byteAt
  rw [List.getElem?_append_left h]

/-! ### CRCs -/

theorem crcBit_lt {p c : Nat} (hp : p < 2 ^ 32) (hc : c < 2 ^ 32) : crcBit p c < 2 ^ 32 := by
  unfold crcBit
  split
  · exact Nat.xor_lt_two_pow (by omega) hp
  · omega

theorem crcByte_lt {p c b : Nat} (hp : p < 2 ^ 32) (hc : c < 2 ^ 32) (hb : b < 2 ^ 32) : crcByte p c b < 2 ^ 32 := by
  unfold crcByte
  iterate 8 apply crcBit_lt hp
  exact Nat.xor_lt_two_pow hc hb

theorem crc32_lt (bs : List Byte) : crc32 bs < 2 ^ 32 := by
  unfold crc32 crcRefl
  refine Nat.xor_lt_two_pow ?_ (by decide)
  suffices h : ∀ c < 2 ^ 32, bs.foldl (fun c b => crcByte 0xEDB88320 c b.toNat) c < 2 ^ 32 from h _ (by decide)
  induction bs with
  | nil => exact fun _ h => h
  | cons b r ih => exact fun c h => ih _ (crcByte_lt (by decide) h (by omega))

/-! ### Tables of like things -/

/-- A write of one place of a table leaves the others. -/
theorem nth_put {α : Type} (n : Nat) (x : α) (l : List α) (i j : Nat) (f : α → α) :
    nth (put n x l i f) j x = if j = i ∧ i < n then f (nth l i x) else nth l j x := by
  have pad : ∀ k : Nat, (l ++ List.replicate (n - l.length) x)[k]?.getD x = l[k]?.getD x := by
    intro k
    rcases Nat.lt_or_ge k l.length with h | h
    · rw [List.getElem?_append_left h]
    · rw [List.getElem?_append_right h, List.getElem?_replicate, List.getElem?_eq_none h]
      split <;> rfl
  unfold put nth
  by_cases hi : i < n
  · rw [if_pos hi, List.getElem?_modify]
    by_cases hj : j = i
    · subst hj
      have hl : j < (l ++ List.replicate (n - l.length) x).length := by simp; omega
      rw [if_pos ⟨rfl, hi⟩, ← pad j, List.getElem?_eq_getElem hl]
      simp
    · rw [if_neg (fun h => hj h.1), ← pad j]
      simp [Ne.symm hj]
  · rw [if_neg hi, if_neg (fun h => hi h.2)]

/-! ### HBM3E words -/

/-- The decoder of HBM3E words answers every pattern of the checker self-test as R68 expects: TOP_BIST reads PASS in every
copy of it that has no fault. -/
theorem cpcSelfTest_passes : cpcSelfTest = true := by decide +kernel

theorem hword_putWord_other (d : Dev) {i j : Nat} (w : HWord) (h : j ≠ i) : (d.putWord i w).hword j = d.hword j := by
  unfold Dev.putWord Dev.hword
  split
  · simp [getKey_delKey_other _ h]
  · simp [getKey_insKey_other _ _ h]

theorem hword_putWord_self (d : Dev) (i : Nat) (w : HWord) : (d.putWord i w).hword i = w := by
  unfold Dev.putWord Dev.hword
  split
  · next h => simp_all [getKey_delKey_self]
  · simp [getKey_insKey_self]

end Sys2Proof.Laws
end

