-- ==== Sys2Proof/Laws/Crypto.lean ====
section
/-!
SUPPORT. The lengths of what AES-128, its CMAC, SHA-256 and HMAC answer.
-/
namespace Sys2Proof.Laws
open Sys2Proof Sys2Proof.Machine

/-- Key expansion makes one round key more than it is asked for, each as long as the first. -/
theorem aesKeys_length {n rcon : Nat} {k : List Nat} (h : k.length = 16) :
    (aesKeys n rcon k).length = n + 1 ∧ ∀ x ∈ aesKeys n rcon k, x.length = 16 := by
  induction n generalizing rcon k with
  | zero => simp [aesKeys, h]
  | succ n ih =>
    unfold aesKeys
    simp only [List.length_cons, List.mem_cons, forall_eq_or_imp]
    refine ⟨?_, h, ?_⟩
    · rw [(ih _).1]; simp [h]
    · exact (ih (by simp [h])).2

/-- AES-128 answers a block. -/
theorem aes128_length (key : List Byte) (b : List Nat) : (aes128 key b).length = 16 := by
  unfold aes128
  have h := @aesKeys_length 10 1 ((padTo 16 key).map (·.toNat)) (by simp [padTo])
  split
  · next k0 ks e =>
    rw [e] at h
    have hl : 9 < ks.length := by have := h.1; simp at this; omega
    have h9 : (nth ks 9 []).length = 16 := by
      unfold nth
      rw [List.getElem?_eq_getElem hl]
      exact h.2 _ (List.mem_cons_of_mem _ (List.getElem_mem hl))
    simp [aesSubShift, h9]
  · next e => rw [e] at h; exact absurd h.1 (by simp)

/-- CBC-MAC over at least one block answers a block. -/
theorem cbcMac_length (key : List Byte) (n : Nat) (x bs : List Nat) : (cbcMac key (n + 1) x bs).length = 16 := by
  induction n generalizing x bs with
  | zero => rw [cbcMac, cbcMac, aes128_length]
  | succ n ih => rw [cbcMac, ih]

/-- A CMAC is 16 bytes (R552). -/
theorem cmac128_length (key msg : List Byte) : (cmac128 key msg).length = 16 := by
  unfold cmac128
  obtain ⟨n, h⟩ : ∃ n, max 1 ((msg.length + 15) / 16) = n + 1 := ⟨max 1 ((msg.length + 15) / 16) - 1, by omega⟩
  simp only [h, List.length_map, cbcMac_length]

/-- A round of SHA-2 keeps the number of working variables. -/
theorem shaRound_length (p : Sha) (s : List Nat) (kw : Nat × Nat) (h : s.length = 8) : (shaRound p s kw).length = 8 := by
  unfold shaRound
  split
  · rfl
  · exact h

/-- SHA-2 keeps the number of its chaining variables. -/
theorem shaBlocks_length (p : Sha) (n : Nat) (h : List Nat) (bs : List Byte) (hh : h.length = 8) : (shaBlocks p n h bs).length = 8 := by
  induction n generalizing h bs with
  | zero => exact hh
  | succ n ih =>
    rw [shaBlocks]
    refine ih _ _ ?_
    have hf : ∀ (l : List (Nat × Nat)) (s : List Nat), s.length = 8 → (l.foldl (shaRound p) s).length = 8 := by
      intro l
      induction l with
      | nil => exact fun _ e => e
      | cons a r ih => exact fun s e => ih _ (shaRound_length p s a e)
    simp only [shaBlock, List.length_zipWith, hh, hf _ _ hh, Nat.min_self]

/-- A SHA-256 digest is 32 bytes. -/
theorem sha256_length (msg : List Byte) : (sha256 msg).length = 32 := by
  have h : ∀ l : List Nat, (l.flatMap (toBE 4)).length = 4 * l.length := by
    intro l
    induction l with
    | nil => rfl
    | cons a r ih => simp only [List.flatMap_cons, List.length_append, ih, toBE, List.length_reverse, toLE_length, List.length_cons]; omega
  have h8 : sha256P.h.length = 8 := by decide +kernel
  unfold sha256 sha2
  rw [show sha256P.w / 8 = 4 from rfl, h, shaBlocks_length _ _ _ _ h8]

/-- An HMAC-SHA-256 is 32 bytes (R392). -/
theorem hmacSha256_length (key msg : List Byte) : (hmacSha256 key msg).length = 32 := sha256_length _

end Sys2Proof.Laws
end

