-- ==== Sys2Proof/Laws/Keeps/Inv.lean ====
section
/-!
SUPPORT. The invariant of the whole device and what keeps it: the register file and HBM3E hold their canonical form, and
the safety partition keeps a property that no change but a release can end.
-/
namespace Sys2Proof.Laws
open Sys2Proof Sys2Proof.Machine

/-- A change of the safety partition that releases nothing: its supply stays, and SAFE_STATE and the causes stay or
SAFE_STATE is asserted. -/
def Still (s s' : Saf) : Prop := s'.on = s.on ∧ ((s'.safe = s.safe ∧ s'.cause = s.cause) ∨ s'.safe = true)

/-- A property of the safety partition that only a release or a change of its supply may end. -/
def Steady (P : Saf → Prop) : Prop := ∀ s s', Still s s' → P s → P s'

/-- A property that every change of the supply that leaves SAFE_STATE asserted keeps. -/
def Power (P : Saf → Prop) : Prop := ∀ s s' : Saf, s'.safe = true → P s → P s'

/-- A property that a release keeps. -/
def Freed (P : Saf → Prop) : Prop := ∀ s : Saf, s.on = true → P s → P { s with safe := false, cause := 0 }

/-- What is to be kept: properties of the register file, of HBM3E and of the safety partition that the operations on them
keep, and the parts of the device, as bits of a mask, that may differ from those of a base device. -/
structure Scope where
  saf : Saf → Prop
  rf : List (Nat × Word) → Prop
  hbm : List (Nat × HWord) → Prop
  may : Nat
  base : Dev
  steady : Steady saf
  rfWr : ∀ l a v, rf l → rf (if v % 2 ^ 32 = resetOf a then delKey a l else insKey a (BitVec.ofNat 32 v) l)
  rfFilter : ∀ l (p : Nat × Word → Bool), rf l → rf (l.filter p)
  hbmNil : hbm []
  hbmDel : ∀ l a, hbm l → hbm (delKey a l)
  hbmIns : ∀ l a w, w ≠ {} → hbm l → hbm (insKey a w l)

/-- The parts of a mask may change. -/
def Scope.allows (Q : Scope) (m : Nat) : Prop := m &&& Q.may = m

theorem Scope.allows.sub {Q : Scope} {m m' : Nat} (h : Q.allows m) (e : m' &&& m = m') : Q.allows m' := by
  unfold Scope.allows at *
  rw [← e, Nat.and_assoc, h]

theorem Scope.allows.bit {Q : Scope} {m i : Nat} (h : Q.allows m) (e : m.testBit i = true) : Q.may.testBit i = true := by
  have := congrArg (·.testBit i) h
  simp only [Nat.testBit_and, e] at this
  simpa using this

/-- A part that a mask lets change, or that is unchanged. -/
def Same (m i : Nat) {α : Type} (x y : α) : Prop := m.testBit i = true ∨ x = y

theorem same_may {m i : Nat} {α : Type} {x y : α} (h : m.testBit i = true) : Same m i x y := .inl h
theorem same_rfl {m i : Nat} {α : Type} {x : α} : Same m i x x := .inr rfl
theorem Same.trans {Q : Scope} {m i : Nat} {α : Type} {x y z : α} (ha : Q.allows m) (h : Same m i x y)
    (k : Same Q.may i y z) : Same Q.may i x z := by
  rcases h with h | rfl
  · exact .inl (ha.bit h)
  · exact k

/-- Every part of `b` that the mask does not let change is that of `a`; the bits from 26 on stand for the
parts of a part. -/
structure Frame (m : Nat) (a b : Dev) : Prop where
  rf : Same m 0 b.rf a.rf
  latch : Same m 1 b.latch a.latch
  clk : Same m 2 b.clk a.clk
  top : Same m 3 b.top a.top
  host : Same m 4 b.host a.host
  sheaf : Same m 5 b.sheaf a.sheaf
  ldg : Same m 6 b.ldg a.ldg
  ra : Same m 7 b.ra a.ra
  head : Same m 8 b.head a.head
  stg : Same m 9 b.stg a.stg
  heat : Same m 10 b.heat a.heat
  cal : Same m 11 b.cal a.cal
  cams : Same m 12 b.cams a.cams
  saf : Same m 13 b.saf a.saf
  met : Same m 14 b.met a.met
  gln : Same m 15 b.gln a.gln
  hbm : Same m 16 b.hbm a.hbm
  eng : Same m 17 b.eng a.eng
  hbmc : Same m 18 b.hbmc a.hbmc
  kry : Same m 19 b.kry a.kry
  tim : Same m 20 b.tim a.tim
  pnl : Same m 21 b.pnl a.pnl
  kq : Same m 22 b.kq a.kq
  kin : Same m 23 b.kin a.kin
  outs : Same m 24 b.outs a.outs
  log : Same m 25 b.log a.log
  core : Same m 26 (b.top.phase, b.top.tick, b.top.edgeAt) (a.top.phase, a.top.tick, a.top.edgeAt)
  otp : Same m 27 (b.top.otpKey, b.top.otpSerial) (a.top.otpKey, a.top.otpSerial)
  comm : Same m 28 (b.saf.key, b.saf.slots) (a.saf.key, a.saf.slots)
  ident : Same m 29 (b.met.key, b.met.pub, b.met.factoryEc, b.met.factoryCrc, b.met.ec) (a.met.key, a.met.pub, a.met.factoryEc, a.met.factoryCrc, a.met.ec)
  sess : Same m 30 (b.host.session) (a.host.session)
  prog : Same m 31 (b.ra.cur, b.ra.sTick, b.ra.nextTick) (a.ra.cur, a.ra.sTick, a.ra.nextTick)
  stgOut : Same m 32 (b.stg.strikeOk, b.stg.retreat) (a.stg.strikeOk, a.stg.retreat)
  opMode : Same m 33 (b.top.mode) (a.top.mode)
  cmds : Same m 34 (b.host.q0, b.host.q14, b.host.out14, b.host.begun, b.host.relays, b.host.nextRelay, b.host.retireN, b.host.layerResv, b.host.telemAt) (a.host.q0, a.host.q14, a.host.out14, a.host.begun, a.host.relays, a.host.nextRelay, a.host.retireN, a.host.layerResv, a.host.telemAt)
  auth : Same m 35 (b.host.chal, b.host.chalOrigin, b.host.fails, b.host.lockAt, b.host.modeBlock) (a.host.chal, a.host.chalOrigin, a.host.fails, a.host.lockAt, a.host.modeBlock)
  lnk : Same m 36 (b.host.bme, b.host.d3hot, b.host.perst) (a.host.bme, a.host.d3hot, a.host.perst)
  nextE : Same m 37 (b.top.desig, b.top.nextIdle, b.top.committed, b.top.sealOpen, b.top.isStrike, b.top.overspeed, b.top.stallNext, b.top.tPrev, b.top.idlePeriod) (a.top.desig, a.top.nextIdle, a.top.committed, a.top.sealOpen, a.top.isStrike, a.top.overspeed, a.top.stallNext, a.top.tPrev, a.top.idlePeriod)
  power : Same m 38 (b.top.sysRst, b.top.railsGood, b.top.straps) (a.top.sysRst, a.top.railsGood, a.top.straps)
  causes : Same m 39 (b.top.causes, b.top.holdCause, b.top.prevMode, b.top.abortPend) (a.top.causes, a.top.holdCause, a.top.prevMode, a.top.abortPend)
  trigs : Same m 40 (b.top.trigs) (a.top.trigs)
  fabric : Same m 41 (b.kry.ports, b.kry.route, b.kry.rootSerial, b.kry.dormantAt, b.kry.reported) (a.kry.ports, a.kry.route, a.kry.rootSerial, a.kry.dormantAt, a.kry.reported)
  vecs : Same m 42 (b.host.msix) (a.host.msix)

/-- A device keeps what a scope asks. -/
structure Inv (Q : Scope) (d : Dev) : Prop where
  rfOk : Q.rf d.rf
  hbmOk : Q.hbm d.hbm
  safOk : Q.saf d.saf
  frame : Frame Q.may Q.base d

/-- What keeping a scope says of a device given by its parts. -/
structure Parts (Q : Scope) (rf : List (Nat × Word)) (latch : List (Nat × Word)) (clk : Clock) (top : Top) (host : HostIf) (sheaf : Sheaf) (ldg : Ledger) (ra : RunAhead) (head : Head) (stg : Stage) (heat : Heat) (cal : Cal) (cams : List Camera) (saf : Saf) (met : Met) (gln : Gln) (hbm : List (Nat × HWord)) (eng : Eng) (hbmc : HbmC) (kry : Kry) (tim : Tim) (pnl : Pnl) (kq : List KOut) (kin : List KIn) (outs : List Out) (log : List Event) : Prop where
  rfOk : Q.rf rf
  hbmOk : Q.hbm hbm
  safOk : Q.saf saf
  srf : Same Q.may 0 rf Q.base.rf
  slatch : Same Q.may 1 latch Q.base.latch
  sclk : Same Q.may 2 clk Q.base.clk
  stop : Same Q.may 3 top Q.base.top
  shost : Same Q.may 4 host Q.base.host
  ssheaf : Same Q.may 5 sheaf Q.base.sheaf
  sldg : Same Q.may 6 ldg Q.base.ldg
  sra : Same Q.may 7 ra Q.base.ra
  shead : Same Q.may 8 head Q.base.head
  sstg : Same Q.may 9 stg Q.base.stg
  sheat : Same Q.may 10 heat Q.base.heat
  scal : Same Q.may 11 cal Q.base.cal
  scams : Same Q.may 12 cams Q.base.cams
  ssaf : Same Q.may 13 saf Q.base.saf
  smet : Same Q.may 14 met Q.base.met
  sgln : Same Q.may 15 gln Q.base.gln
  shbm : Same Q.may 16 hbm Q.base.hbm
  seng : Same Q.may 17 eng Q.base.eng
  shbmc : Same Q.may 18 hbmc Q.base.hbmc
  skry : Same Q.may 19 kry Q.base.kry
  stim : Same Q.may 20 tim Q.base.tim
  spnl : Same Q.may 21 pnl Q.base.pnl
  skq : Same Q.may 22 kq Q.base.kq
  skin : Same Q.may 23 kin Q.base.kin
  souts : Same Q.may 24 outs Q.base.outs
  slog : Same Q.may 25 log Q.base.log
  score : Same Q.may 26 (top.phase, top.tick, top.edgeAt) (Q.base.top.phase, Q.base.top.tick, Q.base.top.edgeAt)
  sotp : Same Q.may 27 (top.otpKey, top.otpSerial) (Q.base.top.otpKey, Q.base.top.otpSerial)
  scomm : Same Q.may 28 (saf.key, saf.slots) (Q.base.saf.key, Q.base.saf.slots)
  sident : Same Q.may 29 (met.key, met.pub, met.factoryEc, met.factoryCrc, met.ec) (Q.base.met.key, Q.base.met.pub, Q.base.met.factoryEc, Q.base.met.factoryCrc, Q.base.met.ec)
  ssess : Same Q.may 30 (host.session) (Q.base.host.session)
  sprog : Same Q.may 31 (ra.cur, ra.sTick, ra.nextTick) (Q.base.ra.cur, Q.base.ra.sTick, Q.base.ra.nextTick)
  sstgOut : Same Q.may 32 (stg.strikeOk, stg.retreat) (Q.base.stg.strikeOk, Q.base.stg.retreat)
  sopMode : Same Q.may 33 (top.mode) (Q.base.top.mode)
  scmds : Same Q.may 34 (host.q0, host.q14, host.out14, host.begun, host.relays, host.nextRelay, host.retireN, host.layerResv, host.telemAt) (Q.base.host.q0, Q.base.host.q14, Q.base.host.out14, Q.base.host.begun, Q.base.host.relays, Q.base.host.nextRelay, Q.base.host.retireN, Q.base.host.layerResv, Q.base.host.telemAt)
  sauth : Same Q.may 35 (host.chal, host.chalOrigin, host.fails, host.lockAt, host.modeBlock) (Q.base.host.chal, Q.base.host.chalOrigin, Q.base.host.fails, Q.base.host.lockAt, Q.base.host.modeBlock)
  slnk : Same Q.may 36 (host.bme, host.d3hot, host.perst) (Q.base.host.bme, Q.base.host.d3hot, Q.base.host.perst)
  snextE : Same Q.may 37 (top.desig, top.nextIdle, top.committed, top.sealOpen, top.isStrike, top.overspeed, top.stallNext, top.tPrev, top.idlePeriod) (Q.base.top.desig, Q.base.top.nextIdle, Q.base.top.committed, Q.base.top.sealOpen, Q.base.top.isStrike, Q.base.top.overspeed, Q.base.top.stallNext, Q.base.top.tPrev, Q.base.top.idlePeriod)
  spower : Same Q.may 38 (top.sysRst, top.railsGood, top.straps) (Q.base.top.sysRst, Q.base.top.railsGood, Q.base.top.straps)
  scauses : Same Q.may 39 (top.causes, top.holdCause, top.prevMode, top.abortPend) (Q.base.top.causes, Q.base.top.holdCause, Q.base.top.prevMode, Q.base.top.abortPend)
  strigs : Same Q.may 40 (top.trigs) (Q.base.top.trigs)
  sfabric : Same Q.may 41 (kry.ports, kry.route, kry.rootSerial, kry.dormantAt, kry.reported) (Q.base.kry.ports, Q.base.kry.route, Q.base.kry.rootSerial, Q.base.kry.dormantAt, Q.base.kry.reported)
  svecs : Same Q.may 42 (host.msix) (Q.base.host.msix)

/-- The parts of a device that differ from those of another one, all within a mask. -/
structure Lit (m : Nat) (e : Dev) (rf : List (Nat × Word)) (latch : List (Nat × Word)) (clk : Clock) (top : Top) (host : HostIf) (sheaf : Sheaf) (ldg : Ledger) (ra : RunAhead) (head : Head) (stg : Stage) (heat : Heat) (cal : Cal) (cams : List Camera) (saf : Saf) (met : Met) (gln : Gln) (eng : Eng) (hbmc : HbmC) (kry : Kry) (tim : Tim) (pnl : Pnl) (kq : List KOut) (kin : List KIn) (outs : List Out) (log : List Event) : Prop where
  srf : Same m 0 rf e.rf
  slatch : Same m 1 latch e.latch
  sclk : Same m 2 clk e.clk
  stop : Same m 3 top e.top
  shost : Same m 4 host e.host
  ssheaf : Same m 5 sheaf e.sheaf
  sldg : Same m 6 ldg e.ldg
  sra : Same m 7 ra e.ra
  shead : Same m 8 head e.head
  sstg : Same m 9 stg e.stg
  sheat : Same m 10 heat e.heat
  scal : Same m 11 cal e.cal
  scams : Same m 12 cams e.cams
  ssaf : Same m 13 saf e.saf
  smet : Same m 14 met e.met
  sgln : Same m 15 gln e.gln
  seng : Same m 17 eng e.eng
  shbmc : Same m 18 hbmc e.hbmc
  skry : Same m 19 kry e.kry
  stim : Same m 20 tim e.tim
  spnl : Same m 21 pnl e.pnl
  skq : Same m 22 kq e.kq
  skin : Same m 23 kin e.kin
  souts : Same m 24 outs e.outs
  slog : Same m 25 log e.log
  score : Same m 26 (top.phase, top.tick, top.edgeAt) (e.top.phase, e.top.tick, e.top.edgeAt)
  sotp : Same m 27 (top.otpKey, top.otpSerial) (e.top.otpKey, e.top.otpSerial)
  scomm : Same m 28 (saf.key, saf.slots) (e.saf.key, e.saf.slots)
  sident : Same m 29 (met.key, met.pub, met.factoryEc, met.factoryCrc, met.ec) (e.met.key, e.met.pub, e.met.factoryEc, e.met.factoryCrc, e.met.ec)
  ssess : Same m 30 (host.session) (e.host.session)
  sprog : Same m 31 (ra.cur, ra.sTick, ra.nextTick) (e.ra.cur, e.ra.sTick, e.ra.nextTick)
  sstgOut : Same m 32 (stg.strikeOk, stg.retreat) (e.stg.strikeOk, e.stg.retreat)
  sopMode : Same m 33 (top.mode) (e.top.mode)
  scmds : Same m 34 (host.q0, host.q14, host.out14, host.begun, host.relays, host.nextRelay, host.retireN, host.layerResv, host.telemAt) (e.host.q0, e.host.q14, e.host.out14, e.host.begun, e.host.relays, e.host.nextRelay, e.host.retireN, e.host.layerResv, e.host.telemAt)
  sauth : Same m 35 (host.chal, host.chalOrigin, host.fails, host.lockAt, host.modeBlock) (e.host.chal, e.host.chalOrigin, e.host.fails, e.host.lockAt, e.host.modeBlock)
  slnk : Same m 36 (host.bme, host.d3hot, host.perst) (e.host.bme, e.host.d3hot, e.host.perst)
  snextE : Same m 37 (top.desig, top.nextIdle, top.committed, top.sealOpen, top.isStrike, top.overspeed, top.stallNext, top.tPrev, top.idlePeriod) (e.top.desig, e.top.nextIdle, e.top.committed, e.top.sealOpen, e.top.isStrike, e.top.overspeed, e.top.stallNext, e.top.tPrev, e.top.idlePeriod)
  spower : Same m 38 (top.sysRst, top.railsGood, top.straps) (e.top.sysRst, e.top.railsGood, e.top.straps)
  scauses : Same m 39 (top.causes, top.holdCause, top.prevMode, top.abortPend) (e.top.causes, e.top.holdCause, e.top.prevMode, e.top.abortPend)
  strigs : Same m 40 (top.trigs) (e.top.trigs)
  sfabric : Same m 41 (kry.ports, kry.route, kry.rootSerial, kry.dormantAt, kry.reported) (e.kry.ports, e.kry.route, e.kry.rootSerial, e.kry.dormantAt, e.kry.reported)
  svecs : Same m 42 (host.msix) (e.host.msix)

/-- The invariant of a device that a function may answer. -/
def OptInv (Q : Scope) : Option Dev → Prop
  | none => True
  | some d => Inv Q d

/-- The invariant of a device that a function may answer beside a value. -/
def OptInv2 {α : Type} (Q : Scope) : Option (α × Dev) → Prop
  | none => True
  | some x => Inv Q x.2

/-- The invariant of a device beside a value. -/
def Inv2 {α : Type} (Q : Scope) (x : α × Dev) : Prop := Inv Q x.2
/-- See `Inv2`. -/
def Inv1 {α : Type} (Q : Scope) (x : Dev × α) : Prop := Inv Q x.1
/-- See `Inv2`. -/
def Inv22 {α β : Type} (Q : Scope) (x : α × β × Dev) : Prop := Inv Q x.2.2
/-- See `Inv2`. -/
def Inv222 {α β γ : Type} (Q : Scope) (x : α × β × γ × Dev) : Prop := Inv Q x.2.2.2
/-- See `Inv2`. -/
def Inv21 {α β : Type} (Q : Scope) (x : α × Dev × β) : Prop := Inv Q x.2.1

variable {Q : Scope}

theorem optInv_none : OptInv Q none := True.intro
theorem optInv2_none {α : Type} : OptInv2 (α := α) P none := True.intro
theorem optInv2_map {α β : Type} {f : α → β × Dev} {o : Option α} (h : ∀ a, Inv Q (f a).2) : OptInv2 Q (o.map f) := by
  cases o
  · trivial
  · exact h _
theorem inv_getD {o : Option Dev} {d : Dev} (ho : OptInv Q o) (h : Inv Q d) : Inv Q (o.getD d) := by
  cases o
  · exact h
  · exact ho
theorem optInv_some {d : Dev} (h : Inv Q d) : OptInv Q (some d) := h
theorem optInv2_some {α : Type} {x : α × Dev} (h : Inv Q x.2) : OptInv2 Q (some x) := h

theorem inv_mk {rf latch clk top host sheaf ldg ra head stg heat cal cams saf met gln hbm eng hbmc kry tim pnl kq kin outs log} :
    Inv Q ⟨rf, latch, clk, top, host, sheaf, ldg, ra, head, stg, heat, cal, cams, saf, met, gln, hbm, eng, hbmc, kry, tim, pnl, kq, kin, outs, log⟩ ↔ Parts Q rf latch clk top host sheaf ldg ra head stg heat cal cams saf met gln hbm eng hbmc kry tim pnl kq kin outs log :=
  ⟨fun h => ⟨h.1, h.2, h.3, h.4.1, h.4.2, h.4.3, h.4.4, h.4.5, h.4.6, h.4.7, h.4.8, h.4.9, h.4.10, h.4.11, h.4.12, h.4.13, h.4.14, h.4.15, h.4.16, h.4.17, h.4.18, h.4.19, h.4.20, h.4.21, h.4.22, h.4.23, h.4.24, h.4.25, h.4.26, h.4.27, h.4.28, h.4.29, h.4.30, h.4.31, h.4.32, h.4.33, h.4.34, h.4.35, h.4.36, h.4.37, h.4.38, h.4.39, h.4.40, h.4.41, h.4.42, h.4.43⟩,
    fun h => ⟨h.1, h.2, h.3, ⟨h.4, h.5, h.6, h.7, h.8, h.9, h.10, h.11, h.12, h.13, h.14, h.15, h.16, h.17, h.18, h.19, h.20, h.21, h.22, h.23, h.24, h.25, h.26, h.27, h.28, h.29, h.30, h.31, h.32, h.33, h.34, h.35, h.36, h.37, h.38, h.39, h.40, h.41, h.42, h.43, h.44, h.45, h.46⟩⟩⟩

theorem inv_parts {e : Dev} {m : Nat} {latch : List (Nat × Word)} {clk : Clock} {top : Top} {host : HostIf} {sheaf : Sheaf} {ldg : Ledger} {ra : RunAhead} {head : Head} {stg : Stage} {heat : Heat} {cal : Cal} {cams : List Camera} {saf : Saf} {met : Met} {gln : Gln} {eng : Eng} {hbmc : HbmC} {kry : Kry} {tim : Tim} {pnl : Pnl} {kq : List KOut} {kin : List KIn} {outs : List Out} {log : List Event} (ha : Q.allows m) (h : Inv Q e)
    (hs : Still e.saf saf) (c : Lit m e e.rf latch clk top host sheaf ldg ra head stg heat cal cams saf met gln eng hbmc kry tim pnl kq kin outs log) :
    Parts Q e.rf latch clk top host sheaf ldg ra head stg heat cal cams saf met gln e.hbm eng hbmc kry tim pnl kq kin outs log :=
  ⟨h.1, h.2, Q.steady _ _ hs h.3, c.srf.trans ha h.4.rf, c.slatch.trans ha h.4.latch, c.sclk.trans ha h.4.clk, c.stop.trans ha h.4.top, c.shost.trans ha h.4.host, c.ssheaf.trans ha h.4.sheaf, c.sldg.trans ha h.4.ldg, c.sra.trans ha h.4.ra, c.shead.trans ha h.4.head, c.sstg.trans ha h.4.stg, c.sheat.trans ha h.4.heat, c.scal.trans ha h.4.cal, c.scams.trans ha h.4.cams, c.ssaf.trans ha h.4.saf, c.smet.trans ha h.4.met, c.sgln.trans ha h.4.gln, h.4.hbm, c.seng.trans ha h.4.eng, c.shbmc.trans ha h.4.hbmc, c.skry.trans ha h.4.kry, c.stim.trans ha h.4.tim, c.spnl.trans ha h.4.pnl, c.skq.trans ha h.4.kq, c.skin.trans ha h.4.kin, c.souts.trans ha h.4.outs, c.slog.trans ha h.4.log, c.score.trans ha h.4.core, c.sotp.trans ha h.4.otp, c.scomm.trans ha h.4.comm, c.sident.trans ha h.4.ident, c.ssess.trans ha h.4.sess, c.sprog.trans ha h.4.prog, c.sstgOut.trans ha h.4.stgOut, c.sopMode.trans ha h.4.opMode, c.scmds.trans ha h.4.cmds, c.sauth.trans ha h.4.auth, c.slnk.trans ha h.4.lnk, c.snextE.trans ha h.4.nextE, c.spower.trans ha h.4.power, c.scauses.trans ha h.4.causes, c.strigs.trans ha h.4.trigs, c.sfabric.trans ha h.4.fabric, c.svecs.trans ha h.4.vecs⟩

theorem inv_filter {e : Dev} {m : Nat} {p : Nat × Word → Bool} {latch : List (Nat × Word)} {clk : Clock} {top : Top} {host : HostIf} {sheaf : Sheaf} {ldg : Ledger} {ra : RunAhead} {head : Head} {stg : Stage} {heat : Heat} {cal : Cal} {cams : List Camera} {saf : Saf} {met : Met} {gln : Gln} {eng : Eng} {hbmc : HbmC} {kry : Kry} {tim : Tim} {pnl : Pnl} {kq : List KOut} {kin : List KIn} {outs : List Out} {log : List Event} (ha : Q.allows m) (h : Inv Q e)
    (hs : Still e.saf saf) (c : Lit m e (e.rf.filter p) latch clk top host sheaf ldg ra head stg heat cal cams saf met gln eng hbmc kry tim pnl kq kin outs log) :
    Parts Q (e.rf.filter p) latch clk top host sheaf ldg ra head stg heat cal cams saf met gln e.hbm eng hbmc kry tim pnl kq kin outs log :=
  ⟨Q.rfFilter _ _ h.1, h.2, Q.steady _ _ hs h.3, c.srf.trans ha h.4.rf, c.slatch.trans ha h.4.latch, c.sclk.trans ha h.4.clk, c.stop.trans ha h.4.top, c.shost.trans ha h.4.host, c.ssheaf.trans ha h.4.sheaf, c.sldg.trans ha h.4.ldg, c.sra.trans ha h.4.ra, c.shead.trans ha h.4.head, c.sstg.trans ha h.4.stg, c.sheat.trans ha h.4.heat, c.scal.trans ha h.4.cal, c.scams.trans ha h.4.cams, c.ssaf.trans ha h.4.saf, c.smet.trans ha h.4.met, c.sgln.trans ha h.4.gln, h.4.hbm, c.seng.trans ha h.4.eng, c.shbmc.trans ha h.4.hbmc, c.skry.trans ha h.4.kry, c.stim.trans ha h.4.tim, c.spnl.trans ha h.4.pnl, c.skq.trans ha h.4.kq, c.skin.trans ha h.4.kin, c.souts.trans ha h.4.outs, c.slog.trans ha h.4.log, c.score.trans ha h.4.core, c.sotp.trans ha h.4.otp, c.scomm.trans ha h.4.comm, c.sident.trans ha h.4.ident, c.ssess.trans ha h.4.sess, c.sprog.trans ha h.4.prog, c.sstgOut.trans ha h.4.stgOut, c.sopMode.trans ha h.4.opMode, c.scmds.trans ha h.4.cmds, c.sauth.trans ha h.4.auth, c.slnk.trans ha h.4.lnk, c.snextE.trans ha h.4.nextE, c.spower.trans ha h.4.power, c.scauses.trans ha h.4.causes, c.strigs.trans ha h.4.trigs, c.sfabric.trans ha h.4.fabric, c.svecs.trans ha h.4.vecs⟩

theorem still_same {s s' : Saf} (h1 : s'.safe = s.safe) (h2 : s'.on = s.on) (h3 : s'.cause = s.cause) : Still s s' :=
  ⟨h2, .inl ⟨h1, h3⟩⟩
theorem still_safe {s s' : Saf} (h1 : s'.safe = true) (h2 : s'.on = s.on) : Still s s' := ⟨h2, .inr h1⟩
theorem still_rfl {s : Saf} : Still s s := ⟨rfl, .inl ⟨rfl, rfl⟩⟩

/-- Every register write keeps the invariant. -/
theorem keeps_Dev_wr {d : Dev} {a v : Nat} (ha : Q.allows 1) (h : Inv Q d) : Inv Q (d.wr a v) :=
  ⟨Q.rfWr _ a v h.1, h.2, h.3, ⟨.inl (ha.bit rfl), h.4.latch, h.4.clk, h.4.top, h.4.host, h.4.sheaf, h.4.ldg, h.4.ra, h.4.head, h.4.stg, h.4.heat, h.4.cal, h.4.cams, h.4.saf, h.4.met, h.4.gln, h.4.hbm, h.4.eng, h.4.hbmc, h.4.kry, h.4.tim, h.4.pnl, h.4.kq, h.4.kin, h.4.outs, h.4.log, h.4.core, h.4.otp, h.4.comm, h.4.ident, h.4.sess, h.4.prog, h.4.stgOut, h.4.opMode, h.4.cmds, h.4.auth, h.4.lnk, h.4.nextE, h.4.power, h.4.causes, h.4.trigs, h.4.fabric, h.4.vecs⟩⟩

/-- Every store of an HBM3E word keeps the invariant. -/
theorem keeps_Dev_putWord {d : Dev} {a : Nat} {w : HWord} (ha : Q.allows 0x10000) (h : Inv Q d) : Inv Q (d.putWord a w) := by
  refine ⟨h.1, ?_, h.3, ⟨h.4.rf, h.4.latch, h.4.clk, h.4.top, h.4.host, h.4.sheaf, h.4.ldg, h.4.ra, h.4.head, h.4.stg, h.4.heat, h.4.cal, h.4.cams, h.4.saf, h.4.met, h.4.gln, .inl (ha.bit rfl), h.4.eng, h.4.hbmc, h.4.kry, h.4.tim, h.4.pnl, h.4.kq, h.4.kin, h.4.outs, h.4.log, h.4.core, h.4.otp, h.4.comm, h.4.ident, h.4.sess, h.4.prog, h.4.stgOut, h.4.opMode, h.4.cmds, h.4.auth, h.4.lnk, h.4.nextE, h.4.power, h.4.causes, h.4.trigs, h.4.fabric, h.4.vecs⟩⟩
  show Q.hbm (if w = {} then delKey a d.hbm else insKey a w d.hbm)
  split
  · exact Q.hbmDel _ _ h.2
  · exact Q.hbmIns _ _ _ ‹_› h.2

theorem inv_ite {c : Prop} [Decidable c] {a b : Dev} (ha : c → Inv Q a) (hb : ¬c → Inv Q b) : Inv Q (if c then a else b) := by
  split
  · exact ha ‹_›
  · exact hb ‹_›

theorem inv_foldl {α : Type} {f : Dev → α → Dev} {d : Dev} {l : List α} (h : Inv Q d)
    (hf : ∀ d x, Inv Q d → Inv Q (f d x)) : Inv Q (l.foldl f d) := by
  induction l generalizing d with
  | nil => exact h
  | cons x l ih => exact ih (hf _ _ h)

theorem inv_foldl2 {α β : Type} {f : β × Dev → α → β × Dev} {d : β × Dev} {l : List α} (h : Inv2 Q d)
    (hf : ∀ d x, Inv2 Q d → Inv2 Q (f d x)) : Inv2 Q (l.foldl f d) := by
  induction l generalizing d with
  | nil => exact h
  | cons x l ih => exact ih (hf _ _ h)

theorem inv_foldl21 {α β γ : Type} {f : β × Dev × γ → α → β × Dev × γ} {d : β × Dev × γ} {l : List α} (h : Inv21 Q d)
    (hf : ∀ d x, Inv21 Q d → Inv21 Q (f d x)) : Inv21 Q (l.foldl f d) := by
  induction l generalizing d with
  | nil => exact h
  | cons x l ih => exact ih (hf _ _ h)

theorem inv_foldl1 {α β : Type} {f : Dev × β → α → Dev × β} {d : Dev × β} {l : List α} (h : Inv1 Q d)
    (hf : ∀ d x, Inv1 Q d → Inv1 Q (f d x)) : Inv1 Q (l.foldl f d) := by
  induction l generalizing d with
  | nil => exact h
  | cons x l ih => exact ih (hf _ _ h)

theorem inv2_mk {β : Type} {a : β} {d : Dev} (h : Inv Q d) : Inv2 Q (a, d) := h
theorem inv1_mk {β : Type} {a : β} {d : Dev} (h : Inv Q d) : Inv1 Q (d, a) := h
theorem inv22_mk {β γ : Type} {a : β} {b : γ} {d : Dev} (h : Inv Q d) : Inv22 Q (a, b, d) := h
theorem inv222_mk {α β γ : Type} {a : α} {b : β} {c : γ} {d : Dev} (h : Inv Q d) : Inv222 Q (a, b, c, d) := h
theorem inv21_mk {β γ : Type} {a : β} {b : γ} {d : Dev} (h : Inv Q d) : Inv21 Q (a, d, b) := h
theorem inv_pair2 {β : Type} {a : β} {d : Dev} (h : Inv2 Q (a, d)) : Inv Q d := h
theorem inv_pair1 {β : Type} {a : β} {d : Dev} (h : Inv1 Q (d, a)) : Inv Q d := h
theorem inv_pair21 {β γ : Type} {a : β} {b : γ} {d : Dev} (h : Inv21 Q (a, d, b)) : Inv Q d := h
theorem inv_snd {β : Type} {x : β × Dev} (h : Inv2 Q x) : Inv Q x.2 := h
theorem inv_fst {β : Type} {x : Dev × β} (h : Inv1 Q x) : Inv Q x.1 := h
theorem inv_snd2 {β γ : Type} {x : β × γ × Dev} (h : Inv22 Q x) : Inv Q x.2.2 := h
theorem inv_snd1 {β γ : Type} {x : β × Dev × γ} (h : Inv21 Q x) : Inv Q x.2.1 := h
theorem inv_eq2 {β : Type} {x : β × Dev} {a : β} {d : Dev} (e : x = (a, d)) (h : Inv2 Q x) : Inv Q d := by
  subst e; exact h
theorem inv_eq1 {β : Type} {x : Dev × β} {a : β} {d : Dev} (e : x = (d, a)) (h : Inv1 Q x) : Inv Q d := by
  subst e; exact h
theorem inv_eq22 {β γ : Type} {x : β × γ × Dev} {a : β} {b : γ} {d : Dev} (e : x = (a, b, d)) (h : Inv22 Q x) : Inv Q d := by
  subst e; exact h
theorem inv_eq222 {α β γ : Type} {x : α × β × γ × Dev} {a : α} {b : β} {c : γ} {d : Dev} (e : x = (a, b, c, d))
    (h : Inv222 Q x) : Inv Q d := by
  subst e; exact h
theorem inv_eq21 {β γ : Type} {x : β × Dev × γ} {a : β} {b : γ} {d : Dev} (e : x = (a, d, b)) (h : Inv21 Q x) : Inv Q d := by
  subst e; exact h
theorem inv_some {x : Option Dev} {d : Dev} (e : x = some d) (h : OptInv Q x) : Inv Q d := by subst e; exact h
theorem inv_some2 {α : Type} {x : Option (α × Dev)} {a : α} {d : Dev} (e : x = some (a, d)) (h : OptInv2 Q x) : Inv Q d := by
  subst e; exact h

end Sys2Proof.Laws
end

