-- ==== Sys2Proof/Laws/Keeps/Ops.lean ====
section
/-!
SUPPORT. What Ops does keeps the invariant.
-/
namespace Sys2Proof.Laws
open Sys2Proof Sys2Proof.Machine
set_option linter.unusedVariables false
variable {Q : Scope}

theorem keeps_Dev_set {d0 : Dev} {x1 : Nat} {x2 : Fld} {x3 : Nat} (ha : Q.allows 1) (h0 : Inv Q d0) : Inv Q (Dev.set d0 x1 x2 x3) := by
  unfold Dev.set
  try extract_lets
  repeat' first
    | with_reducible assumption | with_reducible apply keeps_Dev_wr

theorem keeps_Dev_bumpBy {d0 : Dev} {x1 : Nat} {x2 : Nat} (ha : Q.allows 1) (h0 : Inv Q d0) : Inv Q (Dev.bumpBy d0 x1 x2) := by
  unfold Dev.bumpBy
  try extract_lets
  repeat' first
    | with_reducible assumption | with_reducible apply keeps_Dev_wr

theorem keeps_Dev_bump {d0 : Dev} {x1 : Nat} (ha : Q.allows 1) (h0 : Inv Q d0) : Inv Q (Dev.bump d0 x1) := by
  unfold Dev.bump
  try extract_lets
  repeat' first
    | with_reducible assumption | with_reducible apply keeps_Dev_bumpBy

theorem keeps_Dev_bumpF {d0 : Dev} {x1 : Nat} {x2 : Fld} (ha : Q.allows 1) (h0 : Inv Q d0) : Inv Q (Dev.bumpF d0 x1 x2) := by
  unfold Dev.bumpF
  try extract_lets
  repeat' first
    | with_reducible assumption | with_reducible apply keeps_Dev_set

theorem keeps_Dev_unlatch {d0 : Dev} {x1 : Nat} {x2 : Nat} (ha : Q.allows 2) (h0 : Inv Q d0) : Inv Q (Dev.unlatch d0 x1 x2) := by
  unfold Dev.unlatch
  try extract_lets
  repeat' first
    | with_reducible assumption | with_reducible exact still_rfl
    | (with_reducible apply Lit.mk <;> first | exact same_may rfl | with_reducible exact same_rfl)
    | (simp only [↓inv_mk]; with_reducible apply inv_parts ha)

theorem keeps_Dev_countSlot {d0 : Dev} {x1 : Nat} (ha : Q.allows 8) (h0 : Inv Q d0) : Inv Q (Dev.countSlot d0 x1) := by
  unfold Dev.countSlot
  try extract_lets
  repeat' first
    | with_reducible assumption | with_reducible exact still_rfl
    | (with_reducible apply Lit.mk <;> first | exact same_may rfl | with_reducible exact same_rfl)
    | (simp only [↓inv_mk]; with_reducible apply inv_parts ha)

theorem keeps_Dev_send {d0 : Dev} {x1 : Out} (ha : Q.allows 16777216) (h0 : Inv Q d0) : Inv Q (Dev.send d0 x1) := by
  unfold Dev.send
  try extract_lets
  repeat' first
    | with_reducible assumption | with_reducible exact still_rfl
    | (with_reducible apply Lit.mk <;> first | exact same_may rfl | with_reducible exact same_rfl)
    | (simp only [↓inv_mk]; with_reducible apply inv_parts ha)

theorem keeps_Dev_dma {d0 : Dev} {x1 : Out} (ha : Q.allows 16777232) (h0 : Inv Q d0) : Inv Q (Dev.dma d0 x1) := by
  unfold Dev.dma
  try extract_lets
  repeat' first
    | with_reducible assumption | with_reducible exact ha.sub rfl | with_reducible exact still_rfl
    | (with_reducible apply Lit.mk <;> first | exact same_may rfl | with_reducible exact same_rfl)
    | with_reducible apply keeps_Dev_send | split | (simp only [↓inv_mk]; with_reducible apply inv_parts ha)

theorem keeps_Dev_msix {d0 : Dev} {x1 : Nat} (ha : Q.allows 16777232) (h0 : Inv Q d0) : Inv Q (Dev.msix d0 x1) := by
  unfold Dev.msix
  try extract_lets
  repeat' first
    | with_reducible assumption | with_reducible exact still_rfl
    | (with_reducible apply Lit.mk <;> first | exact same_may rfl | with_reducible exact same_rfl)
    | with_reducible apply keeps_Dev_dma | split | (simp only [↓inv_mk]; with_reducible apply inv_parts ha)

theorem keeps_Dev_msixRelease {d0 : Dev} {x1 : Nat} (ha : Q.allows 16777232) (h0 : Inv Q d0) : Inv Q (Dev.msixRelease d0 x1) := by
  unfold Dev.msixRelease
  try extract_lets
  repeat' first
    | with_reducible assumption | with_reducible exact still_rfl
    | (with_reducible apply Lit.mk <;> first | exact same_may rfl | with_reducible exact same_rfl)
    | with_reducible apply keeps_Dev_msix | extract_lets | split
    | (simp only [↓inv_mk]; with_reducible apply inv_parts ha)

theorem keeps_Dev_pmc {d0 : Dev} {x1 : Nat} {x2 : Option Nat} {x3 : Nat} {x4 : Nat} (ha : Q.allows 32768) (h0 : Inv Q d0) : Inv Q (Dev.pmc d0 x1 x2 x3 x4) := by
  unfold Dev.pmc
  try extract_lets
  repeat' first
    | with_reducible assumption | with_reducible exact still_rfl
    | (with_reducible apply Lit.mk <;> first | exact same_may rfl | with_reducible exact same_rfl) | split
    | (simp only [↓inv_mk]; with_reducible apply inv_parts ha)

theorem keeps_Dev_setClk {d0 : Dev} {x1 : Clock} (ha : Q.allows 32772) (h0 : Inv Q d0) : Inv Q (Dev.setClk d0 x1) := by
  unfold Dev.setClk
  try extract_lets
  repeat' first
    | with_reducible assumption | with_reducible exact ha.sub rfl | with_reducible exact still_rfl
    | (with_reducible apply Lit.mk <;> first | exact same_may rfl | with_reducible exact same_rfl)
    | with_reducible apply keeps_Dev_pmc | (simp only [↓inv_mk]; with_reducible apply inv_parts ha)

theorem keeps_Dev_after {d0 : Dev} {x1 : Nat} (ha : Q.allows 32772) (h0 : Inv Q d0) : Inv Q (Dev.after d0 x1) := by
  unfold Dev.after
  try extract_lets
  repeat' first
    | with_reducible assumption | with_reducible apply keeps_Dev_setClk

theorem keeps_Dev_reach {d0 : Dev} {x1 : Nat} (ha : Q.allows 32772) (h0 : Inv Q d0) : Inv Q (Dev.reach d0 x1) := by
  unfold Dev.reach
  try extract_lets
  repeat' first
    | with_reducible assumption | with_reducible apply keeps_Dev_setClk

theorem keeps_Dev_reachUp {d0 : Dev} {x1 : Nat} (ha : Q.allows 32772) (h0 : Inv Q d0) : Inv Q (Dev.reachUp d0 x1) := by
  unfold Dev.reachUp
  try extract_lets
  repeat' first
    | with_reducible assumption | with_reducible apply keeps_Dev_after

theorem keeps_Dev_glnSend {d0 : Dev} (ha : Q.allows 16809985) (h0 : Inv Q d0) : Inv Q (Dev.glnSend d0) := by
  unfold Dev.glnSend
  try extract_lets
  repeat' first
    | with_reducible assumption | with_reducible exact ha.sub rfl | with_reducible exact still_rfl
    | (with_reducible apply Lit.mk <;> first | exact same_may rfl | with_reducible exact same_rfl)
    | with_reducible apply keeps_Dev_send | with_reducible apply keeps_Dev_wr | with_reducible apply keeps_Dev_pmc
    | extract_lets | split | (simp only [↓inv_mk]; with_reducible apply inv_parts ha)

theorem keeps_Dev_glnDrain {d0 : Dev} (ha : Q.allows 16809985) (h0 : Inv Q d0) : Inv Q (Dev.glnDrain d0) := by
  unfold Dev.glnDrain
  try extract_lets
  repeat' first
    | with_reducible assumption | with_reducible exact still_rfl
    | (with_reducible apply Lit.mk <;> first | exact same_may rfl | with_reducible exact same_rfl)
    | with_reducible apply keeps_Dev_glnSend | intro _ _ _ | extract_lets | split
    | (simp only [↓inv_mk]; with_reducible apply inv_parts ha) | with_reducible apply inv_foldl

theorem keeps_Dev_trace {d0 : Dev} {x1 : GRec} (ha : Q.allows 16809985) (h0 : Inv Q d0) : Inv Q (Dev.trace d0 x1) := by
  unfold Dev.trace
  try extract_lets
  repeat' first
    | with_reducible assumption | with_reducible exact ha.sub rfl | with_reducible exact still_rfl
    | (with_reducible apply Lit.mk <;> first | exact same_may rfl | with_reducible exact same_rfl)
    | with_reducible apply keeps_Dev_glnDrain | with_reducible apply keeps_Dev_bump | split
    | (simp only [↓inv_mk]; with_reducible apply inv_parts ha)

theorem keeps_Dev_traceOwn {d0 : Dev} {x1 : Nat} {x2 : Nat} {x3 : Nat} {x4 : List Byte} (ha : Q.allows 16809985) (h0 : Inv Q d0) : Inv Q (Dev.traceOwn d0 x1 x2 x3 x4) := by
  unfold Dev.traceOwn
  try extract_lets
  repeat' first
    | with_reducible assumption | with_reducible exact still_rfl
    | (with_reducible apply Lit.mk <;> first | exact same_may rfl | with_reducible exact same_rfl)
    | with_reducible apply keeps_Dev_trace | extract_lets | (simp only [↓inv_mk]; with_reducible apply inv_parts ha)
    | dsimp +zetaDelta only

theorem keeps_Dev_setRing {d0 : Dev} {x1 : Nat} {x2 : RingSt → RingSt} (ha : Q.allows 16) (h0 : Inv Q d0) : Inv Q (Dev.setRing d0 x1 x2) := by
  unfold Dev.setRing
  try extract_lets
  repeat' first
    | with_reducible assumption | with_reducible exact still_rfl
    | (with_reducible apply Lit.mk <;> first | exact same_may rfl | with_reducible exact same_rfl)
    | (simp only [↓inv_mk]; with_reducible apply inv_parts ha)

theorem keeps_Dev_kSend {d0 : Dev} {x1 : KFrame} (ha : Q.allows 4718592) (h0 : Inv Q d0) : Inv Q (Dev.kSend d0 x1) := by
  unfold Dev.kSend
  try extract_lets
  repeat' first
    | with_reducible assumption | with_reducible exact still_rfl
    | (with_reducible apply Lit.mk <;> first | exact same_may rfl | with_reducible exact same_rfl)
    | (simp only [↓inv_mk]; with_reducible apply inv_parts ha)

theorem keeps_Dev_relayEntry {d0 : Dev} {x1 : Nat} {x2 : List Byte} (ha : Q.allows 4718592) (h0 : Inv Q d0) : Inv Q (Dev.relayEntry d0 x1 x2) := by
  unfold Dev.relayEntry
  try extract_lets
  repeat' first
    | with_reducible assumption | with_reducible apply keeps_Dev_kSend | split | dsimp +zetaDelta only

theorem keeps_Dev_entryWritten {d0 : Dev} {x1 : Nat} (ha : Q.allows 16777232) (h0 : Inv Q d0) : Inv Q (Dev.entryWritten d0 x1) := by
  unfold Dev.entryWritten
  try extract_lets
  repeat' first
    | with_reducible assumption | with_reducible exact ha.sub rfl | with_reducible apply keeps_Dev_setRing
    | with_reducible apply keeps_Dev_msix | split

theorem keeps_Dev_sendWaiting {d0 : Dev} (ha : Q.allows 16777232) (h0 : Inv Q d0) : Inv Q (Dev.sendWaiting d0) := by
  unfold Dev.sendWaiting
  try extract_lets
  repeat' first
    | with_reducible assumption | with_reducible exact ha.sub rfl | with_reducible exact still_rfl
    | (with_reducible apply Lit.mk <;> first | exact same_may rfl | with_reducible exact same_rfl)
    | with_reducible apply keeps_Dev_send | with_reducible apply keeps_Dev_entryWritten | intro _ _ _ | extract_lets
    | split | (simp only [↓inv_mk]; with_reducible apply inv_parts ha) | with_reducible apply inv_foldl

theorem keeps_Dev_putEntry {d0 : Dev} {x1 : Nat} {x2 : Nat} {x3 : Nat} {x4 : Nat → List Byte} (ha : Q.allows 21528593) (h0 : Inv Q d0) : Inv Q (Dev.putEntry d0 x1 x2 x3 x4) := by
  unfold Dev.putEntry
  try extract_lets
  repeat' first
    | with_reducible assumption | with_reducible exact ha.sub rfl | with_reducible apply keeps_Dev_relayEntry
    | with_reducible apply keeps_Dev_dma | with_reducible apply keeps_Dev_wr | with_reducible apply keeps_Dev_traceOwn
    | with_reducible apply keeps_Dev_pmc | with_reducible apply keeps_Dev_entryWritten | extract_lets | split
    | dsimp +zetaDelta only

theorem keeps_Dev_flushLost {d0 : Dev} (ha : Q.allows 55083033) (h0 : Inv Q d0) : Inv Q (Dev.flushLost d0) := by
  unfold Dev.flushLost
  try extract_lets
  repeat' first
    | with_reducible assumption | with_reducible exact ha.sub rfl | with_reducible exact still_rfl
    | (with_reducible apply Lit.mk <;> first | exact same_may rfl | with_reducible exact same_rfl)
    | with_reducible apply keeps_Dev_setRing | with_reducible apply keeps_Dev_countSlot
    | with_reducible apply keeps_Dev_putEntry | split | (simp only [↓inv_mk]; with_reducible apply inv_parts ha)

theorem keeps_Dev_putEvent {d0 : Dev} {x1 : Event} (ha : Q.allows 55083033) (h0 : Inv Q d0) : Inv Q (Dev.putEvent d0 x1) := by
  unfold Dev.putEvent
  try extract_lets
  repeat' first
    | with_reducible assumption | with_reducible exact ha.sub rfl | with_reducible apply keeps_Dev_flushLost
    | with_reducible apply keeps_Dev_putEntry | with_reducible apply keeps_Dev_setRing
    | with_reducible apply keeps_Dev_bump | split

theorem keeps_Dev_eventAt {d0 : Dev} {x1 : Stamp} {x2 : Nat} {x3 : List Byte} (ha : Q.allows 55083033) (h0 : Inv Q d0) : Inv Q (Dev.eventAt d0 x1 x2 x3) := by
  unfold Dev.eventAt
  try extract_lets
  repeat' first
    | with_reducible assumption | with_reducible exact ha.sub rfl | with_reducible exact still_rfl
    | (with_reducible apply Lit.mk <;> first | exact same_may rfl | with_reducible exact same_rfl)
    | with_reducible apply keeps_Dev_trace | with_reducible apply keeps_Dev_putEvent | extract_lets | split
    | (simp only [↓inv_mk]; with_reducible apply inv_parts ha) | dsimp +zetaDelta only

theorem keeps_Dev_event {d0 : Dev} {x1 : Nat} {x2 : List Byte} (ha : Q.allows 55083033) (h0 : Inv Q d0) : Inv Q (Dev.event d0 x1 x2) := by
  unfold Dev.event
  try extract_lets
  repeat' first
    | with_reducible assumption | with_reducible exact ha.sub rfl | with_reducible apply keeps_Dev_eventAt
    | with_reducible apply keeps_Dev_countSlot

theorem keeps_Dev_eventLim {d0 : Dev} {x1 : Nat} {x2 : Nat} {x3 : List Byte} (ha : Q.allows 55083033) (h0 : Inv Q d0) : Inv Q (Dev.eventLim d0 x1 x2 x3) := by
  unfold Dev.eventLim
  try extract_lets
  repeat' first
    | with_reducible assumption | with_reducible exact still_rfl
    | (with_reducible apply Lit.mk <;> first | exact same_may rfl | with_reducible exact same_rfl)
    | with_reducible apply keeps_Dev_event | extract_lets | split
    | (simp only [↓inv_mk]; with_reducible apply inv_parts ha)

theorem keeps_Dev_putOrLose {d0 : Dev} {x1 : Nat} {x2 : Nat → List Byte} (ha : Q.allows 21528593) (h0 : Inv Q d0) : Inv Q (Dev.putOrLose d0 x1 x2) := by
  unfold Dev.putOrLose
  try extract_lets
  repeat' first
    | with_reducible assumption | with_reducible exact ha.sub rfl | with_reducible apply keeps_Dev_putEntry
    | with_reducible apply keeps_Dev_bump | split

theorem keeps_Dev_completeAt {d0 : Dev} {x1 : Stamp} {x2 : Desc} {x3 : Nat} {x4 : List Byte} {x5 : optParam Nat 0} (ha : Q.allows 21528593) (h0 : Inv Q d0) : Inv Q (Dev.completeAt d0 x1 x2 x3 x4 x5) := by
  unfold Dev.completeAt
  try extract_lets
  repeat' first
    | with_reducible assumption | with_reducible exact ha.sub rfl | with_reducible exact still_rfl
    | (with_reducible apply Lit.mk <;> first | exact same_may rfl | with_reducible exact same_rfl)
    | with_reducible apply keeps_Dev_kSend | with_reducible apply keeps_Dev_setRing
    | with_reducible apply keeps_Dev_putEntry | extract_lets | split
    | (simp only [↓inv_mk]; with_reducible apply inv_parts ha) | dsimp +zetaDelta only

theorem keeps_Dev_complete {d0 : Dev} {x1 : Desc} {x2 : Nat} {x3 : List Byte} {x4 : optParam Nat 0} (ha : Q.allows 21528601) (h0 : Inv Q d0) : Inv Q (Dev.complete d0 x1 x2 x3 x4) := by
  unfold Dev.complete
  try extract_lets
  repeat' first
    | with_reducible assumption | with_reducible exact ha.sub rfl | with_reducible apply keeps_Dev_completeAt
    | with_reducible apply keeps_Dev_countSlot

theorem keeps_Dev_reject {d0 : Dev} {x1 : Desc} {x2 : Nat} (ha : Q.allows 21528601) (h0 : Inv Q d0) : Inv Q (Dev.reject d0 x1 x2) := by
  unfold Dev.reject
  try extract_lets
  repeat' first
    | with_reducible assumption | with_reducible apply keeps_Dev_complete

theorem keeps_Dev_ldgAdd {d0 : Dev} {x1 : Nat} {x2 : Nat} {x3 : Int} (ha : Q.allows 64) (h0 : Inv Q d0) : Inv Q (Dev.ldgAdd d0 x1 x2 x3) := by
  unfold Dev.ldgAdd
  try extract_lets
  repeat' first
    | with_reducible assumption | with_reducible exact still_rfl
    | (with_reducible apply Lit.mk <;> first | exact same_may rfl | with_reducible exact same_rfl) | split
    | (simp only [↓inv_mk]; with_reducible apply inv_parts ha)

theorem keeps_Dev_ldgStroke {d0 : Dev} {x1 : Nat} {x2 : Nat} {x3 : Int} (ha : Q.allows 64) (h0 : Inv Q d0) : Inv Q (Dev.ldgStroke d0 x1 x2 x3) := by
  unfold Dev.ldgStroke
  try extract_lets
  repeat' first
    | with_reducible assumption | with_reducible apply keeps_Dev_ldgAdd | split

theorem keeps_Dev_updLayer {d0 : Dev} {x1 : Nat} {x2 : Layer → Layer} (ha : Q.allows 32) (h0 : Inv Q d0) : Inv Q (Dev.updLayer d0 x1 x2) := by
  unfold Dev.updLayer
  try extract_lets
  repeat' first
    | with_reducible assumption | with_reducible exact still_rfl
    | (with_reducible apply Lit.mk <;> first | exact same_may rfl | with_reducible exact same_rfl)
    | (simp only [↓inv_mk]; with_reducible apply inv_parts ha)

theorem keeps_Dev_updStroke {d0 : Dev} {x1 : Nat} {x2 : Stroke → Stroke} (ha : Q.allows 32) (h0 : Inv Q d0) : Inv Q (Dev.updStroke d0 x1 x2) := by
  unfold Dev.updStroke
  try extract_lets
  repeat' first
    | with_reducible assumption | with_reducible exact still_rfl
    | (with_reducible apply Lit.mk <;> first | exact same_may rfl | with_reducible exact same_rfl)
    | (simp only [↓inv_mk]; with_reducible apply inv_parts ha)

theorem keeps_Dev_updPortion {d0 : Dev} {x1 : Nat} {x2 : Portion → Portion} (ha : Q.allows 32) (h0 : Inv Q d0) : Inv Q (Dev.updPortion d0 x1 x2) := by
  unfold Dev.updPortion
  try extract_lets
  repeat' first
    | with_reducible assumption | with_reducible exact still_rfl
    | (with_reducible apply Lit.mk <;> first | exact same_may rfl | with_reducible exact same_rfl)
    | (simp only [↓inv_mk]; with_reducible apply inv_parts ha)

theorem keeps_Dev_setTim {d0 : Dev} {x1 : Tim → Tim} (ha : Q.allows 1048576) (h0 : Inv Q d0) : Inv Q (Dev.setTim d0 x1) := by
  unfold Dev.setTim
  try extract_lets
  repeat' first
    | with_reducible assumption | with_reducible exact still_rfl
    | (with_reducible apply Lit.mk <;> first | exact same_may rfl | with_reducible exact same_rfl)
    | (simp only [↓inv_mk]; with_reducible apply inv_parts ha)

theorem keeps_Dev_setRate {d0 : Dev} {x1 : Int} (ha : Q.allows 4) (h0 : Inv Q d0) : Inv Q (Dev.setRate d0 x1) := by
  unfold Dev.setRate
  try extract_lets
  repeat' first
    | with_reducible assumption | with_reducible exact still_rfl
    | (with_reducible apply Lit.mk <;> first | exact same_may rfl | with_reducible exact same_rfl)
    | (simp only [↓inv_mk]; with_reducible apply inv_parts ha)

theorem keeps_Dev_timeRole {d0 : Dev} (ha : Q.allows 1048580) (h0 : Inv Q d0) : Inv Q (Dev.timeRole d0) := by
  unfold Dev.timeRole
  try extract_lets
  repeat' first
    | with_reducible assumption | with_reducible exact ha.sub rfl | with_reducible apply keeps_Dev_setRate
    | with_reducible apply keeps_Dev_setTim | split

theorem keeps_Dev_draw {d0 : Dev} (ha : Q.allows 8) (h0 : Inv Q d0) : Inv2 Q (Dev.draw d0) := by
  unfold Dev.draw
  try extract_lets
  repeat' first
    | with_reducible assumption | with_reducible exact still_rfl
    | (with_reducible apply Lit.mk <;> first | exact same_may rfl | with_reducible exact same_rfl) | extract_lets
    | (simp only [↓inv_mk]; with_reducible apply inv_parts ha) | with_reducible apply inv2_mk

end Sys2Proof.Laws
end

