-- ==== Sys2Proof/Laws/Keeps/Motion.lean ====
section
/-!
SUPPORT. What Motion does keeps the invariant.
-/
namespace Sys2Proof.Laws
open Sys2Proof Sys2Proof.Machine
set_option linter.unusedVariables false
variable {Q : Scope}

theorem keeps_Dev_endRun {d0 : Dev} (ha : Q.allows 2147483776) (h0 : Inv Q d0) : Inv Q (Dev.endRun d0) := by
  unfold Dev.endRun
  try extract_lets
  repeat' first
    | with_reducible assumption | with_reducible exact still_rfl
    | (with_reducible apply Lit.mk <;> first | exact same_may rfl | with_reducible exact same_rfl)
    | (simp only [↓inv_mk]; with_reducible apply inv_parts ha)

theorem keeps_Dev_trigger {d0 : Dev} {x1 : Want} (ha : Q.allows 1099511627784) (h0 : Inv Q d0) : Inv Q (Dev.trigger d0 x1) := by
  unfold Dev.trigger
  try extract_lets
  repeat' first
    | with_reducible assumption | with_reducible exact still_rfl
    | (with_reducible apply Lit.mk <;> first | exact same_may rfl | with_reducible exact same_rfl)
    | (simp only [↓inv_mk]; with_reducible apply inv_parts ha)

theorem keeps_Dev_triggerNext {d0 : Dev} {x1 : Want} (ha : Q.allows 1099511627784) (h0 : Inv Q d0) : Inv Q (Dev.triggerNext d0 x1) := by
  unfold Dev.triggerNext
  try extract_lets
  repeat' first
    | with_reducible assumption | with_reducible exact still_rfl
    | (with_reducible apply Lit.mk <;> first | exact same_may rfl | with_reducible exact same_rfl)
    | (simp only [↓inv_mk]; with_reducible apply inv_parts ha)

end Sys2Proof.Laws
end

