-- ==== Sys2Proof/Laws/Keeps/Memory.lean ====
section
/-!
SUPPORT. What Memory does keeps the invariant.
-/
namespace Sys2Proof.Laws
open Sys2Proof Sys2Proof.Machine
set_option linter.unusedVariables false
variable {Q : Scope}

theorem keeps_Dev_touchRow {d0 : Dev} {x1 : Nat} {x2 : Bool} (ha : Q.allows 294912) (h0 : Inv Q d0) : Inv Q (Dev.touchRow d0 x1 x2) := by
  unfold Dev.touchRow
  try extract_lets
  repeat' first
    | with_reducible assumption | with_reducible exact ha.sub rfl | with_reducible exact still_rfl
    | (with_reducible apply Lit.mk <;> first | exact same_may rfl | with_reducible exact same_rfl)
    | with_reducible apply keeps_Dev_pmc | extract_lets | split
    | (simp only [↓inv_mk]; with_reducible apply inv_parts ha) | dsimp +zetaDelta only

theorem keeps_Dev_eccEvent {d0 : Dev} {x1 : Nat} {x2 : Nat} {x3 : Nat} {x4 : Bool} {x5 : List Byte} (ha : Q.allows 55083033) (h0 : Inv Q d0) : Inv Q (Dev.eccEvent d0 x1 x2 x3 x4 x5) := by
  unfold Dev.eccEvent
  try extract_lets
  repeat' first
    | with_reducible assumption | with_reducible exact ha.sub rfl | with_reducible exact still_rfl
    | (with_reducible apply Lit.mk <;> first | exact same_may rfl | with_reducible exact same_rfl)
    | with_reducible apply keeps_Dev_event | with_reducible apply keeps_Dev_msix | extract_lets | split
    | (simp only [↓inv_mk]; with_reducible apply inv_parts ha)

theorem keeps_Dev_ueLog {d0 : Dev} {x1 : Nat} {x2 : Nat} {x3 : Nat} {x4 : Bool} {x5 : Bool} {x6 : Bool} (ha : Q.allows 1) (h0 : Inv Q d0) : Inv Q (Dev.ueLog d0 x1 x2 x3 x4 x5 x6) := by
  unfold Dev.ueLog
  try extract_lets
  repeat' first
    | with_reducible assumption | with_reducible apply keeps_Dev_wr | split

theorem keeps_Dev_ceNote {d0 : Dev} {x1 : Nat} {x2 : Nat} {x3 : Nat} {x4 : Bool} {x5 : Bool} (ha : Q.allows 55083033) (h0 : Inv Q d0) : Inv Q (Dev.ceNote d0 x1 x2 x3 x4 x5) := by
  unfold Dev.ceNote
  try extract_lets
  repeat' first
    | with_reducible assumption | with_reducible exact ha.sub rfl | with_reducible apply keeps_Dev_bump
    | with_reducible apply keeps_Dev_wr | with_reducible apply keeps_Dev_eccEvent | split

theorem keeps_Dev_ueNote {d0 : Dev} {x1 : Nat} {x2 : Nat} {x3 : Nat} {x4 : Bool} {x5 : Bool} (ha : Q.allows 55083033) (h0 : Inv Q d0) : Inv Q (Dev.ueNote d0 x1 x2 x3 x4 x5) := by
  unfold Dev.ueNote
  try extract_lets
  repeat' first
    | with_reducible assumption | with_reducible exact ha.sub rfl | with_reducible apply keeps_Dev_eccEvent
    | with_reducible apply keeps_Dev_ueLog | with_reducible apply keeps_Dev_bump

theorem keeps_Dev_unwrNote {d0 : Dev} {x1 : Nat} {x2 : Nat} {x3 : Bool} (ha : Q.allows 55083033) (h0 : Inv Q d0) : Inv Q (Dev.unwrNote d0 x1 x2 x3) := by
  unfold Dev.unwrNote
  try extract_lets
  repeat' first
    | with_reducible assumption | with_reducible exact ha.sub rfl | with_reducible apply keeps_Dev_eccEvent
    | with_reducible apply keeps_Dev_ueLog | with_reducible apply keeps_Dev_bump

theorem keeps_Dev_upsetNote {d0 : Dev} {x1 : Upset} (ha : Q.allows 55083033) (h0 : Inv Q d0) : Inv Q (Dev.upsetNote d0 x1) := by
  unfold Dev.upsetNote
  try extract_lets
  repeat' first
    | with_reducible assumption | with_reducible apply keeps_Dev_ceNote | with_reducible apply keeps_Dev_ueNote
    | split

theorem keeps_Dev_upsetNotes {d0 : Dev} {x1 : List Upset} (ha : Q.allows 55083033) (h0 : Inv Q d0) : Inv Q (Dev.upsetNotes d0 x1) := by
  unfold Dev.upsetNotes
  try extract_lets
  repeat' first
    | with_reducible assumption | with_reducible apply keeps_Dev_upsetNote | intro _ _ _ | extract_lets
    | with_reducible apply inv_foldl

theorem keeps_Dev_sramBad {d0 : Dev} {x1 : Nat} (ha : Q.allows 55083033) (h0 : Inv Q d0) : Inv Q (Dev.sramBad d0 x1) := by
  unfold Dev.sramBad
  try extract_lets
  repeat' first
    | with_reducible assumption | with_reducible exact ha.sub rfl | with_reducible apply keeps_Dev_draw
    | with_reducible apply keeps_Dev_ueNote | extract_lets | with_reducible apply inv_snd

theorem keeps_Dev_readWord {d0 : Dev} {x1 : Nat} (ha : Q.allows 55410713) (h0 : Inv Q d0) : Inv2 Q (Dev.readWord d0 x1) := by
  unfold Dev.readWord
  try extract_lets
  repeat' first
    | with_reducible assumption | with_reducible exact ha.sub rfl | with_reducible apply keeps_Dev_touchRow
    | with_reducible apply keeps_Dev_unwrNote | with_reducible apply keeps_Dev_putWord
    | with_reducible apply keeps_Dev_ceNote | with_reducible apply keeps_Dev_ueNote | extract_lets | split
    | with_reducible apply inv2_mk

theorem keeps_Dev_writeWord {d0 : Dev} {x1 : Nat} {x2 : Nat} {x3 : Bool} (ha : Q.allows 360448) (h0 : Inv Q d0) : Inv Q (Dev.writeWord d0 x1 x2 x3) := by
  unfold Dev.writeWord
  try extract_lets
  repeat' first
    | with_reducible assumption | with_reducible exact ha.sub rfl | with_reducible apply keeps_Dev_putWord
    | with_reducible apply keeps_Dev_touchRow

theorem keeps_Dev_oor {d0 : Dev} {x1 : Rq} {x2 : Nat} {x3 : Bool} (ha : Q.allows 55083033) (h0 : Inv Q d0) : Inv Q (Dev.oor d0 x1 x2 x3) := by
  unfold Dev.oor
  try extract_lets
  repeat' first
    | with_reducible assumption | with_reducible exact ha.sub rfl | with_reducible apply keeps_Dev_event
    | with_reducible apply keeps_Dev_bump

theorem keeps_Dev_oorAll {d0 : Dev} {x1 : Rq} {x2 : Bool} {x3 : Nat} {x4 : Nat} (ha : Q.allows 55083033) (h0 : Inv Q d0) : Inv Q (Dev.oorAll d0 x1 x2 x3 x4) := by
  induction x4 generalizing d0 x1 x2 x3 with
  | zero =>
    unfold Dev.oorAll
    try extract_lets
    repeat' first
      | with_reducible assumption
  | succ n ih =>
    unfold Dev.oorAll
    try extract_lets
    repeat' first
      | with_reducible assumption | with_reducible apply ih | with_reducible apply keeps_Dev_oor

theorem keeps_Dev_readWords {d0 : Dev} {x1 : List Nat} (ha : Q.allows 55410713) (h0 : Inv Q d0) : Inv2 Q (Dev.readWords d0 x1) := by
  induction x1 generalizing d0 with
  | nil =>
    unfold Dev.readWords
    try extract_lets
    repeat' first
      | with_reducible assumption | with_reducible apply inv2_mk
  | cons x l ih =>
    unfold Dev.readWords
    try extract_lets
    repeat' first
      | with_reducible assumption | with_reducible apply ih | with_reducible apply keeps_Dev_readWord | extract_lets
      | split | with_reducible apply inv2_mk | with_reducible refine inv_eq2 (by assumption) ?_

theorem keeps_Dev_oorPast {d0 : Dev} {x1 : Rq} {x2 : Bool} {x3 : Nat} {x4 : Nat} (ha : Q.allows 55083033) (h0 : Inv Q d0) : Inv Q (Dev.oorPast d0 x1 x2 x3 x4) := by
  unfold Dev.oorPast
  try extract_lets
  repeat' first
    | with_reducible assumption | with_reducible apply keeps_Dev_oorAll

theorem keeps_Dev_readRange {d0 : Dev} {x1 : Rq} {x2 : Nat} {x3 : Nat} (ha : Q.allows 55410713) (h0 : Inv Q d0) : Inv2 Q (Dev.readRange d0 x1 x2 x3) := by
  unfold Dev.readRange
  try extract_lets
  repeat' first
    | with_reducible assumption | with_reducible exact ha.sub rfl | with_reducible apply keeps_Dev_pmc
    | with_reducible apply keeps_Dev_readWords | extract_lets | split | with_reducible apply inv2_mk
    | with_reducible refine inv_eq2 (by assumption) ?_

theorem keeps_Dev_hbmRead {d0 : Dev} {x1 : Rq} {x2 : Nat} {x3 : Nat} (ha : Q.allows 55410713) (h0 : Inv Q d0) : Inv2 Q (Dev.hbmRead d0 x1 x2 x3) := by
  unfold Dev.hbmRead
  try extract_lets
  repeat' first
    | with_reducible assumption | with_reducible exact ha.sub rfl | with_reducible apply keeps_Dev_readRange
    | with_reducible apply keeps_Dev_oorPast | extract_lets | split | with_reducible apply inv2_mk
    | with_reducible refine inv_eq2 (by assumption) ?_

theorem keeps_Dev_readMarks {d0 : Dev} {x1 : List Nat} (ha : Q.allows 55410713) (h0 : Inv Q d0) : Inv2 Q (Dev.readMarks d0 x1) := by
  induction x1 generalizing d0 with
  | nil =>
    unfold Dev.readMarks
    try extract_lets
    repeat' first
      | with_reducible assumption | with_reducible apply inv2_mk
  | cons x l ih =>
    unfold Dev.readMarks
    try extract_lets
    repeat' first
      | with_reducible assumption | with_reducible apply ih | with_reducible apply keeps_Dev_readWord | extract_lets
      | split | with_reducible apply inv2_mk | with_reducible refine inv_eq2 (by assumption) ?_

theorem keeps_Dev_hbmWords {d0 : Dev} {x1 : Rq} {x2 : Nat} {x3 : Nat} (ha : Q.allows 55410713) (h0 : Inv Q d0) : Inv2 Q (Dev.hbmWords d0 x1 x2 x3) := by
  unfold Dev.hbmWords
  try extract_lets
  repeat' first
    | with_reducible assumption | with_reducible exact ha.sub rfl | with_reducible apply keeps_Dev_pmc
    | with_reducible apply keeps_Dev_readMarks | with_reducible apply keeps_Dev_oorPast | extract_lets | split
    | with_reducible apply inv2_mk | with_reducible refine inv_eq2 (by assumption) ?_ | dsimp +zetaDelta only

theorem keeps_Dev_mergeWord {d0 : Dev} {x1 : Nat} {x2 : Nat} {x3 : List Byte} {x4 : Bool} (ha : Q.allows 55410713) (h0 : Inv Q d0) : Inv Q (Dev.mergeWord d0 x1 x2 x3 x4) := by
  unfold Dev.mergeWord
  try extract_lets
  repeat' first
    | with_reducible assumption | with_reducible exact ha.sub rfl | with_reducible apply keeps_Dev_readWord
    | with_reducible apply keeps_Dev_writeWord | extract_lets | with_reducible apply inv_snd

theorem keeps_Dev_writeRun {d0 : Dev} {x1 : Nat} {x2 : List Byte} {x3 : Bool} {x4 : Nat} (ha : Q.allows 55410713) (h0 : Inv Q d0) : Inv Q (Dev.writeRun d0 x1 x2 x3 x4) := by
  induction x4 generalizing d0 x1 x2 x3 with
  | zero =>
    unfold Dev.writeRun
    try extract_lets
    repeat' first
      | with_reducible assumption
  | succ n ih =>
    unfold Dev.writeRun
    try extract_lets
    repeat' first
      | with_reducible assumption | with_reducible apply ih | with_reducible exact ha.sub rfl
      | with_reducible apply keeps_Dev_writeWord | with_reducible apply keeps_Dev_mergeWord | extract_lets | split
      | dsimp +zetaDelta only

theorem keeps_Dev_hbmWrite {d0 : Dev} {x1 : Rq} {x2 : Nat} {x3 : List Byte} {x4 : Bool} (ha : Q.allows 55410713) (h0 : Inv Q d0) : Inv Q (Dev.hbmWrite d0 x1 x2 x3 x4) := by
  unfold Dev.hbmWrite
  try extract_lets
  repeat' first
    | with_reducible assumption | with_reducible exact ha.sub rfl | with_reducible apply keeps_Dev_writeRun
    | with_reducible apply keeps_Dev_pmc | with_reducible apply keeps_Dev_oorPast | extract_lets | split
    | dsimp +zetaDelta only

theorem keeps_Dev_writeWords {d0 : Dev} {x1 : Nat} {x2 : List (Nat × Bool)} (ha : Q.allows 360448) (h0 : Inv Q d0) : Inv Q (Dev.writeWords d0 x1 x2) := by
  induction x2 generalizing d0 x1 with
  | nil =>
    unfold Dev.writeWords
    try extract_lets
    repeat' first
      | with_reducible assumption
  | cons x l ih =>
    unfold Dev.writeWords
    try extract_lets
    repeat' first
      | with_reducible assumption | with_reducible apply ih | with_reducible apply keeps_Dev_writeWord

theorem keeps_Dev_hbmPut {d0 : Dev} {x1 : Rq} {x2 : Nat} {x3 : List (Nat × Bool)} (ha : Q.allows 55410713) (h0 : Inv Q d0) : Inv Q (Dev.hbmPut d0 x1 x2 x3) := by
  unfold Dev.hbmPut
  try extract_lets
  repeat' first
    | with_reducible assumption | with_reducible exact ha.sub rfl | with_reducible apply keeps_Dev_writeWords
    | with_reducible apply keeps_Dev_pmc | with_reducible apply keeps_Dev_oorPast | extract_lets | split
    | dsimp +zetaDelta only

end Sys2Proof.Laws
end

