-- ==== Sys2Proof/Laws/Keeps/Rings.lean ====
section
/-!
SUPPORT. What Rings does keeps the invariant.
-/
namespace Sys2Proof.Laws
open Sys2Proof Sys2Proof.Machine
set_option linter.unusedVariables false
variable {Q : Scope}

theorem keeps_Dev_begin0 {d0 : Dev} {x1 : Nat} (ha : Q.allows 17179869200) (h0 : Inv Q d0) : OptInv2 Q (Dev.begin0 d0 x1) := by
  unfold Dev.begin0
  try extract_lets
  repeat' first
    | with_reducible assumption | with_reducible exact still_rfl
    | (with_reducible apply Lit.mk <;> first | exact same_may rfl | with_reducible exact same_rfl) | extract_lets
    | split | (simp only [↓inv_mk]; with_reducible apply inv_parts ha) | with_reducible apply optInv2_some
    | with_reducible exact optInv2_none

theorem keeps_Dev_holdCmd {d0 : Dev} {x1 : Desc} (ha : Q.allows 17179869200) (h0 : Inv Q d0) : Inv Q (Dev.holdCmd d0 x1) := by
  unfold Dev.holdCmd
  try extract_lets
  repeat' first
    | with_reducible assumption | with_reducible exact still_rfl
    | (with_reducible apply Lit.mk <;> first | exact same_may rfl | with_reducible exact same_rfl)
    | (simp only [↓inv_mk]; with_reducible apply inv_parts ha)

theorem keeps_Dev_endCmd {d0 : Dev} {x1 : Desc} {x2 : Nat} {x3 : List Byte} (ha : Q.allows 17201397785) (h0 : Inv Q d0) : Inv Q (Dev.endCmd d0 x1 x2 x3) := by
  unfold Dev.endCmd
  try extract_lets
  repeat' first
    | with_reducible assumption | with_reducible exact ha.sub rfl | with_reducible exact still_rfl
    | (with_reducible apply Lit.mk <;> first | exact same_may rfl | with_reducible exact same_rfl)
    | with_reducible apply keeps_Dev_complete | extract_lets
    | (simp only [↓inv_mk]; with_reducible apply inv_parts ha)

theorem keeps_Dev_cmd0 {d : Dev} {op : Nat} {need : Bool} {f : Dev → Desc → Dev} (ha : Q.allows 17201397785) (h : Inv Q d)
    (hf : ∀ d x, Inv Q d → Inv Q (f d x)) : Inv Q (d.cmd0 op need f) := by
  unfold Dev.cmd0
  split
  · exact h
  · rename_i e
    have k := inv_some2 e (keeps_Dev_begin0 (ha.sub rfl) h)
    split
    · exact keeps_Dev_complete (ha.sub rfl) k
    · exact hf _ _ k

theorem keeps_Dev_dataPut {d0 : Dev} {x1 : Nat} {x2 : Nat} {x3 : List Byte} (ha : Q.allows 16810000) (h0 : Inv Q d0) : Inv Q (Dev.dataPut d0 x1 x2 x3) := by
  unfold Dev.dataPut
  try extract_lets
  repeat' first
    | with_reducible assumption | with_reducible exact ha.sub rfl | with_reducible apply keeps_Dev_setRing
    | with_reducible apply keeps_Dev_pmc | with_reducible apply keeps_Dev_dma

end Sys2Proof.Laws
end

