-- ==== Sys2Proof/Laws/Keeps/CalEnd.lean ====
section
/-!
SUPPORT. What CalEnd does keeps the invariant.
-/
namespace Sys2Proof.Laws
open Sys2Proof Sys2Proof.Machine
set_option linter.unusedVariables false
variable {Q : Scope}

theorem keeps_Dev_setCalTile {d0 : Dev} {x1 : Nat} {x2 : CalTile → CalTile} (ha : Q.allows 2048) (h0 : Inv Q d0) : Inv Q (Dev.setCalTile d0 x1 x2) := by
  unfold Dev.setCalTile
  try extract_lets
  repeat' first
    | with_reducible assumption | with_reducible exact still_rfl
    | (with_reducible apply Lit.mk <;> first | exact same_may rfl | with_reducible exact same_rfl)
    | (simp only [↓inv_mk]; with_reducible apply inv_parts ha)

theorem keeps_Dev_setRun {d0 : Dev} {x1 : CalRun → CalRun} (ha : Q.allows 2048) (h0 : Inv Q d0) : Inv Q (Dev.setRun d0 x1) := by
  unfold Dev.setRun
  try extract_lets
  repeat' first
    | with_reducible assumption | with_reducible exact still_rfl
    | (with_reducible apply Lit.mk <;> first | exact same_may rfl | with_reducible exact same_rfl)
    | (simp only [↓inv_mk]; with_reducible apply inv_parts ha)

theorem keeps_Dev_setRunTile {d0 : Dev} {x1 : Nat} {x2 : CalTileRun → CalTileRun} (ha : Q.allows 2048) (h0 : Inv Q d0) : Inv Q (Dev.setRunTile d0 x1 x2) := by
  unfold Dev.setRunTile
  try extract_lets
  repeat' first
    | with_reducible assumption | with_reducible apply keeps_Dev_setRun

theorem keeps_Dev_calComplete {d0 : Dev} {x1 : CalReq} {x2 : Nat} {x3 : List Byte} (ha : Q.allows 21528601) (h0 : Inv Q d0) : Inv Q (Dev.calComplete d0 x1 x2 x3) := by
  unfold Dev.calComplete
  try extract_lets
  repeat' first
    | with_reducible assumption | with_reducible apply keeps_Dev_complete | split

theorem keeps_Dev_calReject {d0 : Dev} {x1 : CalReq} {x2 : Nat} (ha : Q.allows 21528601) (h0 : Inv Q d0) : Inv Q (Dev.calReject d0 x1 x2) := by
  unfold Dev.calReject
  try extract_lets
  repeat' first
    | with_reducible assumption | with_reducible apply keeps_Dev_reject | split

theorem keeps_Dev_calFinish {d0 : Dev} {x1 : CalRun} {x2 : Nat} {x3 : Nat} {x4 : Nat} {x5 : Nat → Nat} (ha : Q.allows 55085081) (h0 : Inv Q d0) : Inv Q (Dev.calFinish d0 x1 x2 x3 x4 x5) := by
  unfold Dev.calFinish
  try extract_lets
  repeat' first
    | with_reducible assumption | with_reducible exact ha.sub rfl | with_reducible exact still_rfl
    | (with_reducible apply Lit.mk <;> first | exact same_may rfl | with_reducible exact same_rfl)
    | with_reducible apply keeps_Dev_event | with_reducible apply keeps_Dev_calComplete | extract_lets
    | (simp only [↓inv_mk]; with_reducible apply inv_parts ha) | dsimp +zetaDelta only

theorem keeps_Dev_calAbandon {d0 : Dev} (ha : Q.allows 55085209) (h0 : Inv Q d0) : Inv Q (Dev.calAbandon d0) := by
  unfold Dev.calAbandon
  try extract_lets
  repeat' first
    | with_reducible assumption | with_reducible exact ha.sub rfl | with_reducible exact still_rfl
    | (with_reducible apply Lit.mk <;> first | exact same_may rfl | with_reducible exact same_rfl)
    | with_reducible apply keeps_Dev_calFinish | extract_lets | split
    | (simp only [↓inv_mk]; with_reducible apply inv_parts ha) | dsimp +zetaDelta only

end Sys2Proof.Laws
end

