-- ==== Sys2Proof/Laws/Keeps/Engine.lean ====
section
/-!
SUPPORT. What Engine does keeps the invariant.
-/
namespace Sys2Proof.Laws
open Sys2Proof Sys2Proof.Machine
set_option linter.unusedVariables false
variable {Q : Scope}

theorem keeps_Dev_setChan {d0 : Dev} {x1 : Nat} {x2 : Chan → Chan} (ha : Q.allows 131072) (h0 : Inv Q d0) : Inv Q (Dev.setChan d0 x1 x2) := by
  unfold Dev.setChan
  try extract_lets
  repeat' first
    | with_reducible assumption | with_reducible exact still_rfl
    | (with_reducible apply Lit.mk <;> first | exact same_may rfl | with_reducible exact same_rfl)
    | (simp only [↓inv_mk]; with_reducible apply inv_parts ha)

theorem keeps_Dev_setUnit {d0 : Dev} {x1 : Nat} {x2 : ChkUnit → ChkUnit} (ha : Q.allows 131072) (h0 : Inv Q d0) : Inv Q (Dev.setUnit d0 x1 x2) := by
  unfold Dev.setUnit
  try extract_lets
  repeat' first
    | with_reducible assumption | with_reducible exact still_rfl
    | (with_reducible apply Lit.mk <;> first | exact same_may rfl | with_reducible exact same_rfl)
    | (simp only [↓inv_mk]; with_reducible apply inv_parts ha)

theorem keeps_Dev_chanDone {d0 : Dev} {x1 : Nat} (ha : Q.allows 17201397785) (h0 : Inv Q d0) : Inv Q (Dev.chanDone d0 x1) := by
  unfold Dev.chanDone
  try extract_lets
  repeat' first
    | with_reducible assumption | with_reducible exact ha.sub rfl | with_reducible exact still_rfl
    | (with_reducible apply Lit.mk <;> first | exact same_may rfl | with_reducible exact same_rfl)
    | with_reducible apply keeps_Dev_complete | extract_lets | split
    | (simp only [↓inv_mk]; with_reducible apply inv_parts ha)

theorem keeps_Dev_stopChan {d0 : Dev} {x1 : Nat} {x2 : Nat} (ha : Q.allows 17235083289) (h0 : Inv Q d0) : Inv Q (Dev.stopChan d0 x1 x2) := by
  unfold Dev.stopChan
  try extract_lets
  repeat' first
    | with_reducible assumption | with_reducible exact ha.sub rfl | with_reducible apply keeps_Dev_setChan
    | with_reducible apply keeps_Dev_event | with_reducible apply keeps_Dev_chanDone

theorem keeps_Dev_chanNext {d0 : Dev} {x1 : Nat} (ha : Q.allows 131072) (h0 : Inv Q d0) : Inv Q (Dev.chanNext d0 x1) := by
  unfold Dev.chanNext
  try extract_lets
  repeat' first
    | with_reducible assumption | with_reducible apply keeps_Dev_setChan

theorem keeps_Dev_unclaim {d0 : Dev} {x1 : Nat} (ha : Q.allows 131072) (h0 : Inv Q d0) : Inv Q (Dev.unclaim d0 x1) := by
  unfold Dev.unclaim
  try extract_lets
  repeat' first
    | with_reducible assumption | with_reducible apply keeps_Dev_setUnit | with_reducible apply keeps_Dev_setChan
    | extract_lets | split | dsimp +zetaDelta only

theorem keeps_Dev_readMarked {d0 : Dev} {x1 : List Nat} (ha : Q.allows 55410713) (h0 : Inv Q d0) : Inv2 Q (Dev.readMarked d0 x1) := by
  induction x1 generalizing d0 with
  | nil =>
    unfold Dev.readMarked
    try extract_lets
    repeat' first
      | with_reducible assumption | with_reducible apply inv2_mk
  | cons x l ih =>
    unfold Dev.readMarked
    try extract_lets
    repeat' first
      | with_reducible assumption | with_reducible apply ih | with_reducible apply keeps_Dev_readWord | extract_lets
      | split | with_reducible apply inv2_mk | with_reducible refine inv_eq2 (by assumption) ?_

theorem keeps_Dev_srcAccess {d0 : Dev} {x1 : Nat} {x2 : Bool × Int} {x3 : Nat} {x4 : List Byte} (ha : Q.allows 55410713) (h0 : Inv Q d0) : Inv2 Q (Dev.srcAccess d0 x1 x2 x3 x4) := by
  unfold Dev.srcAccess
  try extract_lets
  repeat' first
    | with_reducible assumption | with_reducible exact ha.sub rfl | with_reducible apply keeps_Dev_pmc
    | with_reducible apply keeps_Dev_readMarked | extract_lets | split | with_reducible apply inv2_mk
    | with_reducible refine inv_eq2 (by assumption) ?_

theorem keeps_Dev_writeMarked {d0 : Dev} {x1 : Nat} {x2 : List (Byte × Bool)} {x3 : Nat} (ha : Q.allows 55410713) (h0 : Inv Q d0) : Inv Q (Dev.writeMarked d0 x1 x2 x3) := by
  induction x3 generalizing d0 x1 x2 with
  | zero =>
    unfold Dev.writeMarked
    try extract_lets
    repeat' first
      | with_reducible assumption
  | succ n ih =>
    unfold Dev.writeMarked
    try extract_lets
    repeat' first
      | with_reducible assumption | with_reducible apply ih | with_reducible exact ha.sub rfl
      | with_reducible apply keeps_Dev_writeWord | with_reducible apply keeps_Dev_mergeWord | extract_lets | split
      | dsimp +zetaDelta only

theorem keeps_Dev_dstAccess {d0 : Dev} {x1 : Nat} {x2 : Bool × Int} {x3 : List (Byte × Bool)} (ha : Q.allows 55541785) (h0 : Inv Q d0) : Inv Q (Dev.dstAccess d0 x1 x2 x3) := by
  unfold Dev.dstAccess
  try extract_lets
  repeat' first
    | with_reducible assumption | with_reducible exact ha.sub rfl | with_reducible apply keeps_Dev_setChan
    | with_reducible apply keeps_Dev_writeMarked | with_reducible apply keeps_Dev_pmc
    | with_reducible apply keeps_Dev_dma | extract_lets | split | dsimp +zetaDelta only

theorem keeps_Dev_moveGo {d0 : Dev} {x1 : Nat} {x2 : Bool × Int} {x3 : Bool × Int} {x4 : Nat} {x5 : Nat} {x6 : Nat} {x7 : List Byte} {x8 : Nat} {x9 : Nat} {x10 : Nat} {x11 : List (Byte × Bool)} (ha : Q.allows 55541785) (h0 : Inv Q d0) : Inv2 Q (Dev.moveGo d0 x1 x2 x3 x4 x5 x6 x7 x8 x9 x10 x11) := by
  induction x8 generalizing d0 x1 x2 x3 x4 x5 x6 x7 x9 x10 x11 with
  | zero =>
    unfold Dev.moveGo
    try extract_lets
    repeat' first
      | with_reducible assumption | with_reducible apply inv2_mk
  | succ n ih =>
    unfold Dev.moveGo
    try extract_lets
    repeat' first
      | with_reducible assumption | with_reducible apply ih | with_reducible exact ha.sub rfl
      | with_reducible apply keeps_Dev_dstAccess | with_reducible apply keeps_Dev_srcAccess | extract_lets | split
      | with_reducible apply inv2_mk | with_reducible apply inv_snd

theorem keeps_Dev_fillGo {d0 : Dev} {x1 : Nat} {x2 : Bool × Int} {x3 : Nat} {x4 : Nat} {x5 : Nat} {x6 : Nat} {x7 : Nat} (ha : Q.allows 55541785) (h0 : Inv Q d0) : Inv2 Q (Dev.fillGo d0 x1 x2 x3 x4 x5 x6 x7) := by
  induction x6 generalizing d0 x1 x2 x3 x4 x5 x7 with
  | zero =>
    unfold Dev.fillGo
    try extract_lets
    repeat' first
      | with_reducible assumption | with_reducible apply inv2_mk
  | succ n ih =>
    unfold Dev.fillGo
    try extract_lets
    repeat' first
      | with_reducible assumption | with_reducible apply ih | with_reducible apply keeps_Dev_dstAccess | split
      | with_reducible apply inv2_mk

theorem keeps_Dev_checkGo {d0 : Dev} {x1 : Nat} {x2 : Nat} {x3 : Bool × Int} {x4 : Nat} {x5 : Nat} {x6 : List Byte} {x7 : Nat} {x8 : Nat} (ha : Q.allows 55541785) (h0 : Inv Q d0) : Inv2 Q (Dev.checkGo d0 x1 x2 x3 x4 x5 x6 x7 x8) := by
  induction x7 generalizing d0 x1 x2 x3 x4 x5 x6 x8 with
  | zero =>
    unfold Dev.checkGo
    try extract_lets
    repeat' first
      | with_reducible assumption | with_reducible apply inv2_mk
  | succ n ih =>
    unfold Dev.checkGo
    try extract_lets
    repeat' first
      | with_reducible assumption | with_reducible apply ih | with_reducible exact ha.sub rfl
      | with_reducible apply keeps_Dev_srcAccess | with_reducible apply keeps_Dev_setUnit | extract_lets | split
      | with_reducible apply inv2_mk | with_reducible apply inv_snd

theorem keeps_Dev_checkInit {d0 : Dev} {x1 : Nat} {x2 : Nat} (ha : Q.allows 131072) (h0 : Inv Q d0) : Inv Q (Dev.checkInit d0 x1 x2) := by
  unfold Dev.checkInit
  try extract_lets
  repeat' first
    | with_reducible assumption | with_reducible apply keeps_Dev_setChan | with_reducible apply keeps_Dev_setUnit
    | with_reducible apply keeps_Dev_unclaim

theorem keeps_Dev_checkFinal {d0 : Dev} {x1 : Nat} {x2 : Nat} (ha : Q.allows 55214105) (h0 : Inv Q d0) : Inv2 Q (Dev.checkFinal d0 x1 x2) := by
  unfold Dev.checkFinal
  try extract_lets
  repeat' first
    | with_reducible assumption | with_reducible exact ha.sub rfl | with_reducible apply keeps_Dev_wr
    | with_reducible apply keeps_Dev_set | with_reducible apply keeps_Dev_event | with_reducible apply keeps_Dev_msix
    | with_reducible apply keeps_Dev_unclaim | extract_lets | split | with_reducible apply inv2_mk
    | dsimp +zetaDelta only

theorem keeps_Dev_fetchInstr {d0 : Dev} {x1 : Nat} {x2 : Nat} (ha : Q.allows 55410713) (h0 : Inv Q d0) : Inv2 Q (Dev.fetchInstr d0 x1 x2) := by
  unfold Dev.fetchInstr
  try extract_lets
  repeat' first
    | with_reducible assumption | with_reducible exact ha.sub rfl | with_reducible apply keeps_Dev_hbmRead
    | with_reducible apply keeps_Dev_pmc | extract_lets | split | with_reducible apply inv2_mk
    | with_reducible refine inv_eq2 (by assumption) ?_

theorem keeps_Dev_doPart {d0 : Dev} {x1 : ChPart} (ha : Q.allows 55541785) (h0 : Inv Q d0) : Inv Q (Dev.doPart d0 x1) := by
  unfold Dev.doPart
  try extract_lets
  repeat' first
    | with_reducible assumption | with_reducible exact ha.sub rfl | with_reducible apply keeps_Dev_fetchInstr
    | with_reducible apply keeps_Dev_moveGo | with_reducible apply keeps_Dev_fillGo
    | with_reducible apply keeps_Dev_checkInit | with_reducible apply keeps_Dev_setChan
    | with_reducible apply keeps_Dev_checkGo | with_reducible apply keeps_Dev_checkFinal | extract_lets | split
    | with_reducible apply inv_snd | with_reducible refine inv_eq2 (by assumption) ?_ | dsimp +zetaDelta only

theorem keeps_Dev_busError {d0 : Dev} {x1 : Nat} {x2 : Nat} {x3 : Nat} {x4 : List ChPart} (ha : Q.allows 17235410969) (h0 : Inv Q d0) : Inv Q (Dev.busError d0 x1 x2 x3 x4) := by
  unfold Dev.busError
  try extract_lets
  repeat' first
    | with_reducible assumption | with_reducible exact ha.sub rfl | with_reducible apply keeps_Dev_doPart
    | with_reducible apply keeps_Dev_wr | with_reducible apply keeps_Dev_msix | with_reducible apply keeps_Dev_event
    | with_reducible apply keeps_Dev_stopChan | intro _ _ _ | extract_lets | split | with_reducible apply inv_foldl
    | dsimp +zetaDelta only

theorem keeps_Dev_instr {d : Dev} {c op word : Nat} {f : Dev → Nat → Dev} (ha : Q.allows 17235410969) (h : Inv Q d)
    (hf : ∀ d w, Inv Q d → Inv Q (f d w)) : Inv Q (d.instr c op word f) := by
  unfold Dev.instr
  extract_lets
  split
  · exact h
  · split
    rename_i e
    have k := inv_eq2 e (keeps_Dev_fetchInstr (ha.sub rfl) h)
    split
    · exact keeps_Dev_busError (ha.sub rfl) k
    · split
      · exact keeps_Dev_stopChan (ha.sub rfl) k
      · split
        · exact h
        · exact hf _ _ k

theorem keeps_chEnd {x0 : Nat} {x1 : Nat} {x2 : Nat} {d3 : Dev} (ha : Q.allows 17235410973) (h3 : Inv Q d3) : Inv Q (chEnd x0 x1 x2 d3) := by
  unfold chEnd
  try extract_lets
  repeat' first
    | with_reducible assumption | with_reducible exact ha.sub rfl | with_reducible apply keeps_Dev_instr
    | with_reducible apply keeps_Dev_after | with_reducible apply keeps_Dev_setChan
    | with_reducible apply keeps_Dev_chanDone | intro _ _ _ | extract_lets | split

theorem keeps_chMove {x0 : Nat} {x1 : Nat} {x2 : List Byte} {x3 : Nat} {d4 : Dev} (ha : Q.allows 17235410973) (h4 : Inv Q d4) : Inv Q (chMove x0 x1 x2 x3 d4) := by
  unfold chMove
  try extract_lets
  repeat' first
    | with_reducible assumption | with_reducible exact ha.sub rfl | with_reducible apply keeps_Dev_instr
    | with_reducible apply keeps_Dev_after | with_reducible apply keeps_Dev_chanNext
    | with_reducible apply keeps_Dev_stopChan | with_reducible apply keeps_Dev_moveGo | intro _ _ _ | extract_lets
    | split | with_reducible refine inv_eq2 (by assumption) ?_

theorem keeps_chFill {x0 : Nat} {x1 : Nat} {x2 : Nat} {d3 : Dev} (ha : Q.allows 17235410973) (h3 : Inv Q d3) : Inv Q (chFill x0 x1 x2 d3) := by
  unfold chFill
  try extract_lets
  repeat' first
    | with_reducible assumption | with_reducible exact ha.sub rfl | with_reducible apply keeps_Dev_instr
    | with_reducible apply keeps_Dev_after | with_reducible apply keeps_Dev_chanNext
    | with_reducible apply keeps_Dev_stopChan | with_reducible apply keeps_Dev_fillGo | intro _ _ _ | extract_lets
    | split | with_reducible refine inv_eq2 (by assumption) ?_

theorem keeps_chCheck {x0 : Nat} {x1 : Nat} {x2 : List Byte} {x3 : Nat} {d4 : Dev} (ha : Q.allows 17235410973) (h4 : Inv Q d4) : Inv Q (chCheck x0 x1 x2 x3 d4) := by
  unfold chCheck
  try extract_lets
  repeat' first
    | with_reducible assumption | with_reducible exact ha.sub rfl | with_reducible apply keeps_Dev_instr
    | with_reducible apply keeps_Dev_after | with_reducible apply keeps_Dev_stopChan
    | with_reducible apply keeps_Dev_checkInit | with_reducible apply keeps_Dev_checkGo
    | with_reducible apply keeps_Dev_setChan | with_reducible apply keeps_Dev_chanNext
    | with_reducible apply keeps_Dev_checkFinal | intro _ _ _ | extract_lets | split
    | with_reducible refine inv_eq2 (by assumption) ?_ | dsimp +zetaDelta only

theorem keeps_chLoop {x0 : Nat} {x1 : Nat} {x2 : Nat} {d3 : Dev} (ha : Q.allows 17235410973) (h3 : Inv Q d3) : Inv Q (chLoop x0 x1 x2 d3) := by
  unfold chLoop
  try extract_lets
  repeat' first
    | with_reducible assumption | with_reducible exact ha.sub rfl | with_reducible apply keeps_Dev_instr
    | with_reducible apply keeps_Dev_after | with_reducible apply keeps_Dev_stopChan
    | with_reducible apply keeps_Dev_setChan | intro _ _ _ | extract_lets | split

theorem keeps_chWait {x0 : Nat} {x1 : Nat} {x2 : Nat} {d3 : Dev} (ha : Q.allows 17235410973) (h3 : Inv Q d3) : Inv Q (chWait x0 x1 x2 d3) := by
  unfold chWait
  try extract_lets
  repeat' first
    | with_reducible assumption | with_reducible exact ha.sub rfl | with_reducible apply keeps_Dev_instr
    | with_reducible apply keeps_Dev_after | with_reducible apply keeps_Dev_stopChan
    | with_reducible apply keeps_Dev_setChan | intro _ _ _ | extract_lets | split

theorem keeps_waitSatisfied {x0 : Nat} {x1 : Nat} {d2 : Dev} (ha : Q.allows 163844) (h2 : Inv Q d2) : Inv Q (waitSatisfied x0 x1 d2) := by
  unfold waitSatisfied
  try extract_lets
  repeat' first
    | with_reducible assumption | with_reducible exact ha.sub rfl | with_reducible apply keeps_Dev_after
    | with_reducible apply keeps_Dev_chanNext | with_reducible apply keeps_Dev_setChan | split

theorem keeps_waitTimeout {x0 : Nat} {d1 : Dev} (ha : Q.allows 17235083293) (h1 : Inv Q d1) : Inv Q (waitTimeout x0 d1) := by
  unfold waitTimeout
  try extract_lets
  repeat' first
    | with_reducible assumption | with_reducible exact ha.sub rfl | with_reducible apply keeps_Dev_reachUp
    | with_reducible apply keeps_Dev_stopChan | extract_lets | split

theorem keeps_Dev_fenceNote {d0 : Dev} {x1 : Nat} {x2 : Nat} {x3 : Bool} (ha : Q.allows 131072) (h0 : Inv Q d0) : Inv Q (Dev.fenceNote d0 x1 x2 x3) := by
  unfold Dev.fenceNote
  try extract_lets
  repeat' first
    | with_reducible assumption | with_reducible exact still_rfl
    | (with_reducible apply Lit.mk <;> first | exact same_may rfl | with_reducible exact same_rfl)
    | (simp only [↓inv_mk]; with_reducible apply inv_parts ha)

theorem keeps_Dev_fenceSquashed {d0 : Dev} {x1 : Nat} {x2 : Nat} {x3 : Bool} (ha : Q.allows 17235083289) (h0 : Inv Q d0) : Inv Q (Dev.fenceSquashed d0 x1 x2 x3) := by
  unfold Dev.fenceSquashed
  try extract_lets
  repeat' first
    | with_reducible assumption | with_reducible apply keeps_Dev_stopChan | intro _ _ _ | extract_lets | split
    | with_reducible apply inv_foldl

theorem keeps_chSignal {x0 : Nat} {x1 : Nat} {x2 : Nat} {d3 : Dev} (ha : Q.allows 17235410973) (h3 : Inv Q d3) : Inv Q (chSignal x0 x1 x2 d3) := by
  unfold chSignal
  try extract_lets
  repeat' first
    | with_reducible assumption | with_reducible exact ha.sub rfl | with_reducible apply keeps_Dev_instr
    | with_reducible apply keeps_Dev_after | with_reducible apply keeps_Dev_stopChan
    | with_reducible apply keeps_Dev_event | with_reducible apply keeps_Dev_dstAccess
    | with_reducible apply keeps_Dev_msix | with_reducible apply keeps_Dev_chanNext | intro _ _ _ | extract_lets
    | split | dsimp +zetaDelta only

theorem keeps_chLink {x0 : Nat} {x1 : Nat} {x2 : Nat} {d3 : Dev} (ha : Q.allows 17235410973) (h3 : Inv Q d3) : Inv Q (chLink x0 x1 x2 d3) := by
  unfold chLink
  try extract_lets
  repeat' first
    | with_reducible assumption | with_reducible exact ha.sub rfl | with_reducible apply keeps_Dev_instr
    | with_reducible apply keeps_Dev_after | with_reducible apply keeps_Dev_stopChan
    | with_reducible apply keeps_Dev_setChan | intro _ _ _ | extract_lets | split

theorem keeps_channelStart {x0 : Nat} {d1 : Dev} (ha : Q.allows 17201528861) (h1 : Inv Q d1) : Inv Q (channelStart x0 d1) := by
  unfold channelStart
  try extract_lets
  repeat' first
    | with_reducible assumption | with_reducible exact ha.sub rfl | with_reducible exact still_rfl
    | (with_reducible apply Lit.mk <;> first | exact same_may rfl | with_reducible exact same_rfl)
    | with_reducible apply keeps_Dev_after | with_reducible apply keeps_Dev_reject
    | with_reducible apply keeps_Dev_setChan | extract_lets | split
    | (simp only [↓inv_mk]; with_reducible apply inv_parts ha) | dsimp +zetaDelta only

theorem keeps_Dev_channelDoorbell {d0 : Dev} {x1 : Nat} (ha : Q.allows 131072) (h0 : Inv Q d0) : Inv Q (Dev.channelDoorbell d0 x1) := by
  unfold Dev.channelDoorbell
  try extract_lets
  repeat' first
    | with_reducible assumption | with_reducible apply keeps_Dev_setChan | split

theorem keeps_channelDoorbell {x0 : Nat} {x1 : Nat} {x2 : Nat} {d3 : Dev} (ha : Q.allows 163844) (h3 : Inv Q d3) : Inv Q (channelDoorbell x0 x1 x2 d3) := by
  unfold channelDoorbell
  try extract_lets
  repeat' first
    | with_reducible assumption | with_reducible exact ha.sub rfl | with_reducible apply keeps_Dev_after
    | with_reducible apply keeps_Dev_channelDoorbell | split

theorem keeps_cpeBusError {x0 : Nat} {x1 : Nat} {x2 : Nat} {x3 : List ChPart} {x4 : Nat} {d5 : Dev} (ha : Q.allows 17235410973) (h5 : Inv Q d5) : Inv Q (cpeBusError x0 x1 x2 x3 x4 d5) := by
  unfold cpeBusError
  try extract_lets
  repeat' first
    | with_reducible assumption | with_reducible exact ha.sub rfl | with_reducible apply keeps_Dev_after
    | with_reducible apply keeps_Dev_hbmRead | with_reducible apply keeps_Dev_busError | extract_lets | split
    | with_reducible refine inv_eq2 (by assumption) ?_

theorem keeps_Dev_restart {d0 : Dev} {x1 : Nat} (ha : Q.allows 131072) (h0 : Inv Q d0) : Inv Q (Dev.restart d0 x1) := by
  unfold Dev.restart
  try extract_lets
  repeat' first
    | with_reducible assumption | with_reducible apply keeps_Dev_setUnit | with_reducible apply keeps_Dev_setChan
    | extract_lets | split | dsimp +zetaDelta only

theorem keeps_Dev_abortChan {d0 : Dev} {x1 : Nat} (ha : Q.allows 17235083289) (h0 : Inv Q d0) : Inv Q (Dev.abortChan d0 x1) := by
  unfold Dev.abortChan
  try extract_lets
  repeat' first
    | with_reducible assumption | with_reducible exact ha.sub rfl | with_reducible apply keeps_Dev_stopChan
    | with_reducible apply keeps_Dev_setChan | with_reducible apply keeps_Dev_unclaim | extract_lets | split
    | dsimp +zetaDelta only

theorem keeps_chRestart {x0 : Nat} {x1 : Nat} {d2 : Dev} (ha : Q.allows 163844) (h2 : Inv Q d2) : Inv Q (chRestart x0 x1 d2) := by
  unfold chRestart
  try extract_lets
  repeat' first
    | with_reducible assumption | with_reducible exact ha.sub rfl | with_reducible apply keeps_Dev_after
    | with_reducible apply keeps_Dev_restart | split

theorem keeps_chAbort {x0 : Nat} {x1 : Nat} {d2 : Dev} (ha : Q.allows 17235083293) (h2 : Inv Q d2) : Inv Q (chAbort x0 x1 d2) := by
  unfold chAbort
  try extract_lets
  repeat' first
    | with_reducible assumption | with_reducible exact ha.sub rfl | with_reducible apply keeps_Dev_after
    | with_reducible apply keeps_Dev_abortChan | split

theorem keeps_Dev_engReset {d0 : Dev} (ha : Q.allows 131073) (h0 : Inv Q d0) : Inv Q (Dev.engReset d0) := by
  unfold Dev.engReset
  try extract_lets
  repeat' first
    | with_reducible assumption | with_reducible exact ha.sub rfl | with_reducible exact still_rfl
    | (with_reducible apply Lit.mk <;> first | exact same_may rfl | with_reducible exact same_rfl)
    | with_reducible apply keeps_Dev_wr | intro _ _ _ | extract_lets
    | (simp only [↓inv_mk]; with_reducible apply inv_parts ha) | with_reducible apply inv_foldl

end Sys2Proof.Laws
end

