-- ==== Sys2Proof/Laws/Keeps/Metrology.lean ====
section
/-!
SUPPORT. What Metrology does keeps the invariant.
-/
namespace Sys2Proof.Laws
open Sys2Proof Sys2Proof.Machine
set_option linter.unusedVariables false
variable {Q : Scope}

theorem keeps_Dev_setMet {d : Dev} {m : Nat} {f : Met → Met} (ha : Q.allows 16384) (hm : Q.allows m) (h : Inv Q d)
    (c29 : Same m 29 ((f d.met).key, (f d.met).pub, (f d.met).factoryEc, (f d.met).factoryCrc, (f d.met).ec) (d.met.key, d.met.pub, d.met.factoryEc, d.met.factoryCrc, d.met.ec)) : Inv Q (d.setMet f) :=
  ⟨h.1, h.2, h.3, { h.4 with met := .inl (ha.bit rfl), ident := c29.trans hm h.4.ident }⟩

theorem keeps_Dev_metEvent {d0 : Dev} {x1 : Nat} {x2 : List Byte} (ha : Q.allows 55083033) (h0 : Inv Q d0) : Inv Q (Dev.metEvent d0 x1 x2) := by
  unfold Dev.metEvent
  try extract_lets
  repeat' first
    | with_reducible assumption | with_reducible apply keeps_Dev_event | split

theorem keeps_Dev_nvWrite {d0 : Dev} {x1 : Nat} {x2 : List Byte} (ha : Q.allows 55099417) (h0 : Inv Q d0) : Inv Q (Dev.nvWrite d0 x1 x2) := by
  unfold Dev.nvWrite
  try extract_lets
  repeat' first
    | with_reducible assumption | with_reducible exact ha.sub rfl | with_reducible exact same_rfl
    | with_reducible apply keeps_Dev_setMet | with_reducible apply keeps_Dev_metEvent | split

theorem keeps_Dev_metStore {d0 : Dev} {x1 : Nat} {x2 : Nat} {x3 : List Byte} (ha : Q.allows 55099417) (h0 : Inv Q d0) : Inv Q (Dev.metStore d0 x1 x2 x3) := by
  unfold Dev.metStore
  try extract_lets
  repeat' first
    | with_reducible assumption | with_reducible exact ha.sub rfl | with_reducible exact same_rfl
    | with_reducible apply keeps_Dev_setMet | with_reducible apply keeps_Dev_nvWrite | split

theorem keeps_Dev_metCause {d0 : Dev} {x1 : Nat} {x2 : Nat} (ha : Q.allows 55099417) (h0 : Inv Q d0) : Inv Q (Dev.metCause d0 x1 x2) := by
  unfold Dev.metCause
  try extract_lets
  repeat' first
    | with_reducible assumption | with_reducible exact ha.sub rfl | with_reducible exact same_rfl
    | with_reducible apply keeps_Dev_setMet | with_reducible apply keeps_Dev_metStore
    | with_reducible apply keeps_Dev_event | with_reducible apply keeps_Dev_msix | split

theorem keeps_Dev_metClear {d0 : Dev} {x1 : Nat} (ha : Q.allows 55099417) (h0 : Inv Q d0) : Inv Q (Dev.metClear d0 x1) := by
  unfold Dev.metClear
  try extract_lets
  repeat' first
    | with_reducible assumption | with_reducible exact ha.sub rfl | with_reducible exact same_rfl
    | with_reducible apply keeps_Dev_setMet | with_reducible apply keeps_Dev_metEvent | split

theorem keeps_Dev_metRecord {d0 : Dev} {x1 : Nat} {x2 : Nat} {x3 : List Byte} (ha : Q.allows 55099417) (h0 : Inv Q d0) : Inv Q (Dev.metRecord d0 x1 x2 x3) := by
  unfold Dev.metRecord
  try extract_lets
  repeat' first
    | with_reducible assumption | with_reducible apply keeps_Dev_metStore | with_reducible apply keeps_Dev_metCause
    | split

theorem keeps_Dev_metSees {d0 : Dev} (ha : Q.allows 16384) (h0 : Inv Q d0) : Inv Q (Dev.metSees d0) := by
  unfold Dev.metSees
  try extract_lets
  repeat' first
    | with_reducible assumption | with_reducible exact same_rfl | with_reducible apply keeps_Dev_setMet | extract_lets
    | split

theorem keeps_Dev_metBegin {d0 : Dev} {x1 : Nat} {x2 : Nat} (ha : Q.allows 55099417) (h0 : Inv Q d0) : Inv Q (Dev.metBegin d0 x1 x2) := by
  unfold Dev.metBegin
  try extract_lets
  repeat' first
    | with_reducible assumption | with_reducible exact ha.sub rfl | with_reducible exact same_rfl
    | with_reducible apply keeps_Dev_metClear | with_reducible apply keeps_Dev_metSees
    | with_reducible apply keeps_Dev_setMet | split

theorem keeps_Dev_metCharge {d0 : Dev} {x1 : Nat} {x2 : Nat} {x3 : Nat} {x4 : List Nat} {x5 : Nat} {x6 : Bool} (ha : Q.allows 55099417) (h0 : Inv Q d0) : Inv Q (Dev.metCharge d0 x1 x2 x3 x4 x5 x6) := by
  unfold Dev.metCharge
  try extract_lets
  repeat' first
    | with_reducible assumption | with_reducible exact ha.sub rfl | with_reducible exact same_rfl
    | with_reducible apply keeps_Dev_metSees | with_reducible apply keeps_Dev_metCause
    | with_reducible apply keeps_Dev_setMet | extract_lets | split | dsimp +zetaDelta only

theorem keeps_Dev_metSnapshot {d0 : Dev} {x1 : Nat} {x2 : List Nat} {x3 : Nat} {x4 : Bool} (ha : Q.allows 55099417) (h0 : Inv Q d0) : Inv Q (Dev.metSnapshot d0 x1 x2 x3 x4) := by
  unfold Dev.metSnapshot
  try extract_lets
  repeat' first
    | with_reducible assumption | with_reducible exact ha.sub rfl | with_reducible exact same_rfl
    | with_reducible apply keeps_Dev_metSees | with_reducible apply keeps_Dev_metCause
    | with_reducible apply keeps_Dev_setMet | extract_lets | split | dsimp +zetaDelta only

theorem keeps_Dev_metCloseBuild {d0 : Dev} (ha : Q.allows 55099481) (h0 : Inv Q d0) : Inv Q (Dev.metCloseBuild d0) := by
  unfold Dev.metCloseBuild
  try extract_lets
  repeat' first
    | with_reducible assumption | with_reducible exact ha.sub rfl | with_reducible exact still_rfl
    | (with_reducible apply Lit.mk <;> first | exact same_may rfl | with_reducible exact same_rfl)
    | with_reducible exact same_rfl | with_reducible apply keeps_Dev_metRecord | with_reducible apply keeps_Dev_setMet
    | extract_lets | (simp only [↓inv_mk]; with_reducible apply inv_parts ha) | dsimp +zetaDelta only

theorem keeps_Dev_metSettle {d0 : Dev} (ha : Q.allows 17234968665) (h0 : Inv Q d0) : Inv Q (Dev.metSettle d0) := by
  unfold Dev.metSettle
  try extract_lets
  repeat' first
    | with_reducible assumption | with_reducible exact ha.sub rfl | with_reducible exact same_rfl
    | with_reducible apply keeps_Dev_metCloseBuild | with_reducible apply keeps_Dev_endCmd
    | with_reducible apply keeps_Dev_setMet | extract_lets | split | dsimp +zetaDelta only

theorem keeps_Dev_metCloseLayer {d0 : Dev} {x1 : Nat} {x2 : Bool} (ha : Q.allows 55099417) (h0 : Inv Q d0) : Inv Q (Dev.metCloseLayer d0 x1 x2) := by
  unfold Dev.metCloseLayer
  try extract_lets
  repeat' first
    | with_reducible assumption | with_reducible exact ha.sub rfl | with_reducible exact same_rfl
    | with_reducible apply keeps_Dev_setMet | with_reducible apply keeps_Dev_metRecord | split

theorem keeps_Dev_metFinal {d0 : Dev} {x1 : Nat} {x2 : List Nat} (ha : Q.allows 17234968665) (h0 : Inv Q d0) : Inv Q (Dev.metFinal d0 x1 x2) := by
  unfold Dev.metFinal
  try extract_lets
  repeat' first
    | with_reducible assumption | with_reducible exact ha.sub rfl | with_reducible exact same_rfl
    | with_reducible apply keeps_Dev_setMet | with_reducible apply keeps_Dev_metSees
    | with_reducible apply keeps_Dev_metSettle | with_reducible apply keeps_Dev_metCloseLayer | split

theorem keeps_Dev_metMainReset {d0 : Dev} (ha : Q.allows 17234968665) (h0 : Inv Q d0) : Inv Q (Dev.metMainReset d0) := by
  unfold Dev.metMainReset
  try extract_lets
  repeat' first
    | with_reducible assumption | with_reducible exact ha.sub rfl | with_reducible apply keeps_Dev_metSees
    | with_reducible apply keeps_Dev_metSettle | with_reducible apply keeps_Dev_metCloseLayer | intro _ _ _
    | extract_lets | split | with_reducible apply inv_foldl

theorem keeps_metServicePoll {x0 : Nat} {x1 : List Byte} {x2 : Nat} {d3 : Dev} (ha : Q.allows 591970333) (h3 : Inv Q d3) : Inv Q (metServicePoll x0 x1 x2 d3) := by
  unfold metServicePoll
  try extract_lets
  repeat' first
    | with_reducible assumption | with_reducible exact ha.sub rfl | exact same_may rfl
    | with_reducible apply keeps_Dev_after | with_reducible apply keeps_Dev_send
    | with_reducible apply keeps_Dev_setMet | with_reducible apply keeps_Dev_metRecord
    | with_reducible apply keeps_Dev_metEvent | extract_lets | split

theorem keeps_metSealChange {x0 : Bool} {x1 : Nat} {d2 : Dev} (ha : Q.allows 55099421) (h2 : Inv Q d2) : Inv Q (metSealChange x0 x1 d2) := by
  unfold metSealChange
  try extract_lets
  repeat' first
    | with_reducible assumption | with_reducible exact ha.sub rfl | with_reducible exact same_rfl
    | with_reducible apply keeps_Dev_after | with_reducible apply keeps_Dev_metRecord
    | with_reducible apply keeps_Dev_setMet | with_reducible apply keeps_Dev_metEvent | split

theorem keeps_metDisplayUpdate {x0 : Bool} {x1 : Nat} {d2 : Dev} (ha : Q.allows 55099421) (h2 : Inv Q d2) : Inv Q (metDisplayUpdate x0 x1 d2) := by
  unfold metDisplayUpdate
  try extract_lets
  repeat' first
    | with_reducible assumption | with_reducible exact ha.sub rfl | with_reducible exact same_rfl
    | with_reducible apply keeps_Dev_after | with_reducible apply keeps_Dev_send
    | with_reducible apply keeps_Dev_setMet | with_reducible apply keeps_Dev_metEvent | split

theorem keeps_metXtalStop {x0 : Nat} {d1 : Dev} (ha : Q.allows 55099421) (h1 : Inv Q d1) : Inv Q (metXtalStop x0 d1) := by
  unfold metXtalStop
  try extract_lets
  repeat' first
    | with_reducible assumption | with_reducible exact ha.sub rfl | with_reducible exact same_rfl
    | with_reducible apply keeps_Dev_after | with_reducible apply keeps_Dev_metCause
    | with_reducible apply keeps_Dev_setMet | split

theorem keeps_metXtalRestored {x0 : Nat} {d1 : Dev} (ha : Q.allows 55099421) (h1 : Inv Q d1) : Inv Q (metXtalRestored x0 d1) := by
  unfold metXtalRestored
  try extract_lets
  repeat' first
    | with_reducible assumption | with_reducible exact ha.sub rfl | with_reducible exact same_rfl
    | with_reducible apply keeps_Dev_after | with_reducible apply keeps_Dev_metClear
    | with_reducible apply keeps_Dev_setMet | split

theorem keeps_Dev_nvFlush {d0 : Dev} {x1 : List (Nat × List Byte)} (ha : Q.allows 55099417) (h0 : Inv Q d0) : Inv Q (Dev.nvFlush d0 x1) := by
  induction x1 generalizing d0 with
  | nil =>
    unfold Dev.nvFlush
    try extract_lets
    repeat' first
      | with_reducible assumption | with_reducible exact ha.sub rfl | with_reducible exact same_rfl
      | with_reducible apply keeps_Dev_setMet
  | cons x l ih =>
    unfold Dev.nvFlush
    try extract_lets
    repeat' first
      | with_reducible assumption | with_reducible apply ih | with_reducible exact ha.sub rfl
      | with_reducible exact same_rfl | with_reducible apply keeps_Dev_setMet | with_reducible apply keeps_Dev_nvWrite
      | split

theorem keeps_metNvRetry {x0 : Bool} {x1 : Nat} {d2 : Dev} (ha : Q.allows 17234968669) (h2 : Inv Q d2) : Inv Q (metNvRetry x0 x1 d2) := by
  unfold metNvRetry
  try extract_lets
  repeat' first
    | with_reducible assumption | with_reducible exact ha.sub rfl | with_reducible exact same_rfl
    | with_reducible apply keeps_Dev_after | with_reducible apply keeps_Dev_setMet
    | with_reducible apply keeps_Dev_metSettle | with_reducible apply keeps_Dev_metClear
    | with_reducible apply keeps_Dev_nvFlush | split

theorem keeps_metPowerOn {x0 : Option (List (List Byte) × Nat)} {x1 : Bool} {x2 : Option Nat} {x3 : Nat} {d4 : Dev} (ha : Q.allows 591970335) (h4 : Inv Q d4) : Inv Q (metPowerOn x0 x1 x2 x3 d4) := by
  unfold metPowerOn
  try extract_lets
  repeat' first
    | with_reducible assumption | with_reducible exact ha.sub rfl | exact same_may rfl
    | with_reducible apply keeps_Dev_after | with_reducible apply keeps_Dev_unlatch
    | with_reducible apply keeps_Dev_setMet | with_reducible apply keeps_Dev_metCause
    | with_reducible apply keeps_Dev_metRecord | extract_lets | split | dsimp +zetaDelta only

theorem keeps_vddMetLoss {x0 : Nat} {d1 : Dev} (ha : Q.allows 49156) (h1 : Inv Q d1) : Inv Q (vddMetLoss x0 d1) := by
  unfold vddMetLoss
  try extract_lets
  repeat' first
    | with_reducible assumption | with_reducible exact ha.sub rfl | with_reducible exact same_rfl
    | with_reducible apply keeps_Dev_after | with_reducible apply keeps_Dev_setMet

theorem keeps_Dev_metCopied {d0 : Dev} {x1 : Nat} {x2 : Bool} (ha : Q.allows 17201414169) (h0 : Inv Q d0) : Inv Q (Dev.metCopied d0 x1 x2) := by
  unfold Dev.metCopied
  try extract_lets
  repeat' first
    | with_reducible assumption | with_reducible exact ha.sub rfl | with_reducible exact same_rfl
    | with_reducible apply keeps_Dev_endCmd | with_reducible apply keeps_Dev_setMet | split

theorem keeps_metRecordExport {x0 : Nat} {d1 : Dev} (ha : Q.allows 17201414173) (h1 : Inv Q d1) : Inv Q (metRecordExport x0 d1) := by
  unfold metRecordExport
  try extract_lets
  repeat' first
    | with_reducible assumption | with_reducible exact ha.sub rfl | with_reducible apply keeps_Dev_after
    | with_reducible apply keeps_Dev_metCopied | with_reducible apply keeps_Dev_dataPut
    | with_reducible apply keeps_Dev_countSlot | with_reducible apply keeps_Dev_putEntry | extract_lets | split

theorem keeps_metBuildBegin {x0 : Nat} {d1 : Dev} (ha : Q.allows 17201414237) (h1 : Inv Q d1) : Inv Q (metBuildBegin x0 d1) := by
  unfold metBuildBegin
  try extract_lets
  repeat' first
    | with_reducible assumption | with_reducible exact ha.sub rfl | with_reducible exact still_rfl
    | (with_reducible apply Lit.mk <;> first | exact same_may rfl | with_reducible exact same_rfl)
    | with_reducible exact same_rfl | with_reducible apply keeps_Dev_cmd0 | with_reducible apply keeps_Dev_after
    | with_reducible apply keeps_Dev_reject | with_reducible apply keeps_Dev_setMet
    | with_reducible apply keeps_Dev_metSees | with_reducible apply keeps_Dev_complete | intro _ _ _ | extract_lets
    | split | (simp only [↓inv_mk]; with_reducible apply inv_parts ha)

theorem keeps_metBuildEnd {x0 : Nat} {d1 : Dev} (ha : Q.allows 17234968669) (h1 : Inv Q d1) : Inv Q (metBuildEnd x0 d1) := by
  unfold metBuildEnd
  try extract_lets
  repeat' first
    | with_reducible assumption | with_reducible exact ha.sub rfl | with_reducible exact same_rfl
    | with_reducible apply keeps_Dev_cmd0 | with_reducible apply keeps_Dev_after
    | with_reducible apply keeps_Dev_reject | with_reducible apply keeps_Dev_metSettle
    | with_reducible apply keeps_Dev_holdCmd | with_reducible apply keeps_Dev_setMet
    | with_reducible apply keeps_Dev_metSees | intro _ _ _ | extract_lets | split

theorem keeps_metExport {x0 : Nat} {d1 : Dev} (ha : Q.allows 17201414173) (h1 : Inv Q d1) : Inv Q (metExport x0 d1) := by
  unfold metExport
  try extract_lets
  repeat' first
    | with_reducible assumption | with_reducible exact ha.sub rfl | with_reducible exact same_rfl
    | with_reducible apply keeps_Dev_cmd0 | with_reducible apply keeps_Dev_after
    | with_reducible apply keeps_Dev_holdCmd | with_reducible apply keeps_Dev_setMet
    | with_reducible apply keeps_Dev_complete | intro _ _ _ | extract_lets | split

end Sys2Proof.Laws
end

