-- ==== Sys2Proof/Laws/Keeps/Geometry.lean ====
section
/-!
SUPPORT. What Geometry does keeps the invariant.
-/
namespace Sys2Proof.Laws
open Sys2Proof Sys2Proof.Machine
set_option linter.unusedVariables false
variable {Q : Scope}

theorem keeps_Dev_setThr {d0 : Dev} {x1 : Nat} {x2 : Thresher → Thresher} (ha : Q.allows 32) (h0 : Inv Q d0) : Inv Q (Dev.setThr d0 x1 x2) := by
  unfold Dev.setThr
  try extract_lets
  repeat' first
    | with_reducible assumption | with_reducible exact still_rfl
    | (with_reducible apply Lit.mk <;> first | exact same_may rfl | with_reducible exact same_rfl)
    | (simp only [↓inv_mk]; with_reducible apply inv_parts ha)

theorem keeps_Dev_cacheBegin {d0 : Dev} {x1 : Nat} {x2 : Nat} {x3 : Nat} (ha : Q.allows 32) (h0 : Inv Q d0) : Inv Q (Dev.cacheBegin d0 x1 x2 x3) := by
  unfold Dev.cacheBegin
  try extract_lets
  repeat' first
    | with_reducible assumption | with_reducible apply keeps_Dev_setThr

theorem keeps_Dev_fillLine {d0 : Dev} {x1 : Rq} {x2 : Nat} (ha : Q.allows 55410713) (h0 : Inv Q d0) : Inv2 Q (Dev.fillLine d0 x1 x2) := by
  unfold Dev.fillLine
  try extract_lets
  repeat' first
    | with_reducible assumption | with_reducible apply keeps_Dev_hbmWords

theorem keeps_Dev_cacheRead {d0 : Dev} {x1 : Nat} {x2 : Rq} {x3 : Nat} {x4 : Nat} {x5 : Nat} (ha : Q.allows 55410745) (h0 : Inv Q d0) : Inv2 Q (Dev.cacheRead d0 x1 x2 x3 x4 x5) := by
  unfold Dev.cacheRead
  try extract_lets
  repeat' first
    | with_reducible assumption | with_reducible exact ha.sub rfl | with_reducible apply keeps_Dev_bump
    | with_reducible apply keeps_Dev_fillLine | with_reducible apply keeps_Dev_setThr | extract_lets | split
    | with_reducible apply inv2_mk | with_reducible refine inv_eq2 (by assumption) ?_

theorem keeps_Dev_cacheLines {d0 : Dev} {x1 : Nat} {x2 : Rq} {x3 : Nat} {x4 : Nat} {x5 : List Nat} (ha : Q.allows 55410745) (h0 : Inv Q d0) : Inv2 Q (Dev.cacheLines d0 x1 x2 x3 x4 x5) := by
  induction x5 generalizing d0 x1 x2 x3 x4 with
  | nil =>
    unfold Dev.cacheLines
    try extract_lets
    repeat' first
      | with_reducible assumption | with_reducible apply inv2_mk
  | cons x l ih =>
    unfold Dev.cacheLines
    try extract_lets
    repeat' first
      | with_reducible assumption | with_reducible apply ih | with_reducible apply keeps_Dev_cacheRead | extract_lets
      | split | with_reducible apply inv2_mk | with_reducible refine inv_eq2 (by assumption) ?_

theorem keeps_Dev_libRead {d0 : Dev} {x1 : Option Nat} {x2 : Rq} {x3 : Nat} {x4 : Nat} (ha : Q.allows 55410745) (h0 : Inv Q d0) : Inv2 Q (Dev.libRead d0 x1 x2 x3 x4) := by
  unfold Dev.libRead
  try extract_lets
  repeat' first
    | with_reducible assumption | with_reducible exact ha.sub rfl | with_reducible apply keeps_Dev_cacheLines
    | with_reducible apply keeps_Dev_hbmRead | extract_lets | split | with_reducible apply inv2_mk
    | with_reducible refine inv_eq2 (by assumption) ?_

theorem keeps_Dev_cell {d0 : Dev} {x1 : Option Nat} {x2 : Rq} {x3 : Nat} {x4 : Nat} {x5 : Nat} (ha : Q.allows 55410745) (h0 : Inv Q d0) : Inv2 Q (Dev.cell d0 x1 x2 x3 x4 x5) := by
  unfold Dev.cell
  try extract_lets
  repeat' first
    | with_reducible assumption | with_reducible apply keeps_Dev_libRead | extract_lets | split
    | with_reducible apply inv2_mk | with_reducible refine inv_eq2 (by assumption) ?_

theorem keeps_Dev_cellBody {d0 : Dev} {x1 : Option Nat} {x2 : Rq} {x3 : Nat} {x4 : Nat} (ha : Q.allows 55410745) (h0 : Inv Q d0) : Inv2 Q (Dev.cellBody d0 x1 x2 x3 x4) := by
  unfold Dev.cellBody
  try extract_lets
  repeat' first
    | with_reducible assumption | with_reducible apply keeps_Dev_libRead | extract_lets | split
    | with_reducible apply inv2_mk | with_reducible refine inv_eq2 (by assumption) ?_

theorem keeps_gather {x0 : LibRef} {x1 : Box} {x2 : Nat} {x3 : Nat} {x4 : Option Box} {x5 : List Place} {x6 : List Geo} {x7 : Gather × Dev} (ha : Q.allows 55410745) (h7 : Inv2 Q (x7)) : Inv2 Q (gather x0 x1 x2 x3 x4 x5 x6 x7) := by
  induction x2 generalizing x0 x1 x3 x4 x5 x6 x7 with
  | zero =>
    unfold gather
    try extract_lets
    repeat' first
      | with_reducible assumption | extract_lets | with_reducible apply inv2_mk | with_reducible apply inv_snd
  | succ n ih =>
    unfold gather
    try extract_lets
    repeat' first
      | with_reducible assumption | with_reducible apply ih | with_reducible apply keeps_Dev_cell
      | with_reducible apply keeps_Dev_cellBody | intro _ _ _ | extract_lets | split | with_reducible apply inv_foldl2
      | with_reducible apply inv2_mk | with_reducible refine inv_eq2 (by assumption) ?_
      | with_reducible exact inv_pair2 (by assumption)

end Sys2Proof.Laws
end

