-- ==== Sys2Proof/Laws/Keeps/Blocks.lean ====
section
/-!
SUPPORT. What Blocks does keeps the invariant.
-/
namespace Sys2Proof.Laws
open Sys2Proof Sys2Proof.Machine
set_option linter.unusedVariables false
variable {Q : Scope}

theorem keeps_Dev_updBlock {d0 : Dev} {x1 : Nat} {x2 : Nat} {x3 : Nat} {x4 : Block → Block} (ha : Q.allows 32) (h0 : Inv Q d0) : Inv Q (Dev.updBlock d0 x1 x2 x3 x4) := by
  unfold Dev.updBlock
  try extract_lets
  repeat' first
    | with_reducible assumption | with_reducible exact still_rfl
    | (with_reducible apply Lit.mk <;> first | exact same_may rfl | with_reducible exact same_rfl)
    | (simp only [↓inv_mk]; with_reducible apply inv_parts ha)

theorem keeps_Dev_putBlock {d0 : Dev} {x1 : Block} (ha : Q.allows 32) (h0 : Inv Q d0) : Inv Q (Dev.putBlock d0 x1) := by
  unfold Dev.putBlock
  try extract_lets
  repeat' first
    | with_reducible assumption | with_reducible exact still_rfl
    | (with_reducible apply Lit.mk <;> first | exact same_may rfl | with_reducible exact same_rfl)
    | (simp only [↓inv_mk]; with_reducible apply inv_parts ha)

theorem keeps_Dev_updMap {d0 : Dev} {x1 : Nat} {x2 : Nat} {x3 : Nat} {x4 : MapLine → MapLine} (ha : Q.allows 128) (h0 : Inv Q d0) : Inv Q (Dev.updMap d0 x1 x2 x3 x4) := by
  unfold Dev.updMap
  try extract_lets
  repeat' first
    | with_reducible assumption | with_reducible exact still_rfl
    | (with_reducible apply Lit.mk <;> first | exact same_may rfl | with_reducible exact same_rfl)
    | (simp only [↓inv_mk]; with_reducible apply inv_parts ha)

theorem keeps_Dev_toStrikable {d0 : Dev} {x1 : Nat} {x2 : Nat} {x3 : Nat} (ha : Q.allows 224) (h0 : Inv Q d0) : Inv Q (Dev.toStrikable d0 x1 x2 x3) := by
  unfold Dev.toStrikable
  try extract_lets
  repeat' first
    | with_reducible assumption | with_reducible exact ha.sub rfl | with_reducible exact still_rfl
    | (with_reducible apply Lit.mk <;> first | exact same_may rfl | with_reducible exact same_rfl)
    | with_reducible apply keeps_Dev_updBlock | with_reducible apply keeps_Dev_ldgStroke | extract_lets | split
    | (simp only [↓inv_mk]; with_reducible apply inv_parts ha)

theorem keeps_Dev_queueRebuild {d0 : Dev} {x1 : Nat} {x2 : Nat} {x3 : Nat} {x4 : Why} (ha : Q.allows 32) (h0 : Inv Q d0) : Inv Q (Dev.queueRebuild d0 x1 x2 x3 x4) := by
  unfold Dev.queueRebuild
  try extract_lets
  repeat' first
    | with_reducible assumption | with_reducible exact still_rfl
    | (with_reducible apply Lit.mk <;> first | exact same_may rfl | with_reducible exact same_rfl) | split
    | (simp only [↓inv_mk]; with_reducible apply inv_parts ha)

theorem keeps_Dev_winnowCheck {d0 : Dev} {x1 : Nat} {x2 : Nat} {x3 : Nat} (ha : Q.allows 225) (h0 : Inv Q d0) : Inv Q (Dev.winnowCheck d0 x1 x2 x3) := by
  unfold Dev.winnowCheck
  try extract_lets
  repeat' first
    | with_reducible assumption | with_reducible exact ha.sub rfl | with_reducible apply keeps_Dev_toStrikable
    | with_reducible apply keeps_Dev_updBlock | with_reducible apply keeps_Dev_bump
    | with_reducible apply keeps_Dev_queueRebuild | extract_lets | split

theorem keeps_Dev_shfErr {d0 : Dev} {x1 : Nat} {x2 : Nat} {x3 : Nat} (ha : Q.allows 1) (h0 : Inv Q d0) : Inv Q (Dev.shfErr d0 x1 x2 x3) := by
  unfold Dev.shfErr
  try extract_lets
  repeat' first
    | with_reducible assumption | with_reducible apply keeps_Dev_set | extract_lets | split | dsimp +zetaDelta only

theorem keeps_Dev_malformed {d0 : Dev} {x1 : Nat} {x2 : Nat} {x3 : RecPos} {x4 : Nat} {x5 : Nat} {x6 : Bool} {x7 : Bool} (ha : Q.allows 55083065) (h0 : Inv Q d0) : Inv Q (Dev.malformed d0 x1 x2 x3 x4 x5 x6 x7) := by
  unfold Dev.malformed
  try extract_lets
  repeat' first
    | with_reducible assumption | with_reducible exact ha.sub rfl | with_reducible exact still_rfl
    | (with_reducible apply Lit.mk <;> first | exact same_may rfl | with_reducible exact same_rfl)
    | with_reducible apply keeps_Dev_event | with_reducible apply keeps_Dev_shfErr
    | with_reducible apply keeps_Dev_updPortion | extract_lets | split
    | (simp only [↓inv_mk]; with_reducible apply inv_parts ha) | dsimp +zetaDelta only

end Sys2Proof.Laws
end

