-- ==== Sys2Proof/Laws/Keeps/Queues.lean ====
section
/-!
SUPPORT. What Queues does keeps the invariant.
-/
namespace Sys2Proof.Laws
open Sys2Proof Sys2Proof.Machine
set_option linter.unusedVariables false
variable {Q : Scope}

theorem keeps_Dev_setCol {d0 : Dev} {x1 : Nat} {x2 : Column → Column} (ha : Q.allows 128) (h0 : Inv Q d0) : Inv Q (Dev.setCol d0 x1 x2) := by
  unfold Dev.setCol
  try extract_lets
  repeat' first
    | with_reducible assumption | with_reducible exact still_rfl
    | (with_reducible apply Lit.mk <;> first | exact same_may rfl | with_reducible exact same_rfl)
    | (simp only [↓inv_mk]; with_reducible apply inv_parts ha)

theorem keeps_Dev_setTile {d0 : Dev} {x1 : Nat} {x2 : Tile → Tile} (ha : Q.allows 256) (h0 : Inv Q d0) : Inv Q (Dev.setTile d0 x1 x2) := by
  unfold Dev.setTile
  try extract_lets
  repeat' first
    | with_reducible assumption | with_reducible exact still_rfl
    | (with_reducible apply Lit.mk <;> first | exact same_may rfl | with_reducible exact same_rfl)
    | (simp only [↓inv_mk]; with_reducible apply inv_parts ha)

theorem keeps_Dev_orderReplay {d0 : Dev} {x1 : Nat} {x2 : Nat → Entry → Bool} (ha : Q.allows 55083161) (h0 : Inv Q d0) : Inv Q (Dev.orderReplay d0 x1 x2) := by
  unfold Dev.orderReplay
  try extract_lets
  repeat' first
    | with_reducible assumption | with_reducible exact ha.sub rfl | with_reducible exact still_rfl
    | (with_reducible apply Lit.mk <;> first | exact same_may rfl | with_reducible exact same_rfl)
    | with_reducible apply keeps_Dev_event | extract_lets | split
    | (simp only [↓inv_mk]; with_reducible apply inv_parts ha) | dsimp +zetaDelta only

theorem keeps_Dev_bumpEpoch {d0 : Dev} (ha : Q.allows 55083161) (h0 : Inv Q d0) : Inv Q (Dev.bumpEpoch d0) := by
  unfold Dev.bumpEpoch
  try extract_lets
  repeat' first
    | with_reducible assumption | with_reducible exact still_rfl
    | (with_reducible apply Lit.mk <;> first | exact same_may rfl | with_reducible exact same_rfl)
    | with_reducible apply keeps_Dev_orderReplay | extract_lets
    | (simp only [↓inv_mk]; with_reducible apply inv_parts ha) | dsimp +zetaDelta only

end Sys2Proof.Laws
end

