-- ==== Sys2Proof/Laws/Keeps/Heat.lean ====
section
/-!
SUPPORT. What Heat does keeps the invariant.
-/
namespace Sys2Proof.Laws
open Sys2Proof Sys2Proof.Machine
set_option linter.unusedVariables false
variable {Q : Scope}

theorem keeps_Dev_segFound {d0 : Dev} {x1 : Nat} {x2 : Nat} {x3 : Nat} {x4 : Bool} (ha : Q.allows 55084057) (h0 : Inv Q d0) : Inv Q (Dev.segFound d0 x1 x2 x3 x4) := by
  unfold Dev.segFound
  try extract_lets
  repeat' first
    | with_reducible assumption | with_reducible exact ha.sub rfl | with_reducible exact still_rfl
    | (with_reducible apply Lit.mk <;> first | exact same_may rfl | with_reducible exact same_rfl)
    | with_reducible apply keeps_Dev_event | extract_lets | split
    | (simp only [↓inv_mk]; with_reducible apply inv_parts ha)

theorem keeps_Dev_readSeg {d0 : Dev} {x1 : Rq} {x2 : Nat} {x3 : Nat} {x4 : Nat} (ha : Q.allows 55411737) (h0 : Inv Q d0) : Inv2 Q (Dev.readSeg d0 x1 x2 x3 x4) := by
  unfold Dev.readSeg
  try extract_lets
  repeat' first
    | with_reducible assumption | with_reducible exact ha.sub rfl | with_reducible apply keeps_Dev_hbmWords
    | with_reducible apply keeps_Dev_segFound | extract_lets | split | with_reducible apply inv2_mk
    | with_reducible refine inv_eq2 (by assumption) ?_

theorem keeps_Dev_writeSeg {d0 : Dev} {x1 : Rq} {x2 : Nat} {x3 : Nat} {x4 : Nat} {x5 : HSeg} (ha : Q.allows 55410713) (h0 : Inv Q d0) : Inv Q (Dev.writeSeg d0 x1 x2 x3 x4 x5) := by
  unfold Dev.writeSeg
  try extract_lets
  repeat' first
    | with_reducible assumption | with_reducible apply keeps_Dev_hbmPut

theorem keeps_Dev_noSeed {d0 : Dev} {x1 : HStroke} (ha : Q.allows 55084057) (h0 : Inv Q d0) : Inv Q (Dev.noSeed d0 x1) := by
  unfold Dev.noSeed
  try extract_lets
  repeat' first
    | with_reducible assumption | with_reducible exact ha.sub rfl | with_reducible exact still_rfl
    | (with_reducible apply Lit.mk <;> first | exact same_may rfl | with_reducible exact same_rfl)
    | with_reducible apply keeps_Dev_event | extract_lets | split
    | (simp only [↓inv_mk]; with_reducible apply inv_parts ha) | dsimp +zetaDelta only

theorem keeps_Dev_seedStates {d0 : Dev} {x1 : Rq} {x2 : HStroke} {x3 : Nat} {x4 : Nat} {x5 : Nat} (ha : Q.allows 55411737) (h0 : Inv Q d0) : Inv2 Q (Dev.seedStates d0 x1 x2 x3 x4 x5) := by
  unfold Dev.seedStates
  try extract_lets
  repeat' first
    | with_reducible assumption | with_reducible exact ha.sub rfl | with_reducible apply keeps_Dev_readSeg
    | with_reducible apply keeps_Dev_writeSeg | with_reducible apply keeps_Dev_noSeed | extract_lets | split
    | with_reducible apply inv2_mk | with_reducible refine inv_eq2 (by assumption) ?_

theorem keeps_Dev_openSeg {d0 : Dev} {x1 : Rq} {x2 : HStroke} {x3 : Nat} {x4 : Nat} {x5 : Nat} (ha : Q.allows 55411737) (h0 : Inv Q d0) : Inv2 Q (Dev.openSeg d0 x1 x2 x3 x4 x5) := by
  unfold Dev.openSeg
  try extract_lets
  repeat' first
    | with_reducible assumption | with_reducible apply keeps_Dev_readSeg | with_reducible apply keeps_Dev_seedStates
    | extract_lets | split | with_reducible apply inv2_mk | with_reducible refine inv_eq2 (by assumption) ?_

theorem keeps_Dev_closeSeg {d0 : Dev} {x1 : Rq} {x2 : HStroke} {x3 : Nat} {x4 : Nat} {x5 : HSeg} (ha : Q.allows 55410713) (h0 : Inv Q d0) : Inv Q (Dev.closeSeg d0 x1 x2 x3 x4 x5) := by
  unfold Dev.closeSeg
  try extract_lets
  repeat' first
    | with_reducible assumption | with_reducible apply keeps_Dev_writeSeg

theorem keeps_Dev_heatFetch {d0 : Dev} {x1 : HStroke} {x2 : Nat} {x3 : Nat} {x4 : Nat} (ha : Q.allows 55411737) (h0 : Inv Q d0) : Inv2 Q (Dev.heatFetch d0 x1 x2 x3 x4) := by
  unfold Dev.heatFetch
  try extract_lets
  repeat' first
    | with_reducible assumption | with_reducible exact ha.sub rfl | with_reducible apply keeps_Dev_openSeg
    | with_reducible apply keeps_Dev_closeSeg | extract_lets | split | with_reducible apply inv2_mk
    | with_reducible refine inv_eq2 (by assumption) ?_ | dsimp +zetaDelta only

theorem keeps_Dev_applyDeposit {d0 : Dev} {x1 : Deposit} (ha : Q.allows 55411737) (h0 : Inv Q d0) : Inv Q (Dev.applyDeposit d0 x1) := by
  unfold Dev.applyDeposit
  try extract_lets
  repeat' first
    | with_reducible assumption | with_reducible exact ha.sub rfl | with_reducible apply keeps_Dev_openSeg
    | with_reducible apply keeps_Dev_closeSeg | extract_lets | split | with_reducible apply inv_snd

theorem keeps_Dev_heatReplay {d0 : Dev} {x1 : Nat} {x2 : List (Nat × Nat)} (ha : Q.allows 55083161) (h0 : Inv Q d0) : Inv Q (Dev.heatReplay d0 x1 x2) := by
  unfold Dev.heatReplay
  try extract_lets
  repeat' first
    | with_reducible assumption | with_reducible exact ha.sub rfl | with_reducible apply keeps_Dev_bumpBy
    | with_reducible apply keeps_Dev_orderReplay | split

theorem keeps_Dev_assimilate {d0 : Dev} {x1 : HMap} (ha : Q.allows 55411865) (h0 : Inv Q d0) : Inv2 Q (Dev.assimilate d0 x1) := by
  unfold Dev.assimilate
  try extract_lets
  repeat' first
    | with_reducible assumption | with_reducible exact ha.sub rfl | with_reducible apply keeps_Dev_bumpBy
    | with_reducible apply keeps_Dev_readSeg | with_reducible apply keeps_Dev_closeSeg
    | with_reducible apply keeps_Dev_heatReplay | intro _ _ _ | extract_lets | split | with_reducible apply inv_foldl1
    | with_reducible apply inv2_mk | with_reducible apply inv1_mk | with_reducible apply inv_fst
    | with_reducible refine inv_eq2 (by assumption) ?_ | with_reducible refine inv_eq1 (by assumption) ?_

theorem keeps_Dev_seamStates {d0 : Dev} {x1 : HStroke} {x2 : Nat} {x3 : Bool} (ha : Q.allows 55411737) (h0 : Inv Q d0) : Inv2 Q (Dev.seamStates d0 x1 x2 x3) := by
  unfold Dev.seamStates
  try extract_lets
  repeat' first
    | with_reducible assumption | with_reducible exact ha.sub rfl | with_reducible apply keeps_Dev_openSeg
    | with_reducible apply keeps_Dev_closeSeg | extract_lets | split | with_reducible apply inv2_mk
    | with_reducible refine inv_eq2 (by assumption) ?_

theorem keeps_Dev_seamSend {d0 : Dev} {x1 : Stroke} {x2 : HStroke} {x3 : Nat} {x4 : Nat} {x5 : Bool} (ha : Q.allows 55411737) (h0 : Inv Q d0) : Inv Q (Dev.seamSend d0 x1 x2 x3 x4 x5) := by
  unfold Dev.seamSend
  try extract_lets
  repeat' first
    | with_reducible assumption | with_reducible exact ha.sub rfl | with_reducible apply keeps_Dev_seamStates
    | with_reducible apply keeps_Dev_kSend | extract_lets | with_reducible apply inv_snd

theorem keeps_Dev_seamSends {d0 : Dev} {x1 : Stroke} {x2 : Nat} (ha : Q.allows 55411737) (h0 : Inv Q d0) : Inv Q (Dev.seamSends d0 x1 x2) := by
  unfold Dev.seamSends
  try extract_lets
  repeat' first
    | with_reducible assumption | with_reducible apply keeps_Dev_seamSend | extract_lets | split
    | dsimp +zetaDelta only

theorem keeps_Dev_seamReplace {d0 : Dev} {x1 : HStroke} {x2 : Nat} {x3 : Nat} {x4 : Bool} {x5 : List Nat} (ha : Q.allows 55411865) (h0 : Inv Q d0) : Inv Q (Dev.seamReplace d0 x1 x2 x3 x4 x5) := by
  unfold Dev.seamReplace
  try extract_lets
  repeat' first
    | with_reducible assumption | with_reducible exact ha.sub rfl | with_reducible apply keeps_Dev_openSeg
    | with_reducible apply keeps_Dev_closeSeg | with_reducible apply keeps_Dev_heatReplay | extract_lets
    | with_reducible apply inv_snd

theorem keeps_Dev_heatActed {d0 : Dev} {x1 : Nat} (ha : Q.allows 1024) (h0 : Inv Q d0) : Inv Q (Dev.heatActed d0 x1) := by
  unfold Dev.heatActed
  try extract_lets
  repeat' first
    | with_reducible assumption | with_reducible exact still_rfl
    | (with_reducible apply Lit.mk <;> first | exact same_may rfl | with_reducible exact same_rfl)
    | (simp only [↓inv_mk]; with_reducible apply inv_parts ha)

theorem keeps_Dev_applyHeat {d0 : Dev} (ha : Q.allows 55084185) (h0 : Inv Q d0) : Inv Q (Dev.applyHeat d0) := by
  unfold Dev.applyHeat
  try extract_lets
  repeat' first
    | with_reducible assumption | with_reducible exact ha.sub rfl | with_reducible exact still_rfl
    | (with_reducible apply Lit.mk <;> first | exact same_may rfl | with_reducible exact same_rfl)
    | with_reducible apply keeps_Dev_bumpEpoch | with_reducible apply keeps_Dev_event | extract_lets | split
    | (simp only [↓inv_mk]; with_reducible apply inv_parts ha) | dsimp +zetaDelta only

theorem keeps_Dev_loadFtab {d0 : Dev} {x1 : Nat} (ha : Q.allows 55410713) (h0 : Inv Q d0) : Inv2 Q (Dev.loadFtab d0 x1) := by
  unfold Dev.loadFtab
  try extract_lets
  repeat' first
    | with_reducible assumption | with_reducible apply keeps_Dev_hbmWords | extract_lets | split
    | with_reducible apply inv2_mk | with_reducible refine inv_eq2 (by assumption) ?_

theorem keeps_Dev_ftabCommit {d0 : Dev} {x1 : Nat} (ha : Q.allows 55411737) (h0 : Inv Q d0) : Inv Q (Dev.ftabCommit d0 x1) := by
  unfold Dev.ftabCommit
  try extract_lets
  repeat' first
    | with_reducible assumption | with_reducible exact ha.sub rfl | with_reducible exact still_rfl
    | (with_reducible apply Lit.mk <;> first | exact same_may rfl | with_reducible exact same_rfl)
    | with_reducible apply keeps_Dev_event | with_reducible apply keeps_Dev_set
    | with_reducible apply keeps_Dev_loadFtab | extract_lets | split
    | (simp only [↓inv_mk]; with_reducible apply inv_parts ha) | with_reducible refine inv_eq2 (by assumption) ?_

end Sys2Proof.Laws
end

