-- ==== Sys2Proof/Laws/Keeps/Sheaf.lean ====
section
/-!
SUPPORT. What Sheaf does keeps the invariant.
-/
namespace Sys2Proof.Laws
open Sys2Proof Sys2Proof.Machine
set_option linter.unusedVariables false
variable {Q : Scope}

/-- The invariant of the device that parsing a record comes to. -/
def ParsedInv (Q : Scope) : Parsed → Prop
  | .ok d _ => Inv Q d
  | .wait => True
  | .bad d _ _ => Inv Q d

theorem parsed_ok {d : Dev} {r : SegRef} (h : Inv Q d) : ParsedInv Q (.ok d r) := h
theorem parsed_bad {d : Dev} {c : Nat} {b : Bool} (h : Inv Q d) : ParsedInv Q (.bad d c b) := h
theorem parsed_wait : ParsedInv Q .wait := True.intro
theorem inv_parsed_ok {x : Parsed} {d : Dev} {r : SegRef} (e : x = .ok d r) (h : ParsedInv Q x) : Inv Q d := by subst e; exact h
theorem inv_parsed_bad {x : Parsed} {d : Dev} {c : Nat} {b : Bool} (e : x = .bad d c b) (h : ParsedInv Q x) : Inv Q d := by
  subst e; exact h

theorem keeps_segment {x0 : Nat} {x1 : List (BitVec 64)} {x2 : Nat} {d3 : Dev} (ha : Q.allows 55083069) (h3 : Inv Q d3) : Inv Q (Sys2Proof.Machine.segment x0 x1 x2 d3) := by
  unfold Sys2Proof.Machine.segment
  try extract_lets
  repeat' first
    | with_reducible assumption | with_reducible exact ha.sub rfl | with_reducible apply keeps_Dev_after
    | with_reducible apply keeps_Dev_updPortion | with_reducible apply keeps_Dev_pmc
    | with_reducible apply keeps_Dev_malformed | extract_lets | split

theorem keeps_Dev_parse {d : Dev} {n typ : Nat} {f : Dev → List (BitVec 64) → RecPos → Parsed} (ha : Q.allows 55083065)
    (h : Inv Q d) (hf : ∀ d r pos, Inv Q d → ParsedInv Q (f d r pos)) : Inv Q (d.parse n typ f) := by
  unfold Dev.parse
  repeat' first
    | with_reducible assumption | with_reducible exact ha.sub rfl | with_reducible apply keeps_Dev_updPortion
    | with_reducible apply keeps_Dev_malformed | with_reducible refine inv_parsed_ok (by assumption) ?_
    | with_reducible refine inv_parsed_bad (by assumption) ?_ | with_reducible apply hf | extract_lets | split
    | dsimp +zetaDelta only

theorem keeps_layerBegin {x0 : Nat} {x1 : Nat} {d2 : Dev} (ha : Q.allows 55083069) (h2 : Inv Q d2) : Inv Q (layerBegin x0 x1 d2) := by
  unfold layerBegin
  try extract_lets
  repeat' first
    | with_reducible assumption | with_reducible exact ha.sub rfl | with_reducible apply keeps_Dev_parse
    | with_reducible apply keeps_Dev_after | with_reducible apply keeps_Dev_updPortion
    | with_reducible apply parsed_ok | with_reducible apply parsed_bad | intro _ _ _ _ | extract_lets | split

theorem keeps_classTable {x0 : Nat} {x1 : Nat} {d2 : Dev} (ha : Q.allows 55083069) (h2 : Inv Q d2) : Inv Q (classTable x0 x1 d2) := by
  unfold classTable
  try extract_lets
  repeat' first
    | with_reducible assumption | with_reducible exact ha.sub rfl | with_reducible apply keeps_Dev_parse
    | with_reducible apply keeps_Dev_after | with_reducible apply keeps_Dev_updPortion
    | with_reducible apply parsed_ok | with_reducible apply parsed_bad | intro _ _ _ _ | extract_lets | split

theorem keeps_stripeBegin {x0 : Nat} {x1 : Nat} {d2 : Dev} (ha : Q.allows 55083069) (h2 : Inv Q d2) : Inv Q (stripeBegin x0 x1 d2) := by
  unfold stripeBegin
  try extract_lets
  repeat' first
    | with_reducible assumption | with_reducible exact ha.sub rfl | with_reducible apply keeps_Dev_parse
    | with_reducible apply keeps_Dev_after | with_reducible apply keeps_Dev_updPortion
    | with_reducible apply parsed_ok | with_reducible apply parsed_bad | with_reducible exact parsed_wait
    | intro _ _ _ _ | extract_lets | split

theorem keeps_layerEnd {x0 : Nat} {x1 : Nat} {d2 : Dev} (ha : Q.allows 55083069) (h2 : Inv Q d2) : Inv Q (layerEnd x0 x1 d2) := by
  unfold layerEnd
  try extract_lets
  repeat' first
    | with_reducible assumption | with_reducible exact ha.sub rfl | with_reducible apply keeps_Dev_parse
    | with_reducible apply keeps_Dev_after | with_reducible apply keeps_Dev_updPortion
    | with_reducible apply keeps_Dev_updLayer | with_reducible apply parsed_ok | with_reducible apply parsed_bad
    | intro _ _ _ _ | extract_lets | split

theorem keeps_Dev_takeGeo {d0 : Dev} {x1 : Nat} {x2 : Stripe} {x3 : Geo} {x4 : Int} {x5 : Int} {x6 : RecPos} (ha : Q.allows 32) (h0 : Inv Q d0) : ParsedInv Q (Dev.takeGeo d0 x1 x2 x3 x4 x5 x6) := by
  unfold Dev.takeGeo
  try extract_lets
  repeat' first
    | with_reducible assumption | with_reducible apply keeps_Dev_updPortion | with_reducible apply parsed_ok
    | with_reducible apply parsed_bad | split

theorem keeps_Dev_shapeRec {d0 : Dev} {x1 : Nat} {x2 : List (BitVec 64)} {x3 : RecPos} (ha : Q.allows 32) (h0 : Inv Q d0) : ParsedInv Q (Dev.shapeRec d0 x1 x2 x3) := by
  unfold Dev.shapeRec
  try extract_lets
  repeat' first
    | with_reducible assumption | with_reducible apply keeps_Dev_takeGeo | with_reducible apply parsed_bad
    | extract_lets | split

theorem keeps_rect {x0 : Nat} {x1 : Nat} {d2 : Dev} (ha : Q.allows 55083069) (h2 : Inv Q d2) : Inv Q (rect x0 x1 d2) := by
  unfold rect
  try extract_lets
  repeat' first
    | with_reducible assumption | with_reducible exact ha.sub rfl | with_reducible apply keeps_Dev_parse
    | with_reducible apply keeps_Dev_after | with_reducible apply keeps_Dev_shapeRec | intro _ _ _ _

theorem keeps_trap {x0 : Nat} {x1 : Nat} {d2 : Dev} (ha : Q.allows 55083069) (h2 : Inv Q d2) : Inv Q (trap x0 x1 d2) := by
  unfold trap
  try extract_lets
  repeat' first
    | with_reducible assumption | with_reducible exact ha.sub rfl | with_reducible apply keeps_Dev_parse
    | with_reducible apply keeps_Dev_after | with_reducible apply keeps_Dev_shapeRec | intro _ _ _ _

theorem keeps_Dev_refRec {d0 : Dev} {x1 : Nat} {x2 : List (BitVec 64)} {x3 : RecPos} (ha : Q.allows 55410745) (h0 : Inv Q d0) : ParsedInv Q (Dev.refRec d0 x1 x2 x3) := by
  unfold Dev.refRec
  try extract_lets
  repeat' first
    | with_reducible assumption | with_reducible exact ha.sub rfl | with_reducible apply keeps_Dev_cell
    | with_reducible apply keeps_Dev_takeGeo | with_reducible apply parsed_bad | with_reducible exact parsed_wait
    | extract_lets | split | with_reducible refine inv_eq2 (by assumption) ?_

theorem keeps_ref_ {x0 : Nat} {x1 : Nat} {d2 : Dev} (ha : Q.allows 55410749) (h2 : Inv Q d2) : Inv Q (ref_ x0 x1 d2) := by
  unfold ref_
  try extract_lets
  repeat' first
    | with_reducible assumption | with_reducible exact ha.sub rfl | with_reducible apply keeps_Dev_parse
    | with_reducible apply keeps_Dev_after | with_reducible apply keeps_Dev_refRec | intro _ _ _ _

theorem keeps_aref {x0 : Nat} {x1 : Nat} {d2 : Dev} (ha : Q.allows 55410749) (h2 : Inv Q d2) : Inv Q (aref x0 x1 d2) := by
  unfold aref
  try extract_lets
  repeat' first
    | with_reducible assumption | with_reducible exact ha.sub rfl | with_reducible apply keeps_Dev_parse
    | with_reducible apply keeps_Dev_after | with_reducible apply keeps_Dev_refRec | intro _ _ _ _

theorem keeps_rawBlock {x0 : Nat} {x1 : Nat} {d2 : Dev} (ha : Q.allows 55083069) (h2 : Inv Q d2) : Inv Q (rawBlock x0 x1 d2) := by
  unfold rawBlock
  try extract_lets
  repeat' first
    | with_reducible assumption | with_reducible exact ha.sub rfl | with_reducible apply keeps_Dev_parse
    | with_reducible apply keeps_Dev_after | with_reducible apply keeps_Dev_takeGeo | with_reducible apply parsed_bad
    | intro _ _ _ _ | extract_lets | split

theorem keeps_sheafCheck {x0 : Nat} {x1 : Nat} {d2 : Dev} (ha : Q.allows 55083261) (h2 : Inv Q d2) : Inv Q (sheafCheck x0 x1 d2) := by
  unfold sheafCheck
  try extract_lets
  repeat' first
    | with_reducible assumption | with_reducible exact ha.sub rfl | with_reducible apply keeps_Dev_parse
    | with_reducible apply keeps_Dev_after | with_reducible apply keeps_Dev_updPortion
    | with_reducible apply keeps_Dev_winnowCheck | with_reducible apply parsed_ok | with_reducible apply parsed_bad
    | intro _ _ _ _ | extract_lets | split

theorem keeps_fence {x0 : Nat} {x1 : Nat} {d2 : Dev} (ha : Q.allows 55083069) (h2 : Inv Q d2) : Inv Q (fence x0 x1 d2) := by
  unfold fence
  try extract_lets
  repeat' first
    | with_reducible assumption | with_reducible exact ha.sub rfl | with_reducible apply keeps_Dev_parse
    | with_reducible apply keeps_Dev_after | with_reducible apply keeps_Dev_updPortion
    | with_reducible apply parsed_ok | with_reducible apply parsed_bad | intro _ _ _ _ | extract_lets | split

theorem keeps_Dev_libBody {d0 : Dev} {x1 : Rq} {x2 : Nat} {x3 : Nat} {x4 : Nat} {x5 : Box} {x6 : List Geo} (ha : Q.allows 55410745) (h0 : Inv Q d0) : Inv2 Q (Dev.libBody d0 x1 x2 x3 x4 x5 x6) := by
  induction x6 generalizing d0 x1 x2 x3 x4 x5 with
  | nil =>
    unfold Dev.libBody
    try extract_lets
    repeat' first
      | with_reducible assumption | with_reducible apply inv2_mk
  | cons x l ih =>
    unfold Dev.libBody
    try extract_lets
    repeat' first
      | with_reducible assumption | with_reducible apply ih | with_reducible apply keeps_Dev_cell | extract_lets
      | split | with_reducible apply inv2_mk | with_reducible refine inv_eq2 (by assumption) ?_

theorem keeps_Dev_libEntry {d0 : Dev} {x1 : Rq} {x2 : Nat} {x3 : Nat} {x4 : Nat} (ha : Q.allows 55410745) (h0 : Inv Q d0) : Inv2 Q (Dev.libEntry d0 x1 x2 x3 x4) := by
  unfold Dev.libEntry
  try extract_lets
  repeat' first
    | with_reducible assumption | with_reducible apply keeps_Dev_libRead | with_reducible apply keeps_Dev_cell
    | with_reducible apply keeps_Dev_cellBody | with_reducible apply keeps_Dev_libBody | extract_lets | split
    | with_reducible apply inv2_mk | with_reducible refine inv_eq2 (by assumption) ?_

theorem keeps_Dev_libAll {d0 : Dev} {x1 : Rq} {x2 : Nat} {x3 : Nat} {x4 : Nat} {x5 : Nat} (ha : Q.allows 55410745) (h0 : Inv Q d0) : Inv2 Q (Dev.libAll d0 x1 x2 x3 x4 x5) := by
  induction x4 generalizing d0 x1 x2 x3 x5 with
  | zero =>
    unfold Dev.libAll
    try extract_lets
    repeat' first
      | with_reducible assumption | with_reducible apply inv2_mk
  | succ n ih =>
    unfold Dev.libAll
    try extract_lets
    repeat' first
      | with_reducible assumption | with_reducible apply ih | with_reducible apply keeps_Dev_libEntry | extract_lets
      | split | with_reducible apply inv2_mk | with_reducible refine inv_eq2 (by assumption) ?_

theorem keeps_libValidateDone {x0 : Nat} {d1 : Dev} (ha : Q.allows 17235279933) (h1 : Inv Q d1) : Inv Q (libValidateDone x0 d1) := by
  unfold libValidateDone
  try extract_lets
  repeat' first
    | with_reducible assumption | with_reducible exact ha.sub rfl | with_reducible exact still_rfl
    | (with_reducible apply Lit.mk <;> first | exact same_may rfl | with_reducible exact same_rfl)
    | with_reducible apply keeps_Dev_after | with_reducible apply keeps_Dev_libAll
    | with_reducible apply keeps_Dev_endCmd | with_reducible apply keeps_Dev_event | extract_lets | split
    | (simp only [↓inv_mk]; with_reducible apply inv_parts ha) | with_reducible refine inv_eq2 (by assumption) ?_
    | dsimp +zetaDelta only

end Sys2Proof.Laws
end

