-- ==== Sys2Proof/Laws/Keeps/Thresher.lean ====
section
/-!
SUPPORT. What Thresher does keeps the invariant.
-/
namespace Sys2Proof.Laws
open Sys2Proof Sys2Proof.Machine
set_option linter.unusedVariables false
variable {Q : Scope}

theorem keeps_blockRowBegin {x0 : Nat} {x1 : Nat} {d2 : Dev} (ha : Q.allows 32804) (h2 : Inv Q d2) : Inv Q (blockRowBegin x0 x1 d2) := by
  unfold blockRowBegin
  try extract_lets
  repeat' first
    | with_reducible assumption | with_reducible exact ha.sub rfl | with_reducible exact still_rfl
    | (with_reducible apply Lit.mk <;> first | exact same_may rfl | with_reducible exact same_rfl)
    | with_reducible apply keeps_Dev_after | with_reducible apply keeps_Dev_setThr
    | with_reducible apply keeps_Dev_cacheBegin | with_reducible apply keeps_Dev_putBlock | extract_lets | split
    | (simp only [↓inv_mk]; with_reducible apply inv_parts ha) | dsimp +zetaDelta only

theorem keeps_Dev_expand {d0 : Dev} {x1 : Nat} {x2 : Stroke} {x3 : Layer} {x4 : List GeoRec} {x5 : Nat} {x6 : Nat} (ha : Q.allows 55410745) (h0 : Inv Q d0) : Inv2 Q (Dev.expand d0 x1 x2 x3 x4 x5 x6) := by
  unfold Dev.expand
  try extract_lets
  repeat' first
    | with_reducible assumption | with_reducible apply keeps_gather | intro _ _ _ | extract_lets | split
    | with_reducible apply inv_foldl21 | with_reducible apply inv2_mk | with_reducible apply inv21_mk
    | with_reducible apply inv_snd1 | with_reducible refine inv_eq2 (by assumption) ?_
    | with_reducible refine inv_eq21 (by assumption) ?_

theorem keeps_Dev_writeLines {d0 : Dev} {x1 : Nat} {x2 : Stroke} {x3 : Nat} {x4 : Nat} {x5 : List (List Nat)} {x6 : List Nat} (ha : Q.allows 55410713) (h0 : Inv Q d0) : Inv Q (Dev.writeLines d0 x1 x2 x3 x4 x5 x6) := by
  unfold Dev.writeLines
  try extract_lets
  repeat' first
    | with_reducible assumption | with_reducible exact ha.sub rfl | with_reducible apply keeps_Dev_hbmWrite
    | with_reducible apply keeps_Dev_pmc | intro _ _ _ | with_reducible apply inv_foldl

theorem keeps_Dev_densCheck {d0 : Dev} {x1 : Layer} {x2 : Nat} {x3 : Nat} {x4 : Nat} (ha : Q.allows 55083033) (h0 : Inv Q d0) : Inv Q (Dev.densCheck d0 x1 x2 x3 x4) := by
  unfold Dev.densCheck
  try extract_lets
  repeat' first
    | with_reducible assumption | with_reducible exact ha.sub rfl | with_reducible apply keeps_Dev_bump
    | with_reducible apply keeps_Dev_eventLim | split

theorem keeps_blockExpanded {x0 : Nat} {x1 : List (Nat × Nat × Nat)} {x2 : Bool} {x3 : Nat} {d4 : Dev} (ha : Q.allows 55410941) (h4 : Inv Q d4) : Inv Q (blockExpanded x0 x1 x2 x3 d4) := by
  unfold blockExpanded
  try extract_lets
  repeat' first
    | with_reducible assumption | with_reducible exact ha.sub rfl | with_reducible apply keeps_Dev_after
    | with_reducible apply keeps_Dev_setThr | with_reducible apply keeps_Dev_updBlock
    | with_reducible apply keeps_Dev_expand | with_reducible apply keeps_Dev_queueRebuild
    | with_reducible apply keeps_Dev_malformed | with_reducible apply keeps_Dev_writeLines
    | with_reducible apply keeps_Dev_densCheck | with_reducible apply keeps_Dev_winnowCheck
    | with_reducible apply keeps_Dev_toStrikable | extract_lets | split
    | with_reducible refine inv_eq2 (by assumption) ?_

theorem keeps_rebuildStart {x0 : Nat} {x1 : Nat} {d2 : Dev} (ha : Q.allows 32804) (h2 : Inv Q d2) : Inv Q (rebuildStart x0 x1 d2) := by
  unfold rebuildStart
  try extract_lets
  repeat' first
    | with_reducible assumption | with_reducible exact ha.sub rfl | with_reducible exact still_rfl
    | (with_reducible apply Lit.mk <;> first | exact same_may rfl | with_reducible exact same_rfl)
    | with_reducible apply keeps_Dev_after | with_reducible apply keeps_Dev_cacheBegin | extract_lets | split
    | (simp only [↓inv_mk]; with_reducible apply inv_parts ha) | dsimp +zetaDelta only

theorem keeps_Dev_takeOver {d0 : Dev} {x1 : Nat} {x2 : Nat} (ha : Q.allows 55083065) (h0 : Inv Q d0) : Inv Q (Dev.takeOver d0 x1 x2) := by
  unfold Dev.takeOver
  try extract_lets
  repeat' first
    | with_reducible assumption | with_reducible exact ha.sub rfl | with_reducible exact still_rfl
    | (with_reducible apply Lit.mk <;> first | exact same_may rfl | with_reducible exact same_rfl)
    | with_reducible apply keeps_Dev_setThr | with_reducible apply keeps_Dev_queueRebuild
    | with_reducible apply keeps_Dev_updBlock | with_reducible apply keeps_Dev_event | extract_lets | split
    | (simp only [↓inv_mk]; with_reducible apply inv_parts ha) | dsimp +zetaDelta only

theorem keeps_Dev_giveBack {d0 : Dev} {x1 : Nat} (ha : Q.allows 55083065) (h0 : Inv Q d0) : Inv Q (Dev.giveBack d0 x1) := by
  unfold Dev.giveBack
  try extract_lets
  repeat' first
    | with_reducible assumption | with_reducible exact ha.sub rfl | with_reducible exact still_rfl
    | (with_reducible apply Lit.mk <;> first | exact same_may rfl | with_reducible exact same_rfl)
    | with_reducible apply keeps_Dev_event | extract_lets | (simp only [↓inv_mk]; with_reducible apply inv_parts ha)
    | dsimp +zetaDelta only

theorem keeps_Dev_countMatched {d0 : Dev} {x1 : Nat} {x2 : Nat} {x3 : Nat} (ha : Q.allows 55083065) (h0 : Inv Q d0) : Inv Q (Dev.countMatched d0 x1 x2 x3) := by
  unfold Dev.countMatched
  try extract_lets
  repeat' first
    | with_reducible assumption | with_reducible exact ha.sub rfl | with_reducible apply keeps_Dev_setThr
    | with_reducible apply keeps_Dev_takeOver | with_reducible apply keeps_Dev_event | split

theorem keeps_Dev_rebuildFails {d0 : Dev} {x1 : Nat} {x2 : Block} {x3 : Bool} (ha : Q.allows 55083065) (h0 : Inv Q d0) : Inv Q (Dev.rebuildFails d0 x1 x2 x3) := by
  unfold Dev.rebuildFails
  try extract_lets
  repeat' first
    | with_reducible assumption | with_reducible exact ha.sub rfl | with_reducible apply keeps_Dev_updBlock
    | with_reducible apply keeps_Dev_event

theorem keeps_Dev_faultBlock {d0 : Dev} {x1 : Block} {x2 : Nat} {x3 : Nat} (ha : Q.allows 1099566710841) (h0 : Inv Q d0) : Inv Q (Dev.faultBlock d0 x1 x2 x3) := by
  unfold Dev.faultBlock
  try extract_lets
  repeat' first
    | with_reducible assumption | with_reducible exact ha.sub rfl | with_reducible apply keeps_Dev_updBlock
    | with_reducible apply keeps_Dev_event | with_reducible apply keeps_Dev_triggerNext
    | with_reducible apply keeps_Dev_wr | extract_lets | split | dsimp +zetaDelta only

theorem keeps_rebuildComplete {x0 : Nat} {x1 : List (Nat × Nat × Nat)} {x2 : Bool} {x3 : List (Nat × Nat × List (BitVec 64))} {x4 : Nat} {d5 : Dev} (ha : Q.allows 1099567038717) (h5 : Inv Q d5) : Inv Q (rebuildComplete x0 x1 x2 x3 x4 d5) := by
  unfold rebuildComplete
  try extract_lets
  repeat' first
    | with_reducible assumption | with_reducible exact ha.sub rfl | with_reducible exact still_rfl
    | (with_reducible apply Lit.mk <;> first | exact same_may rfl | with_reducible exact same_rfl)
    | with_reducible apply keeps_Dev_after | with_reducible apply keeps_Dev_bump
    | with_reducible apply keeps_Dev_expand | with_reducible apply keeps_Dev_rebuildFails
    | with_reducible apply keeps_Dev_malformed | with_reducible apply keeps_Dev_writeLines
    | with_reducible apply keeps_Dev_ldgStroke | with_reducible apply keeps_Dev_updBlock
    | with_reducible apply keeps_Dev_densCheck | with_reducible apply keeps_Dev_toStrikable
    | with_reducible apply keeps_Dev_event | with_reducible apply keeps_Dev_countMatched
    | with_reducible apply keeps_Dev_faultBlock | extract_lets | split
    | (simp only [↓inv_mk]; with_reducible apply inv_parts ha) | with_reducible refine inv_eq2 (by assumption) ?_
    | dsimp +zetaDelta only

theorem keeps_Dev_resumeBlocks {d0 : Dev} (ha : Q.allows 32) (h0 : Inv Q d0) : Inv Q (Dev.resumeBlocks d0) := by
  unfold Dev.resumeBlocks
  try extract_lets
  repeat' first
    | with_reducible assumption | with_reducible exact still_rfl
    | (with_reducible apply Lit.mk <;> first | exact same_may rfl | with_reducible exact same_rfl)
    | with_reducible apply keeps_Dev_queueRebuild | with_reducible apply keeps_Dev_updBlock | intro _ _ _
    | extract_lets | split | (simp only [↓inv_mk]; with_reducible apply inv_parts ha) | with_reducible apply inv_foldl
    | dsimp +zetaDelta only

theorem keeps_Dev_dosePoisoned {d0 : Dev} {x1 : Nat} {x2 : Nat} {x3 : Nat} {x4 : Nat} (ha : Q.allows 224) (h0 : Inv Q d0) : Inv Q (Dev.dosePoisoned d0 x1 x2 x3 x4) := by
  unfold Dev.dosePoisoned
  try extract_lets
  repeat' first
    | with_reducible assumption | with_reducible exact ha.sub rfl | with_reducible exact still_rfl
    | (with_reducible apply Lit.mk <;> first | exact same_may rfl | with_reducible exact same_rfl)
    | with_reducible apply keeps_Dev_updBlock | with_reducible apply keeps_Dev_queueRebuild
    | with_reducible apply keeps_Dev_ldgStroke | extract_lets | split
    | (simp only [↓inv_mk]; with_reducible apply inv_parts ha) | dsimp +zetaDelta only

theorem keeps_Dev_endLib {d0 : Dev} (ha : Q.allows 17201397817) (h0 : Inv Q d0) : Inv Q (Dev.endLib d0) := by
  unfold Dev.endLib
  try extract_lets
  repeat' first
    | with_reducible assumption | with_reducible exact ha.sub rfl | with_reducible exact still_rfl
    | (with_reducible apply Lit.mk <;> first | exact same_may rfl | with_reducible exact same_rfl)
    | with_reducible apply keeps_Dev_endCmd | extract_lets | split
    | (simp only [↓inv_mk]; with_reducible apply inv_parts ha)

theorem keeps_Dev_thrDisable {d0 : Dev} {x1 : Nat} (ha : Q.allows 17234952249) (h0 : Inv Q d0) : Inv Q (Dev.thrDisable d0 x1) := by
  unfold Dev.thrDisable
  try extract_lets
  repeat' first
    | with_reducible assumption | with_reducible exact ha.sub rfl | with_reducible exact still_rfl
    | (with_reducible apply Lit.mk <;> first | exact same_may rfl | with_reducible exact same_rfl)
    | with_reducible apply keeps_Dev_event | with_reducible apply keeps_Dev_endLib
    | with_reducible apply keeps_Dev_set | with_reducible apply keeps_Dev_queueRebuild
    | with_reducible apply keeps_Dev_updBlock | with_reducible apply keeps_Dev_setThr
    | with_reducible apply keeps_Dev_takeOver | extract_lets | split
    | (simp only [↓inv_mk]; with_reducible apply inv_parts ha) | dsimp +zetaDelta only

theorem keeps_Dev_thrEnable {d0 : Dev} {x1 : Nat} (ha : Q.allows 55083065) (h0 : Inv Q d0) : Inv Q (Dev.thrEnable d0 x1) := by
  unfold Dev.thrEnable
  try extract_lets
  repeat' first
    | with_reducible assumption | with_reducible exact ha.sub rfl | with_reducible apply keeps_Dev_set
    | with_reducible apply keeps_Dev_giveBack | split

theorem keeps_Dev_thrReinstate {d0 : Dev} {x1 : Nat} (ha : Q.allows 55083065) (h0 : Inv Q d0) : Inv Q (Dev.thrReinstate d0 x1) := by
  unfold Dev.thrReinstate
  try extract_lets
  repeat' first
    | with_reducible assumption | with_reducible exact ha.sub rfl | with_reducible apply keeps_Dev_setThr
    | with_reducible apply keeps_Dev_giveBack | split

theorem keeps_thresherDisable {x0 : Nat} {x1 : Nat} {d2 : Dev} (ha : Q.allows 17234952253) (h2 : Inv Q d2) : Inv Q (thresherDisable x0 x1 d2) := by
  unfold thresherDisable
  try extract_lets
  repeat' first
    | with_reducible assumption | with_reducible exact ha.sub rfl | with_reducible apply keeps_Dev_after
    | with_reducible apply keeps_Dev_thrDisable | split

theorem keeps_thresherEnable {x0 : Nat} {x1 : Nat} {d2 : Dev} (ha : Q.allows 55083069) (h2 : Inv Q d2) : Inv Q (thresherEnable x0 x1 d2) := by
  unfold thresherEnable
  try extract_lets
  repeat' first
    | with_reducible assumption | with_reducible exact ha.sub rfl | with_reducible apply keeps_Dev_after
    | with_reducible apply keeps_Dev_thrEnable | split

theorem keeps_thresherReinstate {x0 : Nat} {x1 : Nat} {d2 : Dev} (ha : Q.allows 55083069) (h2 : Inv Q d2) : Inv Q (thresherReinstate x0 x1 d2) := by
  unfold thresherReinstate
  try extract_lets
  repeat' first
    | with_reducible assumption | with_reducible exact ha.sub rfl | with_reducible apply keeps_Dev_after
    | with_reducible apply keeps_Dev_thrReinstate | split

end Sys2Proof.Laws
end

