-- ==== Sys2Proof/Laws/Keeps/Tiller.lean ====
section
/-!
SUPPORT. What Tiller does keeps the invariant.
-/
namespace Sys2Proof.Laws
open Sys2Proof Sys2Proof.Machine
set_option linter.unusedVariables false
variable {Q : Scope}

theorem keeps_Dev_calSet {d0 : Dev} {x1 : Rq} {x2 : Nat} {x3 : Nat} (ha : Q.allows 55410713) (h0 : Inv Q d0) : Inv2 Q (Dev.calSet d0 x1 x2 x3) := by
  unfold Dev.calSet
  try extract_lets
  repeat' first
    | with_reducible assumption | with_reducible apply keeps_Dev_hbmWords | extract_lets | split
    | with_reducible apply inv2_mk | with_reducible refine inv_eq2 (by assumption) ?_

theorem keeps_Dev_calWords {d0 : Dev} {x1 : Rq} {x2 : Nat} {x3 : Nat} {x4 : Nat} (ha : Q.allows 55410713) (h0 : Inv Q d0) : Inv2 Q (Dev.calWords d0 x1 x2 x3 x4) := by
  unfold Dev.calWords
  try extract_lets
  repeat' first
    | with_reducible assumption | with_reducible apply keeps_Dev_calSet | intro _ _ _ | extract_lets | split
    | with_reducible apply inv_foldl2 | with_reducible apply inv2_mk | with_reducible apply inv_snd
    | with_reducible refine inv_eq2 (by assumption) ?_

theorem keeps_Dev_heatTwice {d0 : Dev} {x1 : HStroke} {x2 : Nat} {x3 : Nat} {x4 : Nat} (ha : Q.allows 55411737) (h0 : Inv Q d0) : Inv2 Q (Dev.heatTwice d0 x1 x2 x3 x4) := by
  unfold Dev.heatTwice
  try extract_lets
  repeat' first
    | with_reducible assumption | with_reducible apply keeps_Dev_heatFetch | extract_lets | split
    | with_reducible apply inv2_mk | with_reducible refine inv_eq2 (by assumption) ?_

theorem keeps_Dev_calTwice {d0 : Dev} {x1 : Rq} {x2 : Nat} {x3 : Nat} {x4 : Nat} (ha : Q.allows 55410713) (h0 : Inv Q d0) : Inv2 Q (Dev.calTwice d0 x1 x2 x3 x4) := by
  unfold Dev.calTwice
  try extract_lets
  repeat' first
    | with_reducible assumption | with_reducible apply keeps_Dev_calWords | extract_lets | split
    | with_reducible apply inv2_mk | with_reducible refine inv_eq2 (by assumption) ?_

theorem keeps_Dev_calBoth {d0 : Dev} {x1 : Nat} (ha : Q.allows 55410713) (h0 : Inv Q d0) : Inv2 Q (Dev.calBoth d0 x1) := by
  unfold Dev.calBoth
  try extract_lets
  repeat' first
    | with_reducible assumption | with_reducible apply keeps_Dev_calTwice | extract_lets | split
    | with_reducible apply inv2_mk | with_reducible refine inv_eq2 (by assumption) ?_

theorem keeps_Dev_chainReads {d0 : Dev} {x1 : Nat} {x2 : HStroke} {x3 : Nat} {x4 : Nat} (ha : Q.allows 55411737) (h0 : Inv Q d0) : Inv2 Q (Dev.chainReads d0 x1 x2 x3 x4) := by
  unfold Dev.chainReads
  try extract_lets
  repeat' first
    | with_reducible assumption | with_reducible exact ha.sub rfl | with_reducible apply keeps_Dev_heatTwice
    | with_reducible apply keeps_Dev_calBoth | extract_lets | split | with_reducible apply inv2_mk
    | with_reducible refine inv_eq2 (by assumption) ?_

theorem keeps_Dev_chain {d0 : Dev} {x1 : Nat} {x2 : Stroke} {x3 : Layer} {x4 : HStroke} {x5 : Nat} {x6 : List Nat} {x7 : Option Nat} {x8 : Option Nat} (ha : Q.allows 55411737) (h0 : Inv Q d0) : Inv2 Q (Dev.chain d0 x1 x2 x3 x4 x5 x6 x7 x8) := by
  unfold Dev.chain
  try extract_lets
  repeat' first
    | with_reducible assumption | with_reducible apply keeps_Dev_chainReads | extract_lets | split
    | with_reducible apply inv2_mk | with_reducible refine inv_eq2 (by assumption) ?_

theorem keeps_Dev_readDose {d0 : Dev} {x1 : Nat} {x2 : Stroke} {x3 : Nat} (ha : Q.allows 55410937) (h0 : Inv Q d0) : Inv2 Q (Dev.readDose d0 x1 x2 x3) := by
  unfold Dev.readDose
  try extract_lets
  repeat' first
    | with_reducible assumption | with_reducible exact ha.sub rfl | with_reducible apply keeps_Dev_hbmRead
    | with_reducible apply keeps_Dev_dosePoisoned | extract_lets | split | with_reducible apply inv2_mk
    | with_reducible refine inv_eq2 (by assumption) ?_

theorem keeps_Dev_dueTrigger {d0 : Dev} {x1 : Entry} {x2 : Nat} (ha : Q.allows 1099511627784) (h0 : Inv Q d0) : Inv Q (Dev.dueTrigger d0 x1 x2) := by
  unfold Dev.dueTrigger
  try extract_lets
  repeat' first
    | with_reducible assumption | with_reducible apply keeps_Dev_triggerNext | split

theorem keeps_Dev_entryNotes {d0 : Dev} {x1 : Nat} {x2 : Entry} {x3 : Option (Nat × Nat)} {x4 : Option Poison} (ha : Q.allows 1099566710809) (h0 : Inv Q d0) : Inv Q (Dev.entryNotes d0 x1 x2 x3 x4) := by
  unfold Dev.entryNotes
  try extract_lets
  repeat' first
    | with_reducible assumption | with_reducible exact ha.sub rfl | with_reducible apply keeps_Dev_pmc
    | with_reducible apply keeps_Dev_dueTrigger | with_reducible apply keeps_Dev_event
    | with_reducible apply keeps_Dev_bump | split

theorem keeps_Dev_chainUpsets {d0 : Dev} {x1 : Nat} {x2 : Option Nat} {x3 : Option Nat} (ha : Q.allows 55083033) (h0 : Inv Q d0) : Inv Q (Dev.chainUpsets d0 x1 x2 x3) := by
  unfold Dev.chainUpsets
  try extract_lets
  repeat' first
    | with_reducible assumption | with_reducible apply keeps_Dev_sramBad | extract_lets | split
    | dsimp +zetaDelta only

theorem keeps_tillerEntryCompute {x0 : Nat} {x1 : Option Nat} {x2 : Option Nat} {x3 : Nat} {d4 : Dev} (ha : Q.allows 1099567039741) (h4 : Inv Q d4) : Inv Q (tillerEntryCompute x0 x1 x2 x3 d4) := by
  unfold tillerEntryCompute
  try extract_lets
  repeat' first
    | with_reducible assumption | with_reducible exact ha.sub rfl | with_reducible apply keeps_Dev_after
    | with_reducible apply keeps_Dev_readDose | with_reducible apply keeps_Dev_setCol
    | with_reducible apply keeps_Dev_chain | with_reducible apply keeps_Dev_chainUpsets
    | with_reducible apply keeps_Dev_entryNotes | extract_lets | split | with_reducible apply inv_snd
    | with_reducible refine inv_eq2 (by assumption) ?_

theorem keeps_correctionReplay {x0 : Nat} {x1 : Option Nat} {x2 : Option Nat} {x3 : Nat} {d4 : Dev} (ha : Q.allows 1099567039741) (h4 : Inv Q d4) : Inv Q (correctionReplay x0 x1 x2 x3 d4) := by
  unfold correctionReplay
  try extract_lets
  repeat' first
    | with_reducible assumption | with_reducible exact ha.sub rfl | with_reducible apply keeps_Dev_after
    | with_reducible apply keeps_Dev_readDose | with_reducible apply keeps_Dev_chain
    | with_reducible apply keeps_Dev_chainUpsets | with_reducible apply keeps_Dev_setCol
    | with_reducible apply keeps_Dev_pmc | with_reducible apply keeps_Dev_bump
    | with_reducible apply keeps_Dev_entryNotes | extract_lets | split | with_reducible apply inv_snd
    | with_reducible refine inv_eq2 (by assumption) ?_

theorem keeps_Dev_rampWrite {d0 : Dev} {x1 : Nat} {x2 : Bool} {x3 : Nat} (ha : Q.allows 129) (h0 : Inv Q d0) : Inv Q (Dev.rampWrite d0 x1 x2 x3) := by
  unfold Dev.rampWrite
  try extract_lets
  repeat' first
    | with_reducible assumption | with_reducible exact ha.sub rfl | with_reducible apply keeps_Dev_setCol
    | with_reducible apply keeps_Dev_wr

theorem keeps_Dev_shadowWrite {d0 : Dev} {x1 : Nat} {x2 : Nat} {x3 : Nat} (ha : Q.allows 129) (h0 : Inv Q d0) : Inv Q (Dev.shadowWrite d0 x1 x2 x3) := by
  unfold Dev.shadowWrite
  try extract_lets
  repeat' first
    | with_reducible assumption | with_reducible exact ha.sub rfl | with_reducible apply keeps_Dev_setCol
    | with_reducible apply keeps_Dev_wr | with_reducible apply keeps_Dev_rampWrite | split

theorem keeps_shadowWrite {x0 : Nat} {x1 : Nat} {x2 : Nat} {x3 : Nat} {d4 : Dev} (ha : Q.allows 32901) (h4 : Inv Q d4) : Inv Q (shadowWrite x0 x1 x2 x3 d4) := by
  unfold shadowWrite
  try extract_lets
  repeat' first
    | with_reducible assumption | with_reducible exact ha.sub rfl | with_reducible apply keeps_Dev_after
    | with_reducible apply keeps_Dev_shadowWrite | split

theorem keeps_Dev_setHandover {d0 : Dev} {x1 : Nat} (ha : Q.allows 128) (h0 : Inv Q d0) : Inv Q (Dev.setHandover d0 x1) := by
  unfold Dev.setHandover
  try extract_lets
  repeat' first
    | with_reducible assumption | with_reducible apply keeps_Dev_setCol

theorem keeps_Dev_handOver {d0 : Dev} {x1 : Nat} (ha : Q.allows 128) (h0 : Inv Q d0) : Inv Q (Dev.handOver d0 x1) := by
  unfold Dev.handOver
  try extract_lets
  repeat' first
    | with_reducible assumption | with_reducible exact still_rfl
    | (with_reducible apply Lit.mk <;> first | exact same_may rfl | with_reducible exact same_rfl)
    | with_reducible apply keeps_Dev_setCol | with_reducible apply keeps_Dev_setHandover | extract_lets | split
    | (simp only [↓inv_mk]; with_reducible apply inv_parts ha) | dsimp +zetaDelta only

theorem keeps_Dev_wordsTwice {d0 : Dev} {x1 : Rq} {x2 : Nat} {x3 : Nat} (ha : Q.allows 55410713) (h0 : Inv Q d0) : Inv2 Q (Dev.wordsTwice d0 x1 x2 x3) := by
  unfold Dev.wordsTwice
  try extract_lets
  repeat' first
    | with_reducible assumption | with_reducible apply keeps_Dev_hbmWords | extract_lets | split
    | with_reducible apply inv2_mk | with_reducible refine inv_eq2 (by assumption) ?_

theorem keeps_Dev_healthAt {d0 : Dev} {x1 : Rq} {x2 : Nat} {x3 : Nat} (ha : Q.allows 55410713) (h0 : Inv Q d0) : Inv2 Q (Dev.healthAt d0 x1 x2 x3) := by
  unfold Dev.healthAt
  try extract_lets
  repeat' first
    | with_reducible assumption | with_reducible apply keeps_Dev_wordsTwice | extract_lets | split
    | with_reducible apply inv2_mk | with_reducible refine inv_eq2 (by assumption) ?_

theorem keeps_Dev_loadHealth {d0 : Dev} {x1 : Nat} {x2 : Nat} (ha : Q.allows 55410713) (h0 : Inv Q d0) : Inv2 Q (Dev.loadHealth d0 x1 x2) := by
  unfold Dev.loadHealth
  try extract_lets
  repeat' first
    | with_reducible assumption | with_reducible apply keeps_Dev_healthAt

theorem keeps_Dev_putTile {t : Nat} {x : List (Option Nat) × Dev} (ha : Q.allows 128) (h : Inv2 Q x) :
    Inv Q (Dev.putTile t x) := by
  obtain ⟨l, d⟩ := x
  exact inv_mk.mpr (inv_parts ha h still_rfl (by apply Lit.mk <;> first | exact same_may rfl | exact same_rfl))

theorem keeps_Dev_loadTile {d0 : Dev} {x1 : Nat} (ha : Q.allows 55410841) (h0 : Inv Q d0) : Inv Q (Dev.loadTile d0 x1) := by
  unfold Dev.loadTile
  try extract_lets
  repeat' first
    | with_reducible assumption | with_reducible exact ha.sub rfl | with_reducible apply keeps_Dev_putTile
    | with_reducible apply keeps_Dev_loadHealth

theorem keeps_Dev_handShares {d0 : Dev} {x1 : Nat} (ha : Q.allows 128) (h0 : Inv Q d0) : Inv Q (Dev.handShares d0 x1) := by
  unfold Dev.handShares
  try extract_lets
  repeat' first
    | with_reducible assumption | with_reducible apply keeps_Dev_setHandover | with_reducible apply keeps_Dev_setCol
    | intro _ _ _ | extract_lets | split | with_reducible apply inv_foldl

theorem keeps_Dev_loadTileEntry {d0 : Dev} {x1 : Nat} (ha : Q.allows 55410841) (h0 : Inv Q d0) : Inv Q (Dev.loadTileEntry d0 x1) := by
  unfold Dev.loadTileEntry
  try extract_lets
  repeat' first
    | with_reducible assumption | with_reducible exact ha.sub rfl | with_reducible apply keeps_Dev_handShares
    | with_reducible apply keeps_Dev_loadTile | with_reducible apply keeps_Dev_event

theorem keeps_Dev_healthFrom {d0 : Dev} (ha : Q.allows 128) (h0 : Inv Q d0) : Inv Q (Dev.healthFrom d0) := by
  unfold Dev.healthFrom
  try extract_lets
  repeat' first
    | with_reducible assumption | with_reducible exact still_rfl
    | (with_reducible apply Lit.mk <;> first | exact same_may rfl | with_reducible exact same_rfl)
    | (simp only [↓inv_mk]; with_reducible apply inv_parts ha)

theorem keeps_Dev_healthDone {d0 : Dev} (ha : Q.allows 128) (h0 : Inv Q d0) : Inv Q (Dev.healthDone d0) := by
  unfold Dev.healthDone
  try extract_lets
  repeat' first
    | with_reducible assumption | with_reducible exact still_rfl
    | (with_reducible apply Lit.mk <;> first | exact same_may rfl | with_reducible exact same_rfl)
    | (simp only [↓inv_mk]; with_reducible apply inv_parts ha)

theorem keeps_Dev_loadAllHealth {d0 : Dev} (ha : Q.allows 55410841) (h0 : Inv Q d0) : Inv Q (Dev.loadAllHealth d0) := by
  unfold Dev.loadAllHealth
  try extract_lets
  repeat' first
    | with_reducible assumption | with_reducible exact ha.sub rfl | with_reducible apply keeps_Dev_healthDone
    | with_reducible apply keeps_Dev_loadTileEntry | with_reducible apply keeps_Dev_healthFrom | intro _ _ _
    | extract_lets | with_reducible apply inv_foldl

theorem keeps_Dev_nextHealth {d0 : Dev} {x1 : Nat} {x2 : Bool} {x3 : ShareCfg} (ha : Q.allows 55410713) (h0 : Inv Q d0) : Inv2 Q (Dev.nextHealth d0 x1 x2 x3) := by
  unfold Dev.nextHealth
  try extract_lets
  repeat' first
    | with_reducible assumption | with_reducible apply keeps_Dev_loadHealth | split | with_reducible apply inv2_mk

theorem keeps_Dev_putConfig {t : Nat} {health weights : Bool} {since : Nat × Nat} {x : List (Option Nat) × Dev}
    (ha : Q.allows 128) (h : Inv2 Q x) : Inv Q (Dev.putConfig t health weights since x) := by
  obtain ⟨l, d⟩ := x
  exact ⟨h.1, h.2, h.3, { h.4 with ra := .inl (ha.bit rfl), prog := h.4.prog }⟩

theorem keeps_Dev_applyConfig {d0 : Dev} {x1 : Nat} {x2 : Bool} {x3 : Bool} (ha : Q.allows 55410841) (h0 : Inv Q d0) : Inv Q (Dev.applyConfig d0 x1 x2 x3) := by
  unfold Dev.applyConfig
  try extract_lets
  repeat' first
    | with_reducible assumption | with_reducible exact ha.sub rfl | with_reducible apply keeps_Dev_nextHealth
    | with_reducible apply keeps_Dev_orderReplay | with_reducible apply keeps_Dev_handShares
    | with_reducible apply keeps_Dev_putConfig | with_reducible apply keeps_Dev_event

theorem keeps_shareConfigApply {x0 : Nat} {x1 : Nat} {d2 : Dev} (ha : Q.allows 55410845) (h2 : Inv Q d2) : Inv Q (shareConfigApply x0 x1 d2) := by
  unfold shareConfigApply
  try extract_lets
  repeat' first
    | with_reducible assumption | with_reducible exact ha.sub rfl | with_reducible apply keeps_Dev_after
    | with_reducible apply keeps_Dev_applyConfig | split

theorem keeps_Dev_healthCommit {d0 : Dev} {x1 : Nat} (ha : Q.allows 55083161) (h0 : Inv Q d0) : Inv Q (Dev.healthCommit d0 x1) := by
  unfold Dev.healthCommit
  try extract_lets
  repeat' first
    | with_reducible assumption | with_reducible exact ha.sub rfl | with_reducible exact still_rfl
    | (with_reducible apply Lit.mk <;> first | exact same_may rfl | with_reducible exact same_rfl)
    | with_reducible apply keeps_Dev_event | with_reducible apply keeps_Dev_set | split
    | (simp only [↓inv_mk]; with_reducible apply inv_parts ha)

theorem keeps_healthCommit {x0 : Nat} {x1 : Nat} {d2 : Dev} (ha : Q.allows 55083165) (h2 : Inv Q d2) : Inv Q (healthCommit x0 x1 d2) := by
  unfold healthCommit
  try extract_lets
  repeat' first
    | with_reducible assumption | with_reducible exact ha.sub rfl | with_reducible apply keeps_Dev_after
    | with_reducible apply keeps_Dev_healthCommit | split

theorem keeps_Dev_colEnable {d0 : Dev} {x1 : Nat} {x2 : Bool} (ha : Q.allows 129) (h0 : Inv Q d0) : Inv Q (Dev.colEnable d0 x1 x2) := by
  unfold Dev.colEnable
  try extract_lets
  repeat' first
    | with_reducible assumption | with_reducible exact ha.sub rfl | with_reducible apply keeps_Dev_setCol
    | with_reducible apply keeps_Dev_set

theorem keeps_columnDisable {x0 : Nat} {x1 : Nat} {d2 : Dev} (ha : Q.allows 32901) (h2 : Inv Q d2) : Inv Q (columnDisable x0 x1 d2) := by
  unfold columnDisable
  try extract_lets
  repeat' first
    | with_reducible assumption | with_reducible exact ha.sub rfl | with_reducible apply keeps_Dev_after
    | with_reducible apply keeps_Dev_colEnable | split

theorem keeps_columnEnable {x0 : Nat} {x1 : Nat} {d2 : Dev} (ha : Q.allows 32901) (h2 : Inv Q d2) : Inv Q (columnEnable x0 x1 d2) := by
  unfold columnEnable
  try extract_lets
  repeat' first
    | with_reducible assumption | with_reducible exact ha.sub rfl | with_reducible apply keeps_Dev_after
    | with_reducible apply keeps_Dev_colEnable | split

theorem keeps_Dev_squashNote {d0 : Dev} {x1 : Nat} {x2 : Nat} {x3 : Nat} (ha : Q.allows 55083033) (h0 : Inv Q d0) : Inv Q (Dev.squashNote d0 x1 x2 x3) := by
  unfold Dev.squashNote
  try extract_lets
  repeat' first
    | with_reducible assumption | with_reducible exact ha.sub rfl | with_reducible apply keeps_Dev_event
    | with_reducible apply keeps_Dev_bumpBy

theorem keeps_Dev_maskChange {d0 : Dev} {x1 : Nat} {x2 : List Nat} {x3 : List Nat} (ha : Q.allows 55083225) (h0 : Inv Q d0) : Inv2 Q (Dev.maskChange d0 x1 x2 x3) := by
  unfold Dev.maskChange
  try extract_lets
  repeat' first
    | with_reducible assumption | with_reducible exact ha.sub rfl | with_reducible apply keeps_Dev_setCol
    | with_reducible apply keeps_Dev_ldgStroke | with_reducible apply keeps_Dev_squashNote
    | with_reducible apply keeps_Dev_orderReplay | intro _ _ _ | extract_lets | split | with_reducible apply inv_foldl
    | with_reducible apply inv2_mk

theorem keeps_tempLatch {x0 : Nat} {d1 : Dev} (ha : Q.allows 55085469) (h1 : Inv Q d1) : Inv Q (tempLatch x0 d1) := by
  unfold tempLatch
  try extract_lets
  repeat' first
    | with_reducible assumption | with_reducible exact ha.sub rfl | with_reducible exact still_rfl
    | (with_reducible apply Lit.mk <;> first | exact same_may rfl | with_reducible exact same_rfl)
    | with_reducible apply keeps_Dev_after | with_reducible apply keeps_Dev_setTile
    | with_reducible apply keeps_Dev_wr | with_reducible apply keeps_Dev_event | intro _ _ _ | extract_lets | split
    | (simp only [↓inv_mk]; with_reducible apply inv_parts ha) | with_reducible apply inv_foldl
    | dsimp +zetaDelta only

theorem keeps_Dev_applyLatch {d0 : Dev} (ha : Q.allows 128) (h0 : Inv Q d0) : Inv Q (Dev.applyLatch d0) := by
  unfold Dev.applyLatch
  try extract_lets
  repeat' first
    | with_reducible assumption | with_reducible exact still_rfl
    | (with_reducible apply Lit.mk <;> first | exact same_may rfl | with_reducible exact same_rfl) | split
    | (simp only [↓inv_mk]; with_reducible apply inv_parts ha)

theorem keeps_Dev_endRamp {d0 : Dev} {x1 : Nat} (ha : Q.allows 129) (h0 : Inv Q d0) : Inv Q (Dev.endRamp d0 x1) := by
  unfold Dev.endRamp
  try extract_lets
  repeat' first
    | with_reducible assumption | with_reducible exact ha.sub rfl | with_reducible apply keeps_Dev_wr
    | with_reducible apply keeps_Dev_setCol

theorem keeps_Dev_swapBank {d0 : Dev} {x1 : Nat} (ha : Q.allows 2048) (h0 : Inv Q d0) : Inv Q (Dev.swapBank d0 x1) := by
  unfold Dev.swapBank
  try extract_lets
  repeat' first
    | with_reducible assumption | with_reducible exact still_rfl
    | (with_reducible apply Lit.mk <;> first | exact same_may rfl | with_reducible exact same_rfl)
    | (simp only [↓inv_mk]; with_reducible apply inv_parts ha)

theorem keeps_Dev_endBlend {d0 : Dev} {x1 : Nat} {x2 : Nat} {x3 : Nat} (ha : Q.allows 55085209) (h0 : Inv Q d0) : Inv Q (Dev.endBlend d0 x1 x2 x3) := by
  unfold Dev.endBlend
  try extract_lets
  repeat' first
    | with_reducible assumption | with_reducible exact ha.sub rfl | with_reducible apply keeps_Dev_event
    | with_reducible apply keeps_Dev_swapBank | with_reducible apply keeps_Dev_endRamp | intro _ _ _ | extract_lets
    | with_reducible apply inv_foldl

theorem keeps_rampComplete {x0 : Nat} {x1 : Nat} {d2 : Dev} (ha : Q.allows 55085213) (h2 : Inv Q d2) : Inv Q (rampComplete x0 x1 d2) := by
  unfold rampComplete
  try extract_lets
  repeat' first
    | with_reducible assumption | with_reducible exact ha.sub rfl | with_reducible apply keeps_Dev_after
    | with_reducible apply keeps_Dev_endBlend | split

end Sys2Proof.Laws
end

