-- ==== Sys2Proof/Laws/Keeps/Layers.lean ====
section
/-!
SUPPORT. What Layers does keeps the invariant.
-/
namespace Sys2Proof.Laws
open Sys2Proof Sys2Proof.Machine
set_option linter.unusedVariables false
variable {Q : Scope}

theorem keeps_Dev_setSlot {d0 : Dev} {x1 : Nat} {x2 : Slot → Slot} (ha : Q.allows 64) (h0 : Inv Q d0) : Inv Q (Dev.setSlot d0 x1 x2) := by
  unfold Dev.setSlot
  try extract_lets
  repeat' first
    | with_reducible assumption | with_reducible exact still_rfl
    | (with_reducible apply Lit.mk <;> first | exact same_may rfl | with_reducible exact same_rfl)
    | (simp only [↓inv_mk]; with_reducible apply inv_parts ha)

theorem keeps_Dev_invalidate {d0 : Dev} {x1 : Nat} {x2 : Nat} (ha : Q.allows 55083097) (h0 : Inv Q d0) : Inv Q (Dev.invalidate d0 x1 x2) := by
  unfold Dev.invalidate
  try extract_lets
  repeat' first
    | with_reducible assumption | with_reducible exact ha.sub rfl | with_reducible apply keeps_Dev_event
    | with_reducible apply keeps_Dev_setSlot | split

theorem keeps_Dev_ldgOne {d0 : Dev} {x1 : Nat × Nat × Int} (ha : Q.allows 55083097) (h0 : Inv Q d0) : Inv Q (Dev.ldgOne d0 x1) := by
  unfold Dev.ldgOne
  try extract_lets
  repeat' first
    | with_reducible assumption | with_reducible exact ha.sub rfl | with_reducible apply keeps_Dev_setSlot
    | with_reducible apply keeps_Dev_invalidate | extract_lets | split

theorem keeps_Dev_ldgApply {d0 : Dev} (ha : Q.allows 55099481) (h0 : Inv Q d0) : Inv Q (Dev.ldgApply d0) := by
  unfold Dev.ldgApply
  try extract_lets
  repeat' first
    | with_reducible assumption | with_reducible exact ha.sub rfl | with_reducible exact still_rfl
    | (with_reducible apply Lit.mk <;> first | exact same_may rfl | with_reducible exact same_rfl)
    | with_reducible apply keeps_Dev_ldgOne | with_reducible apply keeps_Dev_metSnapshot | intro _ _ _ | extract_lets
    | split | (simp only [↓inv_mk]; with_reducible apply inv_parts ha) | with_reducible apply inv_foldl
    | dsimp +zetaDelta only

theorem keeps_Dev_flagPixel {d0 : Dev} {x1 : Nat} {x2 : Nat} {x3 : Nat} {x4 : Nat} {x5 : Nat} (ha : Q.allows 16777265) (h0 : Inv Q d0) : Inv Q (Dev.flagPixel d0 x1 x2 x3 x4 x5) := by
  unfold Dev.flagPixel
  try extract_lets
  repeat' first
    | with_reducible assumption | with_reducible exact ha.sub rfl | with_reducible apply keeps_Dev_updLayer
    | with_reducible apply keeps_Dev_bump | with_reducible apply keeps_Dev_wr | with_reducible apply keeps_Dev_dma
    | extract_lets | split

theorem keeps_Dev_flagBeams {d0 : Dev} {x1 : Nat} {x2 : Nat} {x3 : Nat} {x4 : Nat} {x5 : Nat} {x6 : List Bool} (ha : Q.allows 16777265) (h0 : Inv Q d0) : Inv Q (Dev.flagBeams d0 x1 x2 x3 x4 x5 x6) := by
  unfold Dev.flagBeams
  try extract_lets
  repeat' first
    | with_reducible assumption | with_reducible apply keeps_Dev_flagPixel | intro _ _ _
    | with_reducible apply inv_foldl

theorem keeps_Dev_ldgWait {d0 : Dev} {x1 : Nat} (ha : Q.allows 55083129) (h0 : Inv Q d0) : Inv Q (Dev.ldgWait d0 x1) := by
  unfold Dev.ldgWait
  try extract_lets
  repeat' first
    | with_reducible assumption | with_reducible exact ha.sub rfl | with_reducible exact still_rfl
    | (with_reducible apply Lit.mk <;> first | exact same_may rfl | with_reducible exact same_rfl)
    | with_reducible apply keeps_Dev_event | extract_lets | split
    | (simp only [↓inv_mk]; with_reducible apply inv_parts ha) | dsimp +zetaDelta only

theorem keeps_layerAccept {x0 : Nat} {d1 : Dev} (ha : Q.allows 17234968701) (h1 : Inv Q d1) : Inv Q (layerAccept x0 d1) := by
  unfold layerAccept
  try extract_lets
  repeat' first
    | with_reducible assumption | with_reducible exact ha.sub rfl | with_reducible exact still_rfl
    | (with_reducible apply Lit.mk <;> first | exact same_may rfl | with_reducible exact same_rfl)
    | with_reducible apply keeps_Dev_after | with_reducible apply keeps_Dev_malformed
    | with_reducible apply keeps_Dev_ldgWait | with_reducible apply keeps_Dev_metBegin
    | with_reducible apply keeps_Dev_setSlot | extract_lets | split
    | (simp only [↓inv_mk]; with_reducible apply inv_parts ha)

theorem keeps_Dev_refuseStroke {d0 : Dev} {x1 : Nat} {x2 : List Byte} (ha : Q.allows 55083065) (h0 : Inv Q d0) : Inv Q (Dev.refuseStroke d0 x1 x2) := by
  unfold Dev.refuseStroke
  try extract_lets
  repeat' first
    | with_reducible assumption | with_reducible exact ha.sub rfl | with_reducible exact still_rfl
    | (with_reducible apply Lit.mk <;> first | exact same_may rfl | with_reducible exact same_rfl)
    | with_reducible apply keeps_Dev_shfErr | with_reducible apply keeps_Dev_updPortion
    | with_reducible apply keeps_Dev_event | intro _ _ _ | extract_lets | split
    | (simp only [↓inv_mk]; with_reducible apply inv_parts ha) | with_reducible apply inv_foldl

theorem keeps_strokeAccept {x0 : Nat} {d1 : Dev} (ha : Q.allows 55084157) (h1 : Inv Q d1) : Inv Q (strokeAccept x0 d1) := by
  unfold strokeAccept
  try extract_lets
  repeat' first
    | with_reducible assumption | with_reducible exact ha.sub rfl | with_reducible exact still_rfl
    | (with_reducible apply Lit.mk <;> first | exact same_may rfl | with_reducible exact same_rfl)
    | with_reducible apply keeps_Dev_after | with_reducible apply keeps_Dev_malformed
    | with_reducible apply keeps_Dev_refuseStroke | with_reducible apply keeps_Dev_updLayer
    | with_reducible apply keeps_Dev_wr | with_reducible apply keeps_Dev_invalidate | extract_lets | split
    | (simp only [↓inv_mk]; with_reducible apply inv_parts ha) | dsimp +zetaDelta only

theorem keeps_segmentComplete {x0 : Nat} {x1 : Nat} {d2 : Dev} (ha : Q.allows 21528637) (h2 : Inv Q d2) : Inv Q (segmentComplete x0 x1 d2) := by
  unfold segmentComplete
  try extract_lets
  repeat' first
    | with_reducible assumption | with_reducible exact ha.sub rfl | with_reducible apply keeps_Dev_after
    | with_reducible apply keeps_Dev_complete | with_reducible apply keeps_Dev_updPortion | split

theorem keeps_fenceReached {x0 : Nat} {x1 : Nat} {x2 : Nat} {d3 : Dev} (ha : Q.allows 55214141) (h3 : Inv Q d3) : Inv Q (fenceReached x0 x1 x2 d3) := by
  unfold fenceReached
  try extract_lets
  repeat' first
    | with_reducible assumption | with_reducible exact ha.sub rfl | with_reducible apply keeps_Dev_after
    | with_reducible apply keeps_Dev_updPortion | with_reducible apply keeps_Dev_fenceNote
    | with_reducible apply keeps_Dev_event | extract_lets | split

theorem keeps_Dev_closeLayer {d0 : Dev} {x1 : Layer} {x2 : Bool} (ha : Q.allows 3616) (h0 : Inv Q d0) : Inv Q (Dev.closeLayer d0 x1 x2) := by
  unfold Dev.closeLayer
  try extract_lets
  repeat' first
    | with_reducible assumption | with_reducible exact ha.sub rfl | with_reducible exact still_rfl
    | (with_reducible apply Lit.mk <;> first | exact same_may rfl | with_reducible exact same_rfl)
    | with_reducible apply keeps_Dev_updLayer | (simp only [↓inv_mk]; with_reducible apply inv_parts ha)

theorem keeps_layerClose {x0 : Nat} {d1 : Dev} (ha : Q.allows 36388) (h1 : Inv Q d1) : Inv Q (layerClose x0 d1) := by
  unfold layerClose
  try extract_lets
  repeat' first
    | with_reducible assumption | with_reducible exact ha.sub rfl | with_reducible apply keeps_Dev_after
    | with_reducible apply keeps_Dev_closeLayer | split

theorem keeps_Dev_layerEntries {d0 : Dev} {x1 : Layer} (ha : Q.allows 17201397785) (h0 : Inv Q d0) : Inv Q (Dev.layerEntries d0 x1) := by
  unfold Dev.layerEntries
  try extract_lets
  repeat' first
    | with_reducible assumption | with_reducible exact ha.sub rfl | with_reducible exact still_rfl
    | (with_reducible apply Lit.mk <;> first | exact same_may rfl | with_reducible exact same_rfl)
    | with_reducible apply keeps_Dev_countSlot | with_reducible apply keeps_Dev_putEntry | extract_lets
    | (simp only [↓inv_mk]; with_reducible apply inv_parts ha) | dsimp +zetaDelta only

theorem keeps_Dev_buildAdd {d0 : Dev} {x1 : Nat} (ha : Q.allows 64) (h0 : Inv Q d0) : Inv Q (Dev.buildAdd d0 x1) := by
  unfold Dev.buildAdd
  try extract_lets
  repeat' first
    | with_reducible assumption | with_reducible exact still_rfl
    | (with_reducible apply Lit.mk <;> first | exact same_may rfl | with_reducible exact same_rfl) | split
    | (simp only [↓inv_mk]; with_reducible apply inv_parts ha)

theorem keeps_Dev_buildLost {d0 : Dev} {x1 : Nat} (ha : Q.allows 64) (h0 : Inv Q d0) : Inv Q (Dev.buildLost d0 x1) := by
  unfold Dev.buildLost
  try extract_lets
  repeat' first
    | with_reducible assumption | with_reducible exact still_rfl
    | (with_reducible apply Lit.mk <;> first | exact same_may rfl | with_reducible exact same_rfl) | split
    | (simp only [↓inv_mk]; with_reducible apply inv_parts ha)

theorem keeps_Dev_dropLayer {d0 : Dev} {x1 : Layer} (ha : Q.allows 160) (h0 : Inv Q d0) : Inv Q (Dev.dropLayer d0 x1) := by
  unfold Dev.dropLayer
  try extract_lets
  repeat' first
    | with_reducible assumption | with_reducible exact ha.sub rfl | with_reducible exact still_rfl
    | (with_reducible apply Lit.mk <;> first | exact same_may rfl | with_reducible exact same_rfl)
    | with_reducible apply keeps_Dev_updPortion | intro _ _ _ | extract_lets
    | (simp only [↓inv_mk]; with_reducible apply inv_parts ha) | with_reducible apply inv_foldl
    | dsimp +zetaDelta only

theorem keeps_layerCompletion {x0 : Nat} {d1 : Dev} (ha : Q.allows 17234968829) (h1 : Inv Q d1) : Inv Q (layerCompletion x0 d1) := by
  unfold layerCompletion
  try extract_lets
  repeat' first
    | with_reducible assumption | with_reducible exact ha.sub rfl | with_reducible apply keeps_Dev_after
    | with_reducible apply keeps_Dev_metFinal | with_reducible apply keeps_Dev_layerEntries
    | with_reducible apply keeps_Dev_setSlot | with_reducible apply keeps_Dev_buildLost
    | with_reducible apply keeps_Dev_buildAdd | with_reducible apply keeps_Dev_dropLayer | extract_lets | split

theorem keeps_Dev_squashAll {d0 : Dev} (ha : Q.allows 55083257) (h0 : Inv Q d0) : Inv Q (Dev.squashAll d0) := by
  unfold Dev.squashAll
  try extract_lets
  repeat' first
    | with_reducible assumption | with_reducible exact ha.sub rfl | with_reducible exact still_rfl
    | (with_reducible apply Lit.mk <;> first | exact same_may rfl | with_reducible exact same_rfl)
    | with_reducible apply keeps_Dev_ldgStroke | with_reducible apply keeps_Dev_updMap
    | with_reducible apply keeps_Dev_flagBeams | with_reducible apply keeps_Dev_squashNote | intro _ _ _
    | extract_lets | split | (simp only [↓inv_mk]; with_reducible apply inv_parts ha) | with_reducible apply inv_foldl
    | dsimp +zetaDelta only

theorem keeps_Dev_dropFences {d0 : Dev} (ha : Q.allows 17235083289) (h0 : Inv Q d0) : Inv Q (Dev.dropFences d0) := by
  unfold Dev.dropFences
  try extract_lets
  repeat' first
    | with_reducible assumption | with_reducible exact ha.sub rfl | with_reducible apply keeps_Dev_fenceSquashed
    | with_reducible apply keeps_Dev_event | intro _ _ _ | extract_lets | with_reducible apply inv_foldl

theorem keeps_Dev_dropSegments {d0 : Dev} {x1 : Bool} (ha : Q.allows 17201397817) (h0 : Inv Q d0) : Inv Q (Dev.dropSegments d0 x1) := by
  unfold Dev.dropSegments
  try extract_lets
  repeat' first
    | with_reducible assumption | with_reducible exact ha.sub rfl | with_reducible exact still_rfl
    | (with_reducible apply Lit.mk <;> first | exact same_may rfl | with_reducible exact same_rfl)
    | with_reducible apply keeps_Dev_reject | with_reducible apply keeps_Dev_wr
    | with_reducible apply keeps_Dev_updPortion | intro _ _ _ | extract_lets | split
    | (simp only [↓inv_mk]; with_reducible apply inv_parts ha) | with_reducible apply inv_foldl

theorem keeps_Dev_abortStroke {d0 : Dev} {x1 : Bool} (ha : Q.allows 19382570745) (h0 : Inv Q d0) : Inv Q (Dev.abortStroke d0 x1) := by
  unfold Dev.abortStroke
  try extract_lets
  repeat' first
    | with_reducible assumption | with_reducible exact ha.sub rfl | with_reducible exact still_rfl
    | (with_reducible apply Lit.mk <;> first | exact same_may rfl | with_reducible exact same_rfl)
    | with_reducible apply keeps_Dev_dropSegments | with_reducible apply keeps_Dev_dropFences
    | with_reducible apply keeps_Dev_squashAll | with_reducible apply keeps_Dev_closeLayer
    | with_reducible apply keeps_Dev_wr | intro _ _ _ | extract_lets
    | (simp only [↓inv_mk]; with_reducible apply inv_parts ha) | with_reducible apply inv_foldl

end Sys2Proof.Laws
end

