-- ==== Sys2Proof/Laws/Keeps/Head.lean ====
section
/-!
SUPPORT. What Head does keeps the invariant.
-/
namespace Sys2Proof.Laws
open Sys2Proof Sys2Proof.Machine
set_option linter.unusedVariables false
variable {Q : Scope}

theorem keeps_Dev_putPartial {d0 : Dev} {x1 : Strike} {x2 : SentPass} (ha : Q.allows 128) (h0 : Inv Q d0) : Inv Q (Dev.putPartial d0 x1 x2) := by
  unfold Dev.putPartial
  try extract_lets
  repeat' first
    | with_reducible assumption | with_reducible exact still_rfl
    | (with_reducible apply Lit.mk <;> first | exact same_may rfl | with_reducible exact same_rfl)
    | with_reducible apply keeps_Dev_updMap | with_reducible apply keeps_Dev_setCol | extract_lets
    | (simp only [↓inv_mk]; with_reducible apply inv_parts ha) | dsimp +zetaDelta only

theorem keeps_Dev_cutStrikes {d0 : Dev} {x1 : Nat} (ha : Q.allows 55084185) (h0 : Inv Q d0) : Inv Q (Dev.cutStrikes d0 x1) := by
  unfold Dev.cutStrikes
  try extract_lets
  repeat' first
    | with_reducible assumption | with_reducible exact ha.sub rfl | with_reducible exact still_rfl
    | (with_reducible apply Lit.mk <;> first | exact same_may rfl | with_reducible exact same_rfl)
    | with_reducible apply keeps_Dev_putPartial | with_reducible apply keeps_Dev_event | intro _ _ _ | extract_lets
    | split | (simp only [↓inv_mk]; with_reducible apply inv_parts ha) | with_reducible apply inv_foldl
    | dsimp +zetaDelta only

theorem keeps_Dev_refuse {d0 : Dev} {x1 : Nat} {x2 : Nat} (ha : Q.allows 55083289) (h0 : Inv Q d0) : Inv Q (Dev.refuse d0 x1 x2) := by
  unfold Dev.refuse
  try extract_lets
  repeat' first
    | with_reducible assumption | with_reducible exact ha.sub rfl | with_reducible apply keeps_Dev_event
    | with_reducible apply keeps_Dev_setTile

theorem keeps_tileBringup {x0 : Nat} {x1 : Nat} {d2 : Dev} (ha : Q.allows 33028) (h2 : Inv Q d2) : Inv Q (tileBringup x0 x1 d2) := by
  unfold tileBringup
  try extract_lets
  repeat' first
    | with_reducible assumption | with_reducible exact ha.sub rfl | with_reducible apply keeps_Dev_after
    | with_reducible apply keeps_Dev_setTile | split

theorem keeps_idHeaderRead {x0 : Nat} {x1 : Option (List Byte)} {x2 : Nat} {d3 : Dev} (ha : Q.allows 55109917) (h3 : Inv Q d3) : Inv Q (idHeaderRead x0 x1 x2 d3) := by
  unfold idHeaderRead
  try extract_lets
  repeat' first
    | with_reducible assumption | with_reducible exact ha.sub rfl | with_reducible exact still_rfl
    | (with_reducible apply Lit.mk <;> first | exact same_may rfl | with_reducible exact same_rfl)
    | with_reducible exact still_same rfl rfl rfl | with_reducible apply keeps_Dev_after
    | with_reducible apply keeps_Dev_refuse | with_reducible apply keeps_Dev_setTile
    | with_reducible apply keeps_Dev_wr | extract_lets | split
    | (simp only [↓inv_mk]; with_reducible apply inv_parts ha) | dsimp +zetaDelta only

theorem keeps_Dev_copyCal {d0 : Dev} {x1 : Nat} {x2 : List Byte} {x3 : Nat} {x4 : Nat} (ha : Q.allows 360448) (h0 : Inv Q d0) : Inv Q (Dev.copyCal d0 x1 x2 x3 x4) := by
  induction x3 generalizing d0 x1 x2 x4 with
  | zero =>
    unfold Dev.copyCal
    try extract_lets
    repeat' first
      | with_reducible assumption
  | succ n ih =>
    unfold Dev.copyCal
    try extract_lets
    repeat' first
      | with_reducible assumption | with_reducible apply ih | with_reducible apply keeps_Dev_writeWord | extract_lets
      | split

theorem keeps_factoryCalCopyDone {x0 : Nat} {x1 : Option (List Byte)} {x2 : Nat} {d3 : Dev} (ha : Q.allows 55410973) (h3 : Inv Q d3) : Inv Q (factoryCalCopyDone x0 x1 x2 d3) := by
  unfold factoryCalCopyDone
  try extract_lets
  repeat' first
    | with_reducible assumption | with_reducible exact ha.sub rfl | with_reducible apply keeps_Dev_after
    | with_reducible apply keeps_Dev_refuse | with_reducible apply keeps_Dev_oorPast
    | with_reducible apply keeps_Dev_copyCal | with_reducible apply keeps_Dev_wr
    | with_reducible apply keeps_Dev_event | with_reducible apply keeps_Dev_setTile | extract_lets | split

theorem keeps_Dev_stepStart {d0 : Dev} {x1 : Nat} (ha : Q.allows 16777472) (h0 : Inv Q d0) : Inv Q (Dev.stepStart d0 x1) := by
  unfold Dev.stepStart
  try extract_lets
  repeat' first
    | with_reducible assumption | with_reducible exact ha.sub rfl | with_reducible apply keeps_Dev_setTile
    | with_reducible apply keeps_Dev_send | split

theorem keeps_Dev_stepOk {d0 : Dev} {x1 : Nat} (ha : Q.allows 55083289) (h0 : Inv Q d0) : Inv Q (Dev.stepOk d0 x1) := by
  unfold Dev.stepOk
  try extract_lets
  repeat' first
    | with_reducible assumption | with_reducible exact ha.sub rfl | with_reducible apply keeps_Dev_event
    | with_reducible apply keeps_Dev_setTile | with_reducible apply keeps_Dev_stepStart | split

theorem keeps_Dev_stepFail {d0 : Dev} {x1 : Nat} (ha : Q.allows 55083289) (h0 : Inv Q d0) : Inv Q (Dev.stepFail d0 x1) := by
  unfold Dev.stepFail
  try extract_lets
  repeat' first
    | with_reducible assumption | with_reducible exact ha.sub rfl | with_reducible apply keeps_Dev_stepStart
    | with_reducible apply keeps_Dev_setTile | with_reducible apply keeps_Dev_event | split

theorem keeps_Dev_copyFail {d0 : Dev} {x1 : Nat} (ha : Q.allows 55083289) (h0 : Inv Q d0) : Inv Q (Dev.copyFail d0 x1) := by
  unfold Dev.copyFail
  try extract_lets
  repeat' first
    | with_reducible assumption | with_reducible exact ha.sub rfl | with_reducible apply keeps_Dev_setTile
    | with_reducible apply keeps_Dev_event | split

theorem keeps_returnLaneWordLock {x0 : Nat} {x1 : Nat} {d2 : Dev} (ha : Q.allows 55083293) (h2 : Inv Q d2) : Inv Q (returnLaneWordLock x0 x1 d2) := by
  unfold returnLaneWordLock
  try extract_lets
  repeat' first
    | with_reducible assumption | with_reducible exact ha.sub rfl | with_reducible apply keeps_Dev_after
    | with_reducible apply keeps_Dev_stepOk | split

theorem keeps_bringupStepTimeout {x0 : Nat} {x1 : Bool} {d2 : Dev} (ha : Q.allows 55083293) (h2 : Inv Q d2) : Inv Q (bringupStepTimeout x0 x1 d2) := by
  unfold bringupStepTimeout
  try extract_lets
  repeat' first
    | with_reducible assumption | with_reducible exact ha.sub rfl | with_reducible apply keeps_Dev_copyFail
    | with_reducible apply keeps_Dev_reachUp | with_reducible apply keeps_Dev_stepFail | split

theorem keeps_Dev_retrain {d0 : Dev} {x1 : Nat} (ha : Q.allows 16777472) (h0 : Inv Q d0) : Inv Q (Dev.retrain d0 x1) := by
  unfold Dev.retrain
  try extract_lets
  repeat' first
    | with_reducible assumption | with_reducible exact ha.sub rfl | with_reducible apply keeps_Dev_stepStart
    | with_reducible apply keeps_Dev_setTile | split

theorem keeps_retrain {x0 : Nat} {x1 : Nat} {d2 : Dev} (ha : Q.allows 16810244) (h2 : Inv Q d2) : Inv Q (retrain x0 x1 d2) := by
  unfold retrain
  try extract_lets
  repeat' first
    | with_reducible assumption | with_reducible exact ha.sub rfl | with_reducible apply keeps_Dev_after
    | with_reducible apply keeps_Dev_retrain | split

theorem keeps_Dev_reident {d0 : Dev} {x1 : Nat} (ha : Q.allows 256) (h0 : Inv Q d0) : Inv Q (Dev.reident d0 x1) := by
  unfold Dev.reident
  try extract_lets
  repeat' first
    | with_reducible assumption | with_reducible apply keeps_Dev_setTile | split

theorem keeps_reident {x0 : Nat} {x1 : Nat} {d2 : Dev} (ha : Q.allows 33028) (h2 : Inv Q d2) : Inv Q (reident x0 x1 d2) := by
  unfold reident
  try extract_lets
  repeat' first
    | with_reducible assumption | with_reducible exact ha.sub rfl | with_reducible apply keeps_Dev_after
    | with_reducible apply keeps_Dev_reident | split

theorem keeps_Dev_linkErr {d0 : Dev} {x1 : Nat} (ha : Q.allows 1) (h0 : Inv Q d0) : Inv Q (Dev.linkErr d0 x1) := by
  unfold Dev.linkErr
  try extract_lets
  repeat' first
    | with_reducible assumption | with_reducible apply keeps_Dev_bump

theorem keeps_linkRecord {x0 : Nat} {x1 : List Byte} {x2 : Nat} {d3 : Dev} (ha : Q.allows 55083293) (h3 : Inv Q d3) : Inv Q (linkRecord x0 x1 x2 d3) := by
  unfold linkRecord
  try extract_lets
  repeat' first
    | with_reducible assumption | with_reducible exact ha.sub rfl | with_reducible apply keeps_Dev_after
    | with_reducible apply keeps_Dev_linkErr | with_reducible apply keeps_Dev_stepFail
    | with_reducible apply keeps_Dev_stepOk | split

theorem keeps_tileLinkFault {x0 : Nat} {x1 : Bool} {x2 : Bool} {x3 : Nat} {d4 : Dev} (ha : Q.allows 55083293) (h4 : Inv Q d4) : Inv Q (tileLinkFault x0 x1 x2 x3 d4) := by
  unfold tileLinkFault
  try extract_lets
  repeat' first
    | with_reducible assumption | with_reducible exact ha.sub rfl | with_reducible apply keeps_Dev_after
    | with_reducible apply keeps_Dev_setTile | with_reducible apply keeps_Dev_event | split

theorem keeps_Dev_tileCome {d0 : Dev} {x1 : Nat} (ha : Q.allows 55083289) (h0 : Inv Q d0) : Inv Q (Dev.tileCome d0 x1) := by
  unfold Dev.tileCome
  try extract_lets
  repeat' first
    | with_reducible assumption | with_reducible exact ha.sub rfl | with_reducible apply keeps_Dev_event
    | with_reducible apply keeps_Dev_setTile

theorem keeps_tilePlug {x0 : Nat} {x1 : Nat} {d2 : Dev} (ha : Q.allows 55083293) (h2 : Inv Q d2) : Inv Q (tilePlug x0 x1 d2) := by
  unfold tilePlug
  try extract_lets
  repeat' first
    | with_reducible assumption | with_reducible exact ha.sub rfl | with_reducible apply keeps_Dev_after
    | with_reducible apply keeps_Dev_setTile | with_reducible apply keeps_Dev_tileCome | split

theorem keeps_Dev_tileGone {d0 : Dev} {x1 : Nat} (ha : Q.allows 55083289) (h0 : Inv Q d0) : Inv Q (Dev.tileGone d0 x1) := by
  unfold Dev.tileGone
  try extract_lets
  repeat' first
    | with_reducible assumption | with_reducible exact ha.sub rfl | with_reducible apply keeps_Dev_setTile
    | with_reducible apply keeps_Dev_event

theorem keeps_Dev_eyeStart {d0 : Dev} {x1 : Nat} {x2 : Nat} {x3 : Nat} (ha : Q.allows 256) (h0 : Inv Q d0) : Inv Q (Dev.eyeStart d0 x1 x2 x3) := by
  unfold Dev.eyeStart
  try extract_lets
  repeat' first
    | with_reducible assumption | with_reducible apply keeps_Dev_setTile | split

theorem keeps_tileEyeScanStart {x0 : Nat} {x1 : Nat} {x2 : Nat} {x3 : Nat} {d4 : Dev} (ha : Q.allows 33029) (h4 : Inv Q d4) : Inv Q (tileEyeScanStart x0 x1 x2 x3 d4) := by
  unfold tileEyeScanStart
  try extract_lets
  repeat' first
    | with_reducible assumption | with_reducible exact ha.sub rfl | with_reducible apply keeps_Dev_after
    | with_reducible apply keeps_Dev_eyeStart | with_reducible apply keeps_Dev_set | split

theorem keeps_Dev_eyeDone {d0 : Dev} {x1 : Nat} {x2 : Nat} {x3 : List Nat} (ha : Q.allows 55083289) (h0 : Inv Q d0) : Inv Q (Dev.eyeDone d0 x1 x2 x3) := by
  unfold Dev.eyeDone
  try extract_lets
  repeat' first
    | with_reducible assumption | with_reducible exact ha.sub rfl | with_reducible apply keeps_Dev_setTile
    | with_reducible apply keeps_Dev_wr | with_reducible apply keeps_Dev_event

theorem keeps_eyeRecord {x0 : Nat} {x1 : List Byte} {x2 : Nat} {d3 : Dev} (ha : Q.allows 55083293) (h3 : Inv Q d3) : Inv Q (eyeRecord x0 x1 x2 d3) := by
  unfold eyeRecord
  try extract_lets
  repeat' first
    | with_reducible assumption | with_reducible exact ha.sub rfl | with_reducible apply keeps_Dev_after
    | with_reducible apply keeps_Dev_linkErr | with_reducible apply keeps_Dev_eyeDone | split

theorem keeps_returnLaneScanDone {x0 : Nat} {x1 : List Nat} {x2 : Nat} {d3 : Dev} (ha : Q.allows 55083293) (h3 : Inv Q d3) : Inv Q (returnLaneScanDone x0 x1 x2 d3) := by
  unfold returnLaneScanDone
  try extract_lets
  repeat' first
    | with_reducible assumption | with_reducible exact ha.sub rfl | with_reducible apply keeps_Dev_after
    | with_reducible apply keeps_Dev_eyeDone | split

theorem keeps_tileEyeScanTimeout {x0 : Nat} {d1 : Dev} (ha : Q.allows 33028) (h1 : Inv Q d1) : Inv Q (tileEyeScanTimeout x0 d1) := by
  unfold tileEyeScanTimeout
  try extract_lets
  repeat' first
    | with_reducible assumption | with_reducible exact ha.sub rfl | with_reducible apply keeps_Dev_setTile
    | with_reducible apply keeps_Dev_reachUp | split

end Sys2Proof.Laws
end

