-- ==== Sys2Proof/Laws/Keeps/Safety.lean ====
section
/-!
SUPPORT. What Safety does keeps the invariant.
-/
namespace Sys2Proof.Laws
open Sys2Proof Sys2Proof.Machine
set_option linter.unusedVariables false
variable {Q : Scope}

/-- A scope in which the safety partition is supplied too. -/
def Scope.supplied (Q : Scope) : Scope :=
  { Q with saf := fun s => Q.saf s ∧ s.on = true, steady := fun s s' hs hp => ⟨Q.steady s s' hs hp.1, hs.1.trans hp.2⟩ }

theorem inv_supplied {d : Dev} (h : Inv Q d) (ho : d.saf.on = true) : Inv Q.supplied d := ⟨h.1, h.2, ⟨h.3, ho⟩, h.4⟩
theorem inv_of_supplied {d : Dev} (h : Inv Q.supplied d) : Inv Q d := ⟨h.1, h.2, h.3.1, h.4⟩
theorem allows_supplied {m : Nat} (h : Q.allows m) : Q.supplied.allows m := h

theorem still_setInputs {s : Saf} {i n : Nat} : Still s (s.setInputs i n) := still_same rfl rfl rfl
theorem same_setInputs {s : Saf} {m i n : Nat} : Same m 28 ((s.setInputs i n).key, (s.setInputs i n).slots) (s.key, s.slots) :=
  same_rfl

theorem keeps_Dev_setSaf {d : Dev} {m : Nat} {f : Saf → Saf} (ha : Q.allows 8192) (hm : Q.allows m) (h : Inv Q d)
    (hs : Still d.saf (f d.saf)) (c : Same m 28 ((f d.saf).key, (f d.saf).slots) (d.saf.key, d.saf.slots)) : Inv Q (d.setSaf f) :=
  ⟨h.1, h.2, Q.steady _ _ hs h.3, { h.4 with saf := .inl (ha.bit rfl), comm := c.trans hm h.4.comm }⟩

theorem keeps_Dev_safEvent {d0 : Dev} {x1 : Nat} {x2 : List Byte} (ha : Q.allows 55083033) (h0 : Inv Q d0) : Inv Q (Dev.safEvent d0 x1 x2) := by
  unfold Dev.safEvent
  try extract_lets
  repeat' first
    | with_reducible assumption | with_reducible apply keeps_Dev_event | split

theorem keeps_Dev_safeAssert {d0 : Dev} {x1 : Nat} {x2 : Nat} (ha : Q.allows 55094425) (h0 : Inv Q d0) : Inv Q (Dev.safeAssert d0 x1 x2) := by
  unfold Dev.safeAssert
  try extract_lets
  repeat' first
    | with_reducible assumption | with_reducible exact ha.sub rfl | with_reducible exact same_rfl
    | with_reducible exact still_same rfl rfl rfl | with_reducible exact still_safe rfl rfl
    | with_reducible apply keeps_Dev_setSaf | with_reducible apply keeps_Dev_cutStrikes
    | with_reducible apply keeps_Dev_calAbandon | with_reducible apply keeps_Dev_event
    | with_reducible apply keeps_Dev_msix | extract_lets | split | dsimp +zetaDelta only

theorem keeps_Dev_strobeRise {d0 : Dev} (ha : Q.allows 55094425) (h0 : Inv Q d0) : Inv2 Q (Dev.strobeRise d0) := by
  unfold Dev.strobeRise
  try extract_lets
  repeat' first
    | with_reducible assumption | with_reducible exact ha.sub rfl | with_reducible exact same_rfl
    | with_reducible exact still_same rfl rfl rfl | with_reducible apply keeps_Dev_safeAssert
    | with_reducible apply keeps_Dev_send | with_reducible apply keeps_Dev_setSaf | split
    | with_reducible apply inv2_mk

theorem keeps_Dev_softCheck {d0 : Dev} (ha : Q.allows 1099566719001) (h0 : Inv Q d0) : Inv Q (Dev.softCheck d0) := by
  unfold Dev.softCheck
  try extract_lets
  repeat' first
    | with_reducible assumption | with_reducible exact ha.sub rfl | with_reducible exact same_rfl
    | with_reducible exact still_same rfl rfl rfl | with_reducible apply keeps_Dev_setSaf
    | with_reducible apply keeps_Dev_safEvent | with_reducible apply keeps_Dev_trigger | split

theorem keeps_Dev_benNote {d0 : Dev} (ha : Q.allows 8192) (h0 : Inv Q d0) : Inv Q (Dev.benNote d0) := by
  unfold Dev.benNote
  try extract_lets
  repeat' first
    | with_reducible assumption | with_reducible exact same_rfl | with_reducible exact still_same rfl rfl rfl
    | with_reducible apply keeps_Dev_setSaf

theorem keeps_Dev_permitsChanged {d0 : Dev} (ha : Q.allows 1099566719001) (h0 : Inv Q d0) : Inv Q (Dev.permitsChanged d0) := by
  unfold Dev.permitsChanged
  try extract_lets
  repeat' first
    | with_reducible assumption | with_reducible exact ha.sub rfl | with_reducible apply keeps_Dev_benNote
    | with_reducible apply keeps_Dev_softCheck

theorem keeps_Dev_stage {d0 : Dev} {x1 : Nat} {x2 : Nat} (ha : Q.allows 8192) (h0 : Inv Q d0) : Inv Q (Dev.stage d0 x1 x2) := by
  unfold Dev.stage
  try extract_lets
  repeat' first
    | with_reducible assumption | with_reducible exact same_rfl | with_reducible exact still_same rfl rfl rfl
    | with_reducible apply keeps_Dev_setSaf

theorem keeps_Dev_spiAnswer {d0 : Dev} {x1 : List Byte} {x2 : Nat} {x3 : List Byte} (ha : Q.allows 8192) (h0 : Inv Q d0) : Inv Q (Dev.spiAnswer d0 x1 x2 x3) := by
  unfold Dev.spiAnswer
  try extract_lets
  repeat' first
    | with_reducible assumption | with_reducible exact same_rfl | with_reducible exact still_same rfl rfl rfl
    | with_reducible apply keeps_Dev_setSaf

theorem keeps_Dev_spiShift {d0 : Dev} (ha : Q.allows 16785408) (h0 : Inv Q d0) : Inv Q (Dev.spiShift d0) := by
  unfold Dev.spiShift
  try extract_lets
  repeat' first
    | with_reducible assumption | with_reducible exact ha.sub rfl | with_reducible apply keeps_Dev_spiAnswer
    | with_reducible apply keeps_Dev_send | extract_lets | split | dsimp +zetaDelta only

theorem keeps_Dev_safCommit {d0 : Dev} {x1 : Nat} (ha : Q.allows 55091225) (h0 : Inv Q d0) : Inv Q (Dev.safCommit d0 x1) := by
  unfold Dev.safCommit
  try extract_lets
  repeat' first
    | with_reducible assumption | with_reducible exact ha.sub rfl | with_reducible exact same_rfl
    | with_reducible exact still_same rfl rfl rfl | with_reducible apply keeps_Dev_wr
    | with_reducible apply keeps_Dev_safEvent | with_reducible apply keeps_Dev_setSaf | intro _ _ _ | extract_lets
    | with_reducible apply inv_foldl

theorem keeps_Dev_spiHeartbeat {d0 : Dev} {x1 : Nat} (ha : Q.allows 0) (h0 : Inv Q d0) : Inv22 Q (Dev.spiHeartbeat d0 x1) := by
  unfold Dev.spiHeartbeat
  try extract_lets
  repeat' first
    | with_reducible assumption | split | with_reducible apply inv22_mk

theorem keeps_Dev_spiRead {d0 : Dev} {x1 : Nat} {x2 : Nat} (ha : Q.allows 0) (h0 : Inv Q d0) : Inv22 Q (Dev.spiRead d0 x1 x2) := by
  unfold Dev.spiRead
  try extract_lets
  repeat' first
    | with_reducible assumption | split | with_reducible apply inv22_mk

theorem keeps_Dev_spiWrite {d0 : Dev} {x1 : Nat} {x2 : Nat} {x3 : Nat → Nat} (ha : Q.allows 8192) (h0 : Inv Q d0) : Inv22 Q (Dev.spiWrite d0 x1 x2 x3) := by
  unfold Dev.spiWrite
  try extract_lets
  repeat' first
    | with_reducible assumption | with_reducible apply keeps_Dev_stage | intro _ _ _ | extract_lets | split
    | with_reducible apply inv_foldl | with_reducible apply inv22_mk

theorem keeps_Dev_spiCeil {d0 : Dev} {x1 : Nat} {x2 : Nat} {x3 : Nat → Nat} (ha : Q.allows 8192) (h0 : Inv Q d0) : Inv22 Q (Dev.spiCeil d0 x1 x2 x3) := by
  unfold Dev.spiCeil
  try extract_lets
  repeat' first
    | with_reducible assumption | with_reducible apply keeps_Dev_stage | intro _ _ _ | extract_lets | split
    | with_reducible apply inv_foldl | with_reducible apply inv22_mk

theorem keeps_Dev_spiCommit {d0 : Dev} {x1 : Nat} {x2 : Nat} {x3 : Nat} (ha : Q.allows 55091225) (h0 : Inv Q d0) : Inv22 Q (Dev.spiCommit d0 x1 x2 x3) := by
  unfold Dev.spiCommit
  try extract_lets
  repeat' first
    | with_reducible assumption | with_reducible apply keeps_Dev_safCommit | split | with_reducible apply inv22_mk

theorem keeps_Dev_clearSafe {d : Dev} (hR : Freed Q.saf) (ha : Q.supplied.allows 8192) (h : Inv Q.supplied d) :
    Inv Q.supplied d.clearSafe :=
  ⟨h.1, h.2, ⟨hR _ h.3.2 h.3.1, h.3.2⟩, { h.4 with saf := .inl (ha.bit rfl), comm := h.4.comm }⟩

theorem keeps_Dev_spiRelease {d : Dev} {flags : Nat} (hR : Freed Q.saf) (ha : Q.supplied.allows 55091225)
    (h : Inv Q.supplied d) : Inv22 Q.supplied (d.spiRelease flags) := by
  unfold Dev.spiRelease
  repeat' first
    | with_reducible assumption | with_reducible exact ha.sub rfl | split | with_reducible apply inv22_mk
    | with_reducible apply keeps_Dev_safEvent | with_reducible apply keeps_Dev_msix
    | with_reducible apply keeps_Dev_clearSafe

theorem keeps_Dev_spiLock {d0 : Dev} {x1 : Nat} (ha : Q.allows 323526681) (h0 : Inv Q d0) : Inv22 Q (Dev.spiLock d0 x1) := by
  unfold Dev.spiLock
  try extract_lets
  repeat' first
    | with_reducible assumption | with_reducible exact ha.sub rfl | exact same_may rfl
    | with_reducible exact still_same rfl rfl rfl | with_reducible apply keeps_Dev_setSaf
    | with_reducible apply keeps_Dev_safEvent | split | with_reducible apply inv22_mk

theorem keeps_Dev_spiKey {d0 : Dev} {x1 : Nat} {x2 : List Byte} (ha : Q.allows 323526681) (h0 : Inv Q d0) : Inv22 Q (Dev.spiKey d0 x1 x2) := by
  unfold Dev.spiKey
  try extract_lets
  repeat' first
    | with_reducible assumption | with_reducible exact ha.sub rfl | exact same_may rfl
    | with_reducible exact still_same rfl rfl rfl | with_reducible apply keeps_Dev_setSaf
    | with_reducible apply keeps_Dev_safEvent | split | with_reducible apply inv22_mk

theorem keeps_Dev_spiDo {d : Dev} {req : List Byte} (hR : byteAt req 0 = 6 → Freed Q.saf) (ha : Q.supplied.allows 323529881)
    (h : Inv Q.supplied d) : Inv22 Q.supplied (d.spiDo req) := by
  unfold Dev.spiDo
  extract_lets
  split
  · with_reducible exact keeps_Dev_spiHeartbeat (ha.sub rfl) h
  · with_reducible exact keeps_Dev_spiRead (ha.sub rfl) h
  · with_reducible exact keeps_Dev_spiWrite (ha.sub rfl) h
  · with_reducible exact keeps_Dev_spiCeil (ha.sub rfl) h
  · with_reducible exact keeps_Dev_spiCommit (ha.sub rfl) h
  · rename_i e
    with_reducible exact keeps_Dev_spiRelease (hR e) (ha.sub rfl) h
  · split
    · exact h
    · with_reducible exact inv22_mk (keeps_Dev_safeAssert (ha.sub rfl) h)
  · with_reducible exact keeps_Dev_spiLock (ha.sub rfl) h
  · with_reducible exact keeps_Dev_spiKey (ha.sub rfl) h
  · exact h

theorem keeps_Dev_spiBadCrc {d0 : Dev} (ha : Q.allows 8192) (h0 : Inv Q d0) : Inv Q (Dev.spiBadCrc d0) := by
  unfold Dev.spiBadCrc
  try extract_lets
  repeat' first
    | with_reducible assumption | with_reducible exact same_rfl | with_reducible exact still_same rfl rfl rfl
    | with_reducible apply keeps_Dev_setSaf

theorem keeps_Dev_spiMacFail {d0 : Dev} (ha : Q.allows 55091225) (h0 : Inv Q d0) : Inv Q (Dev.spiMacFail d0) := by
  unfold Dev.spiMacFail
  try extract_lets
  repeat' first
    | with_reducible assumption | with_reducible exact ha.sub rfl | with_reducible exact same_rfl
    | with_reducible exact still_same rfl rfl rfl | with_reducible apply keeps_Dev_setSaf
    | with_reducible apply keeps_Dev_safEvent | split

theorem keeps_Dev_spiEnd {req : List Byte} {now : Nat} {x : SpiResult} (ha : Q.allows 8192) (h : Inv22 Q x) :
    Inv Q (Dev.spiEnd req now x) := by
  unfold Dev.spiEnd
  split
  · exact keeps_Dev_spiAnswer (ha.sub rfl) (keeps_Dev_setSaf (ha.sub rfl) ha (inv_snd2 h) (still_same rfl rfl rfl) same_rfl)
  · exact keeps_Dev_spiAnswer (ha.sub rfl) (inv_snd2 h)

theorem keeps_Dev_spiGood {d : Dev} {req : List Byte} (hR : byteAt req 0 = 6 → Freed Q.saf) (ha : Q.supplied.allows 323529881)
    (h : Inv Q.supplied d) : Inv Q.supplied (d.spiGood req) := by
  unfold Dev.spiGood
  have k : Inv Q.supplied (d.setSaf fun s => { s with macFail := 0 }) := keeps_Dev_setSaf (ha.sub rfl) ha h (still_same rfl rfl rfl) same_rfl
  extract_lets
  split
  · with_reducible exact keeps_Dev_spiAnswer (ha.sub rfl) k
  · with_reducible exact keeps_Dev_spiEnd (ha.sub rfl) (keeps_Dev_spiDo hR (ha.sub rfl) k)

theorem keeps_Dev_spiWhole {d : Dev} {req : List Byte} (hR : byteAt req 0 = 6 → Freed Q.saf) (ha : Q.supplied.allows 323529881)
    (h : Inv Q.supplied d) : Inv Q.supplied (d.spiWhole req) := by
  unfold Dev.spiWhole
  have k := keeps_Dev_spiShift (ha.sub rfl) h
  extract_lets
  split
  · with_reducible exact keeps_Dev_spiAnswer (ha.sub rfl) (keeps_Dev_spiBadCrc (ha.sub rfl) k)
  · split
    · with_reducible exact keeps_Dev_spiAnswer (ha.sub rfl) k
    · split
      · with_reducible exact keeps_Dev_spiAnswer (ha.sub rfl) (keeps_Dev_spiMacFail (ha.sub rfl) k)
      · with_reducible exact keeps_Dev_spiGood hR (ha.sub rfl) k

theorem keeps_Dev_spiRun {d : Dev} {req : List Byte} (hR : byteAt req 0 = 6 → Freed Q.saf) (ha : Q.allows 1099835157657)
    (h : Inv Q d) : Inv Q (d.spiRun req) := by
  unfold Dev.spiRun
  split
  · exact h
  · rename_i ho
    split
    · with_reducible exact keeps_Dev_spiBadCrc (ha.sub rfl) h
    · exact keeps_Dev_permitsChanged (ha.sub rfl)
        (inv_of_supplied (keeps_Dev_spiWhole hR (ha.sub rfl) (inv_supplied h (by simpa using ho))))

theorem keeps_Dev_spiCmd {d : Dev} {cmd : Nat} {req : List Byte} (hR : cmd = 6 → Freed Q.saf) (ha : Q.allows 1099835157657)
    (h : Inv Q d) : Inv Q (d.spiCmd cmd req) := by
  unfold Dev.spiCmd
  split
  · rename_i e
    exact keeps_Dev_spiRun (fun e' => hR (e.1.symm.trans e')) (ha.sub rfl) h
  · exact h

theorem keeps_Dev_pinEn {d0 : Dev} {x1 : Bool} (ha : Q.allows 8192) (h0 : Inv Q d0) : Inv Q (Dev.pinEn d0 x1) := by
  unfold Dev.pinEn
  try extract_lets
  repeat' first
    | with_reducible assumption | with_reducible exact same_rfl | with_reducible exact still_same rfl rfl rfl
    | with_reducible apply keeps_Dev_setSaf

theorem keeps_heartbeat {req : List Byte} {dt : Nat} {d : Dev} (ha : Q.allows 1099835157661) (h : Inv Q d) : Inv Q (heartbeat req dt d) :=
  keeps_Dev_spiCmd (fun e => absurd e (by decide)) (ha.sub rfl) (keeps_Dev_after (ha.sub rfl) h)

theorem keeps_safRead {req : List Byte} {dt : Nat} {d : Dev} (ha : Q.allows 1099835157661) (h : Inv Q d) : Inv Q (safRead req dt d) :=
  keeps_Dev_spiCmd (fun e => absurd e (by decide)) (ha.sub rfl) (keeps_Dev_after (ha.sub rfl) h)

theorem keeps_safWrite {req : List Byte} {dt : Nat} {d : Dev} (ha : Q.allows 1099835157661) (h : Inv Q d) : Inv Q (safWrite req dt d) :=
  keeps_Dev_spiCmd (fun e => absurd e (by decide)) (ha.sub rfl) (keeps_Dev_after (ha.sub rfl) h)

theorem keeps_ceilWrite {req : List Byte} {dt : Nat} {d : Dev} (ha : Q.allows 1099835157661) (h : Inv Q d) : Inv Q (ceilWrite req dt d) :=
  keeps_Dev_spiCmd (fun e => absurd e (by decide)) (ha.sub rfl) (keeps_Dev_after (ha.sub rfl) h)

theorem keeps_safCommit {req : List Byte} {commEn : Bool} {dt : Nat} {d : Dev} (ha : Q.allows 1099835157661) (h : Inv Q d) :
    Inv Q (safCommit req commEn dt d) :=
  keeps_Dev_spiCmd (fun e => absurd e (by decide)) (ha.sub rfl) (keeps_Dev_pinEn (ha.sub rfl) (keeps_Dev_after (ha.sub rfl) h))

theorem keeps_release {req : List Byte} {dt : Nat} {d : Dev} (hR : Freed Q.saf) (ha : Q.allows 1099835157661) (h : Inv Q d) :
    Inv Q (release req dt d) :=
  keeps_Dev_spiCmd (fun _ => hR) (ha.sub rfl) (keeps_Dev_after (ha.sub rfl) h)

theorem keeps_trip {req : List Byte} {dt : Nat} {d : Dev} (ha : Q.allows 1099835157661) (h : Inv Q d) : Inv Q (trip req dt d) :=
  keeps_Dev_spiCmd (fun e => absurd e (by decide)) (ha.sub rfl) (keeps_Dev_after (ha.sub rfl) h)

theorem keeps_lock {req : List Byte} {commEn : Bool} {dt : Nat} {d : Dev} (ha : Q.allows 1099835157661) (h : Inv Q d) :
    Inv Q (lock req commEn dt d) :=
  keeps_Dev_spiCmd (fun e => absurd e (by decide)) (ha.sub rfl) (keeps_Dev_pinEn (ha.sub rfl) (keeps_Dev_after (ha.sub rfl) h))

theorem keeps_keySet {req : List Byte} {commEn : Bool} {dt : Nat} {d : Dev} (ha : Q.allows 1099835157661) (h : Inv Q d) :
    Inv Q (keySet req commEn dt d) :=
  keeps_Dev_spiCmd (fun e => absurd e (by decide)) (ha.sub rfl) (keeps_Dev_pinEn (ha.sub rfl) (keeps_Dev_after (ha.sub rfl) h))

theorem keeps_Dev_spiRun_bad {d : Dev} {req : List Byte} (ha : Q.allows 1099835157661) (h : Inv Q d)
    (hb : req.length ≠ 52 ∨ fieldLE req 51 48 ≠ crc32 (req.take 48) ∨ byteAt req 0 = 0 ∨ 9 < byteAt req 0) :
    Inv Q (d.spiRun req) := by
  by_cases e : byteAt req 0 = 6
  · unfold Dev.spiRun
    split
    · exact h
    · split
      · with_reducible exact keeps_Dev_spiBadCrc (ha.sub rfl) h
      · rename_i hl
        refine keeps_Dev_permitsChanged (ha.sub rfl) ?_
        unfold Dev.spiWhole
        have k := keeps_Dev_spiShift (ha.sub rfl) h
        extract_lets
        split
        · with_reducible exact keeps_Dev_spiAnswer (ha.sub rfl) (keeps_Dev_spiBadCrc (ha.sub rfl) k)
        · rename_i hc
          rcases hb with hb | hb | hb | hb
          · exact absurd hb hl
          · exact absurd hb hc
          · omega
          · omega
  · exact keeps_Dev_spiRun (fun e' => absurd e' e) (ha.sub rfl) h

theorem keeps_safSpiBadTransaction {req : List Byte} {dt : Nat} {d : Dev} (ha : Q.allows 1099835157661) (h : Inv Q d) :
    Inv Q (safSpiBadTransaction req dt d) := by
  unfold safSpiBadTransaction
  have k := keeps_Dev_after (x1 := dt) (ha.sub rfl) h
  extract_lets
  split
  · rename_i hb
    exact keeps_Dev_spiRun_bad ha k hb
  · exact k

theorem keeps_safLockoutEnd {d0 : Dev} (ha : Q.allows 40964) (h0 : Inv Q d0) : Inv Q (safLockoutEnd d0) := by
  unfold safLockoutEnd
  try extract_lets
  repeat' first
    | with_reducible assumption | with_reducible exact ha.sub rfl | with_reducible exact same_rfl
    | with_reducible exact still_same rfl rfl rfl | with_reducible apply keeps_Dev_setSaf
    | with_reducible apply keeps_Dev_reachUp | split

theorem keeps_safHeartbeatTimeout {d0 : Dev} (ha : Q.allows 55094429) (h0 : Inv Q d0) : Inv Q (safHeartbeatTimeout d0) := by
  unfold safHeartbeatTimeout
  try extract_lets
  repeat' first
    | with_reducible assumption | with_reducible exact ha.sub rfl | with_reducible apply keeps_Dev_safeAssert
    | with_reducible apply keeps_Dev_reachUp | split

theorem keeps_interlockFall {x0 : Nat} {x1 : Nat} {d2 : Dev} (ha : Q.allows 55094429) (h2 : Inv Q d2) : Inv Q (interlockFall x0 x1 d2) := by
  unfold interlockFall
  try extract_lets
  repeat' first
    | with_reducible assumption | with_reducible exact ha.sub rfl | with_reducible exact still_same rfl rfl rfl
    | with_reducible apply keeps_Dev_after | with_reducible apply keeps_Dev_setSaf
    | with_reducible apply keeps_Dev_safeAssert | with_reducible exact same_setInputs | split

theorem keeps_interlockOk {x0 : Nat} {x1 : Nat} {d2 : Dev} (ha : Q.allows 40964) (h2 : Inv Q d2) : Inv Q (interlockOk x0 x1 d2) := by
  unfold interlockOk
  try extract_lets
  repeat' first
    | with_reducible assumption | with_reducible exact ha.sub rfl | with_reducible exact still_same rfl rfl rfl
    | with_reducible apply keeps_Dev_after | with_reducible apply keeps_Dev_setSaf
    | with_reducible exact same_setInputs | split

theorem keeps_estopDiscrepancy {d0 : Dev} (ha : Q.allows 55094429) (h0 : Inv Q d0) : Inv Q (estopDiscrepancy d0) := by
  unfold estopDiscrepancy
  try extract_lets
  repeat' first
    | with_reducible assumption | with_reducible exact ha.sub rfl | with_reducible exact same_rfl
    | with_reducible exact still_same rfl rfl rfl | with_reducible apply keeps_Dev_reachUp
    | with_reducible apply keeps_Dev_safeAssert | with_reducible apply keeps_Dev_setSaf | split

theorem keeps_safPlugChange {x0 : Nat} {x1 : Bool} {x2 : Nat} {d3 : Dev} (ha : Q.allows 1099566722205) (h3 : Inv Q d3) : Inv Q (safPlugChange x0 x1 x2 d3) := by
  unfold safPlugChange
  try extract_lets
  repeat' first
    | with_reducible assumption | with_reducible exact ha.sub rfl | with_reducible exact same_rfl
    | with_reducible exact still_same rfl rfl rfl | with_reducible apply keeps_Dev_after
    | with_reducible apply keeps_Dev_permitsChanged | with_reducible apply keeps_Dev_setSaf
    | with_reducible apply keeps_Dev_safeAssert | extract_lets | split

theorem keeps_safTempRecord {x0 : Nat} {x1 : List Int} {x2 : Nat} {d3 : Dev} (ha : Q.allows 1099566722205) (h3 : Inv Q d3) : Inv Q (safTempRecord x0 x1 x2 d3) := by
  unfold safTempRecord
  try extract_lets
  repeat' first
    | with_reducible assumption | with_reducible exact ha.sub rfl | with_reducible exact same_rfl
    | with_reducible exact still_same rfl rfl rfl | with_reducible apply keeps_Dev_after
    | with_reducible apply keeps_Dev_setSaf | with_reducible apply keeps_Dev_softCheck
    | with_reducible apply keeps_Dev_safeAssert | split

theorem keeps_safStaleTimeout {x0 : Nat} {d1 : Dev} (ha : Q.allows 55094429) (h1 : Inv Q d1) : Inv Q (safStaleTimeout x0 d1) := by
  unfold safStaleTimeout
  try extract_lets
  repeat' first
    | with_reducible assumption | with_reducible exact ha.sub rfl | with_reducible apply keeps_Dev_safeAssert
    | with_reducible apply keeps_Dev_reachUp | split

theorem keeps_strobeWatchdog {d0 : Dev} (ha : Q.allows 55094429) (h0 : Inv Q d0) : Inv Q (strobeWatchdog d0) := by
  unfold strobeWatchdog
  try extract_lets
  repeat' first
    | with_reducible assumption | with_reducible exact ha.sub rfl | with_reducible apply keeps_Dev_safeAssert
    | with_reducible apply keeps_Dev_reach | split

theorem keeps_safClockFault {x0 : Bool} {x1 : Nat} {d2 : Dev} (ha : Q.allows 55094429) (h2 : Inv Q d2) : Inv Q (safClockFault x0 x1 d2) := by
  unfold safClockFault
  try extract_lets
  repeat' first
    | with_reducible assumption | with_reducible exact ha.sub rfl | with_reducible exact same_rfl
    | with_reducible exact still_same rfl rfl rfl | with_reducible apply keeps_Dev_after
    | with_reducible apply keeps_Dev_setSaf | with_reducible apply keeps_Dev_safeAssert | split

theorem keeps_Dev_upset {d0 : Dev} {x1 : Option (Nat × Nat)} (ha : Q.allows 1) (h0 : Inv Q d0) : Inv Q (Dev.upset d0 x1) := by
  unfold Dev.upset
  try extract_lets
  repeat' first
    | with_reducible assumption | with_reducible apply keeps_Dev_wr | split

theorem keeps_safCrcCheck {x0 : Option (Nat × Nat)} {x1 : Nat} {d2 : Dev} (ha : Q.allows 55094429) (h2 : Inv Q d2) : Inv Q (safCrcCheck x0 x1 d2) := by
  unfold safCrcCheck
  try extract_lets
  repeat' first
    | with_reducible assumption | with_reducible exact ha.sub rfl | with_reducible exact same_rfl
    | with_reducible exact still_same rfl rfl rfl | with_reducible apply keeps_Dev_after
    | with_reducible apply keeps_Dev_reachUp | with_reducible apply keeps_Dev_upset
    | with_reducible apply keeps_Dev_setSaf | with_reducible apply keeps_Dev_safeAssert | split

theorem keeps_benReadbackFault {x0 : Nat} {x1 : Nat} {d2 : Dev} (ha : Q.allows 55094429) (h2 : Inv Q d2) : Inv Q (benReadbackFault x0 x1 d2) := by
  unfold benReadbackFault
  try extract_lets
  repeat' first
    | with_reducible assumption | with_reducible exact ha.sub rfl | with_reducible apply keeps_Dev_after
    | with_reducible apply keeps_Dev_safeAssert | split

theorem keeps_safFrameCheck {x0 : Nat} {x1 : Bool} {x2 : Bool} {x3 : Nat} {x4 : List (Nat × Nat × Nat)} {x5 : Nat} {d6 : Dev} (ha : Q.allows 55094429) (h6 : Inv Q d6) : Inv Q (safFrameCheck x0 x1 x2 x3 x4 x5 d6) := by
  unfold safFrameCheck
  try extract_lets
  repeat' first
    | with_reducible assumption | with_reducible exact ha.sub rfl | with_reducible apply keeps_Dev_after
    | with_reducible apply keeps_Dev_safeAssert | intro _ _ _ | extract_lets | split | with_reducible apply inv_foldl
    | dsimp +zetaDelta only

theorem keeps_Dev_clearSafRegs {d0 : Dev} (ha : Q.allows 1) (h0 : Inv Q d0) : Inv Q (Dev.clearSafRegs d0) := by
  unfold Dev.clearSafRegs
  try extract_lets
  repeat' first
    | with_reducible assumption | with_reducible exact still_rfl
    | (with_reducible apply Lit.mk <;> first | exact same_may rfl | with_reducible exact same_rfl)
    | (simp only [↓inv_mk]; first | with_reducible apply inv_parts ha | with_reducible apply inv_filter ha)

theorem keeps_safPowerOn {dt : Nat} {d : Dev} (hp : Power Q.saf) (ha : Q.allows 40967) (h : Inv Q d) :
    Inv Q (safPowerOn dt d) := by
  unfold safPowerOn
  have k := keeps_Dev_after (x1 := dt) (ha.sub rfl) h
  extract_lets
  split
  · exact k
  · have m := keeps_Dev_unlatch (x1 := 0xF00000) (x2 := 0x1000000) (ha.sub rfl) (keeps_Dev_clearSafRegs (ha.sub rfl) k)
    exact ⟨m.1, m.2, hp _ _ rfl m.3, { m.4 with saf := .inl (ha.bit rfl), comm := m.4.comm }⟩

theorem keeps_vddSafLoss {dt : Nat} {d : Dev} (hp : Power Q.saf) (ha : Q.allows 55094429) (h : Inv Q d) :
    Inv Q (vddSafLoss dt d) := by
  have k := keeps_Dev_safeAssert (x1 := cPOR) (x2 := 0xFF) (ha.sub rfl) (keeps_Dev_after (x1 := dt) (ha.sub rfl) h)
  exact ⟨k.1, k.2, hp _ _ rfl k.3, { k.4 with saf := .inl (ha.bit rfl), comm := k.4.comm }⟩

end Sys2Proof.Laws
end

