-- ==== Sys2Proof/Laws/Keeps/Stage.lean ====
section
/-!
SUPPORT. What Stage does keeps the invariant.
-/
namespace Sys2Proof.Laws
open Sys2Proof Sys2Proof.Machine
set_option linter.unusedVariables false
variable {Q : Scope}

theorem keeps_Dev_setStg {d : Dev} {m : Nat} {f : Stage → Stage} (ha : Q.allows 512) (hm : Q.allows m) (h : Inv Q d)
    (c32 : Same m 32 ((f d.stg).strikeOk, (f d.stg).retreat) (d.stg.strikeOk, d.stg.retreat)) : Inv Q (d.setStg f) :=
  ⟨h.1, h.2, h.3, { h.4 with stg := .inl (ha.bit rfl), stgOut := c32.trans hm h.4.stgOut }⟩

theorem keeps_Dev_quadCount {d0 : Dev} {x1 : Nat} {x2 : Int} (ha : Q.allows 512) (h0 : Inv Q d0) : Inv Q (Dev.quadCount d0 x1 x2) := by
  unfold Dev.quadCount
  try extract_lets
  repeat' first
    | with_reducible assumption | with_reducible exact same_rfl | with_reducible apply keeps_Dev_setStg

theorem keeps_Dev_takeSample {d0 : Dev} {x1 : Sample} (ha : Q.allows 55083545) (h0 : Inv Q d0) : Inv Q (Dev.takeSample d0 x1) := by
  unfold Dev.takeSample
  try extract_lets
  repeat' first
    | with_reducible assumption | with_reducible exact ha.sub rfl | with_reducible exact same_rfl
    | with_reducible apply keeps_Dev_setStg | with_reducible apply keeps_Dev_eventLim
    | with_reducible apply keeps_Dev_bumpF | split

theorem keeps_stageSample {x0 : Option Biss} {x1 : Option Biss} {x2 : Int} {x3 : Int} {d4 : Dev} (ha : Q.allows 55083549) (h4 : Inv Q d4) : Inv Q (stageSample x0 x1 x2 x3 d4) := by
  unfold stageSample
  try extract_lets
  repeat' first
    | with_reducible assumption | with_reducible exact ha.sub rfl | with_reducible exact same_rfl
    | with_reducible apply keeps_Dev_quadCount | with_reducible apply keeps_Dev_reach
    | with_reducible apply keeps_Dev_setStg | with_reducible apply keeps_Dev_kSend
    | with_reducible apply keeps_Dev_takeSample | split

theorem keeps_Dev_takeIn {d0 : Dev} {x1 : Nat} (ha : Q.allows 8388608) (h0 : Inv Q d0) : OptInv2 Q (Dev.takeIn d0 x1) := by
  unfold Dev.takeIn
  try extract_lets
  repeat' first
    | with_reducible assumption | with_reducible exact still_rfl
    | (with_reducible apply Lit.mk <;> first | exact same_may rfl | with_reducible exact same_rfl) | extract_lets
    | split | (simp only [↓inv_mk]; with_reducible apply inv_parts ha) | (with_reducible apply optInv2_map; intro _)
    | with_reducible exact optInv2_none

theorem keeps_stageSampleRecord {x0 : Nat} {d1 : Dev} (ha : Q.allows 63472157) (h1 : Inv Q d1) : Inv Q (stageSampleRecord x0 d1) := by
  unfold stageSampleRecord
  try extract_lets
  repeat' first
    | with_reducible assumption | with_reducible exact ha.sub rfl | with_reducible apply keeps_Dev_takeIn
    | with_reducible apply keeps_Dev_after | with_reducible apply keeps_Dev_event
    | with_reducible apply keeps_Dev_bumpF | with_reducible apply keeps_Dev_takeSample | extract_lets | split
    | with_reducible refine inv_some2 (by assumption) ?_

theorem keeps_Dev_noteMissing {d0 : Dev} {x1 : Nat} (ha : Q.allows 512) (h0 : Inv Q d0) : Inv Q (Dev.noteMissing d0 x1) := by
  unfold Dev.noteMissing
  try extract_lets
  repeat' first
    | with_reducible assumption | with_reducible exact same_rfl | with_reducible apply keeps_Dev_setStg

theorem keeps_Dev_lossCheck {d0 : Dev} {x1 : Nat} (ha : Q.allows 1099566711321) (h0 : Inv Q d0) : Inv Q (Dev.lossCheck d0 x1) := by
  unfold Dev.lossCheck
  try extract_lets
  repeat' first
    | with_reducible assumption | with_reducible exact ha.sub rfl | with_reducible exact same_rfl
    | with_reducible apply keeps_Dev_setStg | with_reducible apply keeps_Dev_noteMissing
    | with_reducible apply keeps_Dev_triggerNext | with_reducible apply keeps_Dev_event | split

theorem keeps_Dev_lossClear {d0 : Dev} (ha : Q.allows 55083545) (h0 : Inv Q d0) : Inv Q (Dev.lossClear d0) := by
  unfold Dev.lossClear
  try extract_lets
  repeat' first
    | with_reducible assumption | with_reducible exact ha.sub rfl | with_reducible exact same_rfl
    | with_reducible apply keeps_Dev_event | with_reducible apply keeps_Dev_setStg | split

theorem keeps_quadIndex {x0 : Nat} {x1 : Int} {x2 : Nat} {d3 : Dev} (ha : Q.allows 33285) (h3 : Inv Q d3) : Inv Q (quadIndex x0 x1 x2 d3) := by
  unfold quadIndex
  try extract_lets
  repeat' first
    | with_reducible assumption | with_reducible exact ha.sub rfl | with_reducible apply keeps_Dev_after
    | with_reducible apply keeps_Dev_quadCount | with_reducible apply keeps_Dev_wr | split

theorem keeps_quadCountError {x0 : Nat} {x1 : Nat} {d2 : Dev} (ha : Q.allows 33284) (h2 : Inv Q d2) : Inv Q (quadCountError x0 x1 d2) := by
  unfold quadCountError
  try extract_lets
  repeat' first
    | with_reducible assumption | with_reducible exact ha.sub rfl | with_reducible exact same_rfl
    | with_reducible apply keeps_Dev_after | with_reducible apply keeps_Dev_setStg | split

theorem keeps_holdReqAssert {x0 : Nat} {d1 : Dev} (ha : Q.allows 1099566711325) (h1 : Inv Q d1) : Inv Q (holdReqAssert x0 d1) := by
  unfold holdReqAssert
  try extract_lets
  repeat' first
    | with_reducible assumption | with_reducible exact ha.sub rfl | with_reducible exact same_rfl
    | with_reducible apply keeps_Dev_after | with_reducible apply keeps_Dev_setStg
    | with_reducible apply keeps_Dev_event | with_reducible apply keeps_Dev_trigger | split

theorem keeps_holdReqDeassert {x0 : Nat} {d1 : Dev} (ha : Q.allows 55083549) (h1 : Inv Q d1) : Inv Q (holdReqDeassert x0 d1) := by
  unfold holdReqDeassert
  try extract_lets
  repeat' first
    | with_reducible assumption | with_reducible exact ha.sub rfl | with_reducible exact same_rfl
    | with_reducible apply keeps_Dev_after | with_reducible apply keeps_Dev_setStg
    | with_reducible apply keeps_Dev_event | split

theorem keeps_Dev_takeSync {d0 : Dev} (ha : Q.allows 55083545) (h0 : Inv Q d0) : Inv Q (Dev.takeSync d0) := by
  unfold Dev.takeSync
  try extract_lets
  repeat' first
    | with_reducible assumption | with_reducible exact ha.sub rfl | with_reducible exact same_rfl
    | with_reducible apply keeps_Dev_setStg | with_reducible apply keeps_Dev_bump
    | with_reducible apply keeps_Dev_event | split

theorem keeps_layerSync {x0 : Nat} {d1 : Dev} (ha : Q.allows 55083549) (h1 : Inv Q d1) : Inv Q (layerSync x0 d1) := by
  unfold layerSync
  try extract_lets
  repeat' first
    | with_reducible assumption | with_reducible exact ha.sub rfl | with_reducible exact same_rfl
    | with_reducible apply keeps_Dev_after | with_reducible apply keeps_Dev_setStg
    | with_reducible apply keeps_Dev_takeSync | split

theorem keeps_Dev_syncEdge {d0 : Dev} (ha : Q.allows 55083545) (h0 : Inv Q d0) : Inv Q (Dev.syncEdge d0) := by
  unfold Dev.syncEdge
  try extract_lets
  repeat' first
    | with_reducible assumption | with_reducible exact ha.sub rfl | with_reducible exact same_rfl
    | with_reducible apply keeps_Dev_setStg | with_reducible apply keeps_Dev_takeSync | split

theorem keeps_retreatReqFall {x0 : Nat} {d1 : Dev} (ha : Q.allows 4295000708) (h1 : Inv Q d1) : Inv Q (retreatReqFall x0 d1) := by
  unfold retreatReqFall
  try extract_lets
  repeat' first
    | with_reducible assumption | with_reducible exact ha.sub rfl | with_reducible exact still_rfl
    | (with_reducible apply Lit.mk <;> first | exact same_may rfl | with_reducible exact same_rfl)
    | exact same_may rfl | with_reducible apply keeps_Dev_after | with_reducible apply keeps_Dev_setStg | split
    | (simp only [↓inv_mk]; with_reducible apply inv_parts ha)

end Sys2Proof.Laws
end

