-- ==== Sys2Proof/Laws/Keeps/Frames.lean ====
section
/-!
SUPPORT. What Frames does keeps the invariant.
-/
namespace Sys2Proof.Laws
open Sys2Proof Sys2Proof.Machine
set_option linter.unusedVariables false
variable {Q : Scope}

theorem keeps_Dev_sendFrame {d0 : Dev} {x1 : Nat} {x2 : Nat} {x3 : Bool} {x4 : List Nat} {x5 : Bool} (ha : Q.allows 16777216) (h0 : Inv Q d0) : Inv Q (Dev.sendFrame d0 x1 x2 x3 x4 x5) := by
  unfold Dev.sendFrame
  try extract_lets
  repeat' first
    | with_reducible assumption | with_reducible apply keeps_Dev_send | split

theorem keeps_Dev_sendDly {d0 : Dev} (ha : Q.allows 16777216) (h0 : Inv Q d0) : Inv Q (Dev.sendDly d0) := by
  unfold Dev.sendDly
  try extract_lets
  repeat' first
    | with_reducible assumption | with_reducible apply keeps_Dev_send | intro _ _ _ | extract_lets | split
    | with_reducible apply inv_foldl

theorem keeps_Dev_recordStrike {d0 : Dev} {x1 : Nat} {x2 : Bool} {x3 : List SentPass} (ha : Q.allows 128) (h0 : Inv Q d0) : Inv Q (Dev.recordStrike d0 x1 x2 x3) := by
  unfold Dev.recordStrike
  try extract_lets
  repeat' first
    | with_reducible assumption | with_reducible exact still_rfl
    | (with_reducible apply Lit.mk <;> first | exact same_may rfl | with_reducible exact same_rfl)
    | (simp only [↓inv_mk]; with_reducible apply inv_parts ha)

end Sys2Proof.Laws
end

