-- ==== Sys2Proof/Laws/Keeps/Calibrate.lean ====
section
/-!
SUPPORT. What Calibrate does keeps the invariant.
-/
namespace Sys2Proof.Laws
open Sys2Proof Sys2Proof.Machine
set_option linter.unusedVariables false
variable {Q : Scope}

theorem keeps_Dev_calRequest {d0 : Dev} {x1 : Desc} {x2 : Bool} (ha : Q.allows 21530649) (h0 : Inv Q d0) : Inv Q (Dev.calRequest d0 x1 x2) := by
  unfold Dev.calRequest
  try extract_lets
  repeat' first
    | with_reducible assumption | with_reducible exact ha.sub rfl | with_reducible exact still_rfl
    | (with_reducible apply Lit.mk <;> first | exact same_may rfl | with_reducible exact same_rfl)
    | with_reducible apply keeps_Dev_reject | split | (simp only [↓inv_mk]; with_reducible apply inv_parts ha)
    | dsimp +zetaDelta only

theorem keeps_calRun {x0 : Nat} {d1 : Dev} (ha : Q.allows 17201399837) (h1 : Inv Q d1) : Inv Q (calRun x0 d1) := by
  unfold calRun
  try extract_lets
  repeat' first
    | with_reducible assumption | with_reducible exact ha.sub rfl | with_reducible apply keeps_Dev_cmd0
    | with_reducible apply keeps_Dev_after | with_reducible apply keeps_Dev_calRequest | intro _ _ _

theorem keeps_selfTest {x0 : Nat} {d1 : Dev} (ha : Q.allows 17201399837) (h1 : Inv Q d1) : Inv Q (selfTest x0 d1) := by
  unfold selfTest
  try extract_lets
  repeat' first
    | with_reducible assumption | with_reducible exact ha.sub rfl | with_reducible apply keeps_Dev_cmd0
    | with_reducible apply keeps_Dev_after | with_reducible apply keeps_Dev_calRequest | intro _ _ _

theorem keeps_Dev_copyBank {d0 : Dev} {x1 : Nat} {x2 : Nat} {x3 : Nat} (ha : Q.allows 55410713) (h0 : Inv Q d0) : Inv Q (Dev.copyBank d0 x1 x2 x3) := by
  induction x2 generalizing d0 x1 x3 with
  | zero =>
    unfold Dev.copyBank
    try extract_lets
    repeat' first
      | with_reducible assumption
  | succ n ih =>
    unfold Dev.copyBank
    try extract_lets
    repeat' first
      | with_reducible assumption | with_reducible apply ih | with_reducible exact ha.sub rfl
      | with_reducible apply keeps_Dev_readWord | with_reducible apply keeps_Dev_writeWord | extract_lets | split
      | with_reducible apply inv_snd

theorem keeps_Dev_copyWhole {d0 : Dev} {x1 : Nat} (ha : Q.allows 55410713) (h0 : Inv Q d0) : Inv Q (Dev.copyWhole d0 x1) := by
  unfold Dev.copyWhole
  try extract_lets
  repeat' first
    | with_reducible assumption | with_reducible exact ha.sub rfl | with_reducible apply keeps_Dev_copyBank
    | with_reducible apply keeps_Dev_oorPast

theorem keeps_calRunStart {x0 : Nat} {d1 : Dev} (ha : Q.allows 55412765) (h1 : Inv Q d1) : Inv Q (calRunStart x0 d1) := by
  unfold calRunStart
  try extract_lets
  repeat' first
    | with_reducible assumption | with_reducible exact ha.sub rfl | with_reducible exact still_rfl
    | (with_reducible apply Lit.mk <;> first | exact same_may rfl | with_reducible exact same_rfl)
    | with_reducible apply keeps_Dev_after | with_reducible apply keeps_Dev_calReject
    | with_reducible apply keeps_Dev_event | with_reducible apply keeps_Dev_copyWhole | intro _ _ _ | extract_lets
    | split | (simp only [↓inv_mk]; with_reducible apply inv_parts ha) | with_reducible apply inv_foldl
    | dsimp +zetaDelta only

theorem keeps_Dev_calDesignate {d0 : Dev} (ha : Q.allows 16779264) (h0 : Inv Q d0) : Inv2 Q (Dev.calDesignate d0) := by
  unfold Dev.calDesignate
  try extract_lets
  repeat' first
    | with_reducible assumption | with_reducible exact ha.sub rfl | with_reducible apply keeps_Dev_setRun
    | with_reducible apply keeps_Dev_sendFrame | intro _ _ _ | extract_lets | split | with_reducible apply inv_foldl
    | with_reducible apply inv2_mk

theorem keeps_calibrationStrike {d0 : Dev} (ha : Q.allows 137494047897) (h0 : Inv Q d0) : Inv Q (calibrationStrike d0) := by
  unfold calibrationStrike
  try extract_lets
  repeat' first
    | with_reducible assumption | with_reducible exact ha.sub rfl | with_reducible exact still_rfl
    | (with_reducible apply Lit.mk <;> first | exact same_may rfl | with_reducible exact same_rfl)
    | with_reducible apply keeps_Dev_strobeRise | with_reducible apply keeps_Dev_recordStrike
    | with_reducible apply keeps_Dev_wr | with_reducible apply keeps_Dev_setRunTile
    | with_reducible apply keeps_Dev_setRun | intro _ _ _ | extract_lets | split
    | (simp only [↓inv_mk]; with_reducible apply inv_parts ha) | with_reducible apply inv_foldl
    | with_reducible refine inv_eq2 (by assumption) ?_ | dsimp +zetaDelta only

theorem keeps_Dev_calCharge {d0 : Dev} {x1 : Nat} {x2 : Nat} {x3 : List Nat} (ha : Q.allows 2048) (h0 : Inv Q d0) : Inv Q (Dev.calCharge d0 x1 x2 x3) := by
  unfold Dev.calCharge
  try extract_lets
  repeat' first
    | with_reducible assumption | with_reducible apply keeps_Dev_setRunTile

theorem keeps_Dev_calDiscard {d0 : Dev} {x1 : Nat} {x2 : Nat} (ha : Q.allows 2048) (h0 : Inv Q d0) : Inv Q (Dev.calDiscard d0 x1 x2) := by
  unfold Dev.calDiscard
  try extract_lets
  repeat' first
    | with_reducible assumption | with_reducible apply keeps_Dev_setRunTile

theorem keeps_Dev_calWord {d0 : Dev} {x1 : Nat} {x2 : Nat} {x3 : Nat} {x4 : Nat} (ha : Q.allows 55410713) (h0 : Inv Q d0) : Inv2 Q (Dev.calWord d0 x1 x2 x3 x4) := by
  unfold Dev.calWord
  try extract_lets
  repeat' first
    | with_reducible assumption | with_reducible apply keeps_Dev_hbmRead | extract_lets | split
    | with_reducible apply inv2_mk | with_reducible refine inv_eq2 (by assumption) ?_

theorem keeps_Dev_calFive {d0 : Dev} {x1 : Nat} {x2 : Nat} {x3 : Nat} (ha : Q.allows 55410713) (h0 : Inv Q d0) : Inv2 Q (Dev.calFive d0 x1 x2 x3) := by
  unfold Dev.calFive
  try extract_lets
  repeat' first
    | with_reducible assumption | with_reducible apply keeps_Dev_calWord | intro _ _ _ | extract_lets | split
    | with_reducible apply inv_foldl2 | with_reducible apply inv2_mk | with_reducible apply inv_snd
    | with_reducible refine inv_eq2 (by assumption) ?_

theorem keeps_Dev_fitBeam {d0 : Dev} {x1 : CalRun} {x2 : Nat} {x3 : Int} {x4 : Meas} (ha : Q.allows 55410713) (h0 : Inv Q d0) : Inv2 Q (Dev.fitBeam d0 x1 x2 x3 x4) := by
  unfold Dev.fitBeam
  try extract_lets
  repeat' first
    | with_reducible assumption | with_reducible apply keeps_Dev_hbmWrite | with_reducible apply keeps_Dev_calFive
    | intro _ _ _ | extract_lets | split | with_reducible apply inv_foldl | with_reducible apply inv2_mk
    | with_reducible refine inv_eq2 (by assumption) ?_

theorem keeps_Dev_testBeam {d0 : Dev} {x1 : CalRun} {x2 : Nat} {x3 : Int} {x4 : Meas} (ha : Q.allows 55410713) (h0 : Inv Q d0) : Inv2 Q (Dev.testBeam d0 x1 x2 x3 x4) := by
  unfold Dev.testBeam
  try extract_lets
  repeat' first
    | with_reducible assumption | with_reducible apply keeps_Dev_calFive | extract_lets | split
    | with_reducible apply inv2_mk | with_reducible refine inv_eq2 (by assumption) ?_

theorem keeps_Dev_calTileEnd {d0 : Dev} {x1 : CalRun} {x2 : CalTileRun} (ha : Q.allows 55412761) (h0 : Inv Q d0) : Inv2 Q (Dev.calTileEnd d0 x1 x2) := by
  unfold Dev.calTileEnd
  try extract_lets
  repeat' first
    | with_reducible assumption | with_reducible exact ha.sub rfl | with_reducible apply keeps_Dev_event
    | with_reducible apply keeps_Dev_testBeam | with_reducible apply keeps_Dev_fitBeam
    | with_reducible apply keeps_Dev_hbmWrite | with_reducible apply keeps_Dev_set | with_reducible apply keeps_Dev_wr
    | with_reducible apply keeps_Dev_setCalTile | intro _ _ _ | extract_lets | split | with_reducible apply inv_foldl2
    | with_reducible apply inv2_mk | with_reducible apply inv_snd | with_reducible refine inv_eq2 (by assumption) ?_
    | dsimp +zetaDelta only

theorem keeps_Dev_bankInForce {d0 : Dev} {x1 : Nat} {x2 : Nat} (ha : Q.allows 55085081) (h0 : Inv Q d0) : Inv Q (Dev.bankInForce d0 x1 x2) := by
  unfold Dev.bankInForce
  try extract_lets
  repeat' first
    | with_reducible assumption | with_reducible exact ha.sub rfl | with_reducible apply keeps_Dev_setCalTile
    | with_reducible apply keeps_Dev_event

theorem keeps_Dev_calApply {d0 : Dev} {x1 : CalRun} {x2 : Nat} (ha : Q.allows 55085209) (h0 : Inv Q d0) : Inv Q (Dev.calApply d0 x1 x2) := by
  unfold Dev.calApply
  try extract_lets
  repeat' first
    | with_reducible assumption | with_reducible exact ha.sub rfl | with_reducible apply keeps_Dev_bankInForce
    | with_reducible apply keeps_Dev_rampWrite | with_reducible apply keeps_Dev_setCalTile | intro _ _ _
    | extract_lets | split | with_reducible apply inv_foldl

theorem keeps_calRunEnd {x0 : Nat} {d1 : Dev} (ha : Q.allows 55412893) (h1 : Inv Q d1) : Inv Q (calRunEnd x0 d1) := by
  unfold calRunEnd
  try extract_lets
  repeat' first
    | with_reducible assumption | with_reducible exact ha.sub rfl | with_reducible apply keeps_Dev_after
    | with_reducible apply keeps_Dev_calTileEnd | with_reducible apply keeps_Dev_calFinish
    | with_reducible apply keeps_Dev_calApply | intro _ _ _ | extract_lets | split | with_reducible apply inv_foldl
    | with_reducible apply inv_foldl2 | with_reducible apply inv2_mk | with_reducible apply inv_snd
    | with_reducible refine inv_eq2 (by assumption) ?_

theorem keeps_tileUnplug {x0 : Nat} {x1 : Nat} {d2 : Dev} (ha : Q.allows 55085469) (h2 : Inv Q d2) : Inv Q (tileUnplug x0 x1 d2) := by
  unfold tileUnplug
  try extract_lets
  repeat' first
    | with_reducible assumption | with_reducible exact ha.sub rfl | with_reducible apply keeps_Dev_after
    | with_reducible apply keeps_Dev_setTile | with_reducible apply keeps_Dev_calAbandon
    | with_reducible apply keeps_Dev_tileGone | split

theorem keeps_Dev_plugEdge {d0 : Dev} (ha : Q.allows 55085465) (h0 : Inv Q d0) : Inv Q (Dev.plugEdge d0) := by
  unfold Dev.plugEdge
  try extract_lets
  repeat' first
    | with_reducible assumption | with_reducible exact ha.sub rfl | with_reducible apply keeps_Dev_setTile
    | with_reducible apply keeps_Dev_tileCome | with_reducible apply keeps_Dev_calAbandon
    | with_reducible apply keeps_Dev_tileGone | intro _ _ _ | extract_lets | split | with_reducible apply inv_foldl

theorem keeps_Dev_calBoundary {d0 : Dev} (ha : Q.allows 55085209) (h0 : Inv Q d0) : Inv Q (Dev.calBoundary d0) := by
  unfold Dev.calBoundary
  try extract_lets
  repeat' first
    | with_reducible assumption | with_reducible exact ha.sub rfl | with_reducible exact still_rfl
    | (with_reducible apply Lit.mk <;> first | exact same_may rfl | with_reducible exact same_rfl)
    | with_reducible apply keeps_Dev_bumpEpoch | extract_lets | split
    | (simp only [↓inv_mk]; with_reducible apply inv_parts ha) | dsimp +zetaDelta only

theorem keeps_calBankIntoForce {x0 : Nat} {d1 : Dev} (ha : Q.allows 55085085) (h1 : Inv Q d1) : Inv Q (calBankIntoForce x0 d1) := by
  unfold calBankIntoForce
  try extract_lets
  repeat' first
    | with_reducible assumption | with_reducible exact ha.sub rfl | with_reducible apply keeps_Dev_after
    | with_reducible apply keeps_Dev_bankInForce | intro _ _ _ | split | with_reducible apply inv_foldl

theorem keeps_Dev_calConfigure {d0 : Dev} (ha : Q.allows 55085209) (h0 : Inv Q d0) : Inv Q (Dev.calConfigure d0) := by
  unfold Dev.calConfigure
  try extract_lets
  repeat' first
    | with_reducible assumption | with_reducible exact ha.sub rfl | with_reducible apply keeps_Dev_setCol
    | with_reducible apply keeps_Dev_wr | with_reducible apply keeps_Dev_bankInForce | intro _ _ _ | extract_lets
    | with_reducible apply inv_foldl

theorem keeps_Dev_calDropReqs {d0 : Dev} {x1 : Nat} (ha : Q.allows 21530649) (h0 : Inv Q d0) : Inv Q (Dev.calDropReqs d0 x1) := by
  unfold Dev.calDropReqs
  try extract_lets
  repeat' first
    | with_reducible assumption | with_reducible exact ha.sub rfl | with_reducible exact still_rfl
    | (with_reducible apply Lit.mk <;> first | exact same_may rfl | with_reducible exact same_rfl)
    | with_reducible apply keeps_Dev_calReject | intro _ _ _ | extract_lets
    | (simp only [↓inv_mk]; with_reducible apply inv_parts ha) | with_reducible apply inv_foldl

end Sys2Proof.Laws
end

