-- ==== Sys2Proof/Laws/Keeps/Acks.lean ====
section
/-!
SUPPORT. What Acks does keeps the invariant.
-/
namespace Sys2Proof.Laws
open Sys2Proof Sys2Proof.Machine
set_option linter.unusedVariables false
variable {Q : Scope}

theorem keeps_Dev_takeTelemetry {d0 : Dev} {x1 : Nat} {x2 : List Byte} {x3 : Nat} (ha : Q.allows 256) (h0 : Inv Q d0) : Inv Q (Dev.takeTelemetry d0 x1 x2 x3) := by
  unfold Dev.takeTelemetry
  try extract_lets
  repeat' first
    | with_reducible assumption | with_reducible apply keeps_Dev_setTile

theorem keeps_statusRecord {x0 : Nat} {x1 : List Byte} {x2 : Nat} {d3 : Dev} (ha : Q.allows 33029) (h3 : Inv Q d3) : Inv Q (statusRecord x0 x1 x2 d3) := by
  unfold statusRecord
  try extract_lets
  repeat' first
    | with_reducible assumption | with_reducible exact ha.sub rfl | with_reducible apply keeps_Dev_after
    | with_reducible apply keeps_Dev_linkErr | with_reducible apply keeps_Dev_takeTelemetry | split

theorem keeps_Dev_passStruck {d0 : Dev} {x1 : Strike} {x2 : SentPass} (ha : Q.allows 128) (h0 : Inv Q d0) : Inv Q (Dev.passStruck d0 x1 x2) := by
  unfold Dev.passStruck
  try extract_lets
  repeat' first
    | with_reducible assumption | with_reducible exact still_rfl
    | (with_reducible apply Lit.mk <;> first | exact same_may rfl | with_reducible exact same_rfl)
    | with_reducible apply keeps_Dev_updMap | split | (simp only [↓inv_mk]; with_reducible apply inv_parts ha)

theorem keeps_Dev_passResolve {d0 : Dev} {x1 : Strike} {x2 : SentPass} {x3 : Nat} (ha : Q.allows 16777457) (h0 : Inv Q d0) : Inv Q (Dev.passResolve d0 x1 x2 x3) := by
  unfold Dev.passResolve
  try extract_lets
  repeat' first
    | with_reducible assumption | with_reducible exact ha.sub rfl | with_reducible apply keeps_Dev_ldgStroke
    | with_reducible apply keeps_Dev_flagBeams | with_reducible apply keeps_Dev_passStruck | extract_lets | split
    | dsimp +zetaDelta only

theorem keeps_Dev_dropStrike {d0 : Dev} {x1 : Strike} (ha : Q.allows 128) (h0 : Inv Q d0) : Inv Q (Dev.dropStrike d0 x1) := by
  unfold Dev.dropStrike
  try extract_lets
  repeat' first
    | with_reducible assumption | with_reducible exact still_rfl
    | (with_reducible apply Lit.mk <;> first | exact same_may rfl | with_reducible exact same_rfl)
    | (simp only [↓inv_mk]; with_reducible apply inv_parts ha)

theorem keeps_Dev_holdStrike {d0 : Dev} {x1 : Strike} {x2 : Bool} (ha : Q.allows 128) (h0 : Inv Q d0) : Inv Q (Dev.holdStrike d0 x1 x2) := by
  unfold Dev.holdStrike
  try extract_lets
  repeat' first
    | with_reducible assumption | with_reducible exact still_rfl
    | (with_reducible apply Lit.mk <;> first | exact same_may rfl | with_reducible exact same_rfl)
    | (simp only [↓inv_mk]; with_reducible apply inv_parts ha)

theorem keeps_Dev_cancelRestrike {d0 : Dev} {x1 : Strike} (ha : Q.allows 128) (h0 : Inv Q d0) : Inv Q (Dev.cancelRestrike d0 x1) := by
  unfold Dev.cancelRestrike
  try extract_lets
  repeat' first
    | with_reducible assumption | with_reducible exact still_rfl
    | (with_reducible apply Lit.mk <;> first | exact same_may rfl | with_reducible exact same_rfl)
    | with_reducible apply keeps_Dev_updMap | with_reducible apply keeps_Dev_setCol | intro _ _ _ | extract_lets
    | (simp only [↓inv_mk]; with_reducible apply inv_parts ha) | with_reducible apply inv_foldl

theorem keeps_Dev_strikeMatch {d0 : Dev} {x1 : Strike} {x2 : StrikeRec} {x3 : Nat} {x4 : Bool} (ha : Q.allows 55101945) (h0 : Inv Q d0) : Inv Q (Dev.strikeMatch d0 x1 x2 x3 x4) := by
  unfold Dev.strikeMatch
  try extract_lets
  repeat' first
    | with_reducible assumption | with_reducible exact ha.sub rfl | with_reducible apply keeps_Dev_setTile
    | with_reducible apply keeps_Dev_dropStrike | with_reducible apply keeps_Dev_calCharge
    | with_reducible apply keeps_Dev_event | with_reducible apply keeps_Dev_metCharge
    | with_reducible apply keeps_Dev_passResolve | intro _ _ _ | extract_lets | split | with_reducible apply inv_foldl
    | dsimp +zetaDelta only

theorem keeps_Dev_strikeMismatch {d0 : Dev} {x1 : Strike} {x2 : Nat} {x3 : Bool} (ha : Q.allows 1099566712985) (h0 : Inv Q d0) : Inv Q (Dev.strikeMismatch d0 x1 x2 x3) := by
  unfold Dev.strikeMismatch
  try extract_lets
  repeat' first
    | with_reducible assumption | with_reducible exact ha.sub rfl | with_reducible apply keeps_Dev_bump
    | with_reducible apply keeps_Dev_event | with_reducible apply keeps_Dev_dropStrike
    | with_reducible apply keeps_Dev_calDiscard | with_reducible apply keeps_Dev_trigger
    | with_reducible apply keeps_Dev_holdStrike | with_reducible apply keeps_Dev_cancelRestrike | split

theorem keeps_strikeRecord {x0 : Nat} {x1 : List Byte} {x2 : Bool} {x3 : Nat} {d4 : Dev} (ha : Q.allows 1099566729725) (h4 : Inv Q d4) : Inv Q (strikeRecord x0 x1 x2 x3 d4) := by
  unfold strikeRecord
  try extract_lets
  repeat' first
    | with_reducible assumption | with_reducible exact ha.sub rfl | with_reducible apply keeps_Dev_after
    | with_reducible apply keeps_Dev_linkErr | with_reducible apply keeps_Dev_setTile
    | with_reducible apply keeps_Dev_takeTelemetry | with_reducible apply keeps_Dev_strikeMatch
    | with_reducible apply keeps_Dev_strikeMismatch | split

theorem keeps_Dev_strikeMissing {d0 : Dev} {x1 : Strike} (ha : Q.allows 1099566712985) (h0 : Inv Q d0) : Inv Q (Dev.strikeMissing d0 x1) := by
  unfold Dev.strikeMissing
  try extract_lets
  repeat' first
    | with_reducible assumption | with_reducible exact ha.sub rfl | with_reducible apply keeps_Dev_bump
    | with_reducible apply keeps_Dev_event | with_reducible apply keeps_Dev_dropStrike
    | with_reducible apply keeps_Dev_calDiscard | with_reducible apply keeps_Dev_holdStrike
    | with_reducible apply keeps_Dev_trigger | split

theorem keeps_Dev_strikeDue {d0 : Dev} {x1 : Strike} (ha : Q.allows 1099566712989) (h0 : Inv Q d0) : Inv Q (Dev.strikeDue d0 x1) := by
  unfold Dev.strikeDue
  try extract_lets
  repeat' first
    | with_reducible assumption | with_reducible exact ha.sub rfl | with_reducible apply keeps_Dev_after
    | with_reducible apply keeps_Dev_strikeMissing | with_reducible apply keeps_Dev_reach

theorem keeps_ackExpectTimeout {x0 : Nat} {d1 : Dev} (ha : Q.allows 1099566712989) (h1 : Inv Q d1) : Inv Q (ackExpectTimeout x0 d1) := by
  unfold ackExpectTimeout
  try extract_lets
  repeat' first
    | with_reducible assumption | with_reducible apply keeps_Dev_strikeDue | split

theorem keeps_Dev_strikeLost {d0 : Dev} {x1 : Strike} (ha : Q.allows 55083257) (h0 : Inv Q d0) : Inv Q (Dev.strikeLost d0 x1) := by
  unfold Dev.strikeLost
  try extract_lets
  repeat' first
    | with_reducible assumption | with_reducible exact ha.sub rfl | with_reducible apply keeps_Dev_ldgStroke
    | with_reducible apply keeps_Dev_flagBeams | with_reducible apply keeps_Dev_updMap
    | with_reducible apply keeps_Dev_dropStrike | with_reducible apply keeps_Dev_event | intro _ _ _ | extract_lets
    | with_reducible apply inv_foldl

theorem keeps_ackLateTimeout {x0 : Nat} {d1 : Dev} (ha : Q.allows 1099566713085) (h1 : Inv Q d1) : Inv Q (ackLateTimeout x0 d1) := by
  unfold ackLateTimeout
  try extract_lets
  repeat' first
    | with_reducible assumption | with_reducible exact ha.sub rfl | with_reducible apply keeps_Dev_strikeDue
    | with_reducible apply keeps_Dev_strikeLost | with_reducible apply keeps_Dev_reach | extract_lets | split
    | dsimp +zetaDelta only

end Sys2Proof.Laws
end

