-- ==== Sys2Proof/Laws/Keeps/HeatCmds.lean ====
section
/-!
SUPPORT. What HeatCmds does keeps the invariant.
-/
namespace Sys2Proof.Laws
open Sys2Proof Sys2Proof.Machine
set_option linter.unusedVariables false
variable {Q : Scope}

theorem keeps_heatParamApply {x0 : Nat} {d1 : Dev} (ha : Q.allows 55084189) (h1 : Inv Q d1) : Inv Q (heatParamApply x0 d1) := by
  unfold heatParamApply
  try extract_lets
  repeat' first
    | with_reducible assumption | with_reducible exact ha.sub rfl | with_reducible apply keeps_Dev_after
    | with_reducible apply keeps_Dev_applyHeat | split

theorem keeps_ftabCommit {x0 : Nat} {x1 : Nat} {d2 : Dev} (ha : Q.allows 55411741) (h2 : Inv Q d2) : Inv Q (ftabCommit x0 x1 d2) := by
  unfold ftabCommit
  try extract_lets
  repeat' first
    | with_reducible assumption | with_reducible exact ha.sub rfl | with_reducible apply keeps_Dev_after
    | with_reducible apply keeps_Dev_ftabCommit | split

theorem keeps_ageSweepVisit {x0 : Nat} {d1 : Dev} (ha : Q.allows 55411741) (h1 : Inv Q d1) : Inv Q (ageSweepVisit x0 d1) := by
  unfold ageSweepVisit
  try extract_lets
  repeat' first
    | with_reducible assumption | with_reducible exact ha.sub rfl | with_reducible exact still_rfl
    | (with_reducible apply Lit.mk <;> first | exact same_may rfl | with_reducible exact same_rfl)
    | with_reducible apply keeps_Dev_after | with_reducible apply keeps_Dev_readSeg
    | with_reducible apply keeps_Dev_writeSeg | extract_lets | split
    | (simp only [↓inv_mk]; with_reducible apply inv_parts ha) | with_reducible refine inv_eq2 (by assumption) ?_
    | dsimp +zetaDelta only

theorem keeps_seamMessage {x0 : Nat} {d1 : Dev} (ha : Q.allows 63800477) (h1 : Inv Q d1) : Inv Q (seamMessage x0 d1) := by
  unfold seamMessage
  try extract_lets
  repeat' first
    | with_reducible assumption | with_reducible exact ha.sub rfl | with_reducible exact still_rfl
    | (with_reducible apply Lit.mk <;> first | exact same_may rfl | with_reducible exact same_rfl)
    | with_reducible apply keeps_Dev_after | with_reducible apply keeps_Dev_takeIn
    | with_reducible apply keeps_Dev_heatActed | with_reducible apply keeps_Dev_seamReplace | extract_lets | split
    | (simp only [↓inv_mk]; with_reducible apply inv_parts ha) | with_reducible refine inv_some2 (by assumption) ?_
    | dsimp +zetaDelta only

theorem keeps_seamMessageDeadline {x0 : Bool} {x1 : Nat} {d2 : Dev} (ha : Q.allows 55084061) (h2 : Inv Q d2) : Inv Q (seamMessageDeadline x0 x1 d2) := by
  unfold seamMessageDeadline
  try extract_lets
  repeat' first
    | with_reducible assumption | with_reducible exact ha.sub rfl | with_reducible exact still_rfl
    | (with_reducible apply Lit.mk <;> first | exact same_may rfl | with_reducible exact same_rfl)
    | with_reducible apply keeps_Dev_after | with_reducible apply keeps_Dev_bump
    | with_reducible apply keeps_Dev_event | extract_lets | split
    | (simp only [↓inv_mk]; with_reducible apply inv_parts ha) | dsimp +zetaDelta only

end Sys2Proof.Laws
end

