-- ==== Sys2Proof/Laws/Keeps/Camera.lean ====
section
/-!
SUPPORT. What Camera does keeps the invariant.
-/
namespace Sys2Proof.Laws
open Sys2Proof Sys2Proof.Machine
set_option linter.unusedVariables false
variable {Q : Scope}

theorem keeps_Dev_setCam {d0 : Dev} {x1 : Nat} {x2 : Camera → Camera} (ha : Q.allows 4096) (h0 : Inv Q d0) : Inv Q (Dev.setCam d0 x1 x2) := by
  unfold Dev.setCam
  try extract_lets
  repeat' first
    | with_reducible assumption | with_reducible exact still_rfl
    | (with_reducible apply Lit.mk <;> first | exact same_may rfl | with_reducible exact same_rfl)
    | (simp only [↓inv_mk]; with_reducible apply inv_parts ha)

theorem keeps_Dev_camUnclose {d0 : Dev} {x1 : Nat} (ha : Q.allows 1) (h0 : Inv Q d0) : Inv Q (Dev.camUnclose d0 x1) := by
  unfold Dev.camUnclose
  try extract_lets
  repeat' first
    | with_reducible assumption | with_reducible apply keeps_Dev_wr | intro _ _ _ | split
    | with_reducible apply inv_foldl

theorem keeps_Dev_camClose {d0 : Dev} {x1 : Nat} (ha : Q.allows 4105) (h0 : Inv Q d0) : Inv Q (Dev.camClose d0 x1) := by
  unfold Dev.camClose
  try extract_lets
  repeat' first
    | with_reducible assumption | with_reducible exact ha.sub rfl | with_reducible apply keeps_Dev_draw
    | with_reducible apply keeps_Dev_bump | with_reducible apply keeps_Dev_bumpBy
    | with_reducible apply keeps_Dev_setCam | extract_lets | split | with_reducible apply inv_snd

theorem keeps_Dev_setFrame {d0 : Dev} {x1 : Nat} {x2 : CamFrame → CamFrame} (ha : Q.allows 4096) (h0 : Inv Q d0) : Inv Q (Dev.setFrame d0 x1 x2) := by
  unfold Dev.setFrame
  try extract_lets
  repeat' first
    | with_reducible assumption | with_reducible apply keeps_Dev_setCam

theorem keeps_mapComplete {x0 : Nat} {x1 : Nat} {d2 : Dev} (ha : Q.allows 37892) (h2 : Inv Q d2) : Inv Q (mapComplete x0 x1 d2) := by
  unfold mapComplete
  try extract_lets
  repeat' first
    | with_reducible assumption | with_reducible exact ha.sub rfl | with_reducible exact still_rfl
    | (with_reducible apply Lit.mk <;> first | exact same_may rfl | with_reducible exact same_rfl)
    | with_reducible apply keeps_Dev_after | with_reducible apply keeps_Dev_setCam | extract_lets | split
    | (simp only [↓inv_mk]; with_reducible apply inv_parts ha)

theorem keeps_Dev_camActivate {d0 : Dev} {x1 : Nat} {x2 : Nat} (ha : Q.allows 55087129) (h0 : Inv Q d0) : Inv Q (Dev.camActivate d0 x1 x2) := by
  unfold Dev.camActivate
  try extract_lets
  repeat' first
    | with_reducible assumption | with_reducible exact ha.sub rfl | with_reducible apply keeps_Dev_wr
    | with_reducible apply keeps_Dev_setCam | with_reducible apply keeps_Dev_event | extract_lets | split

theorem keeps_Dev_camOpen {d0 : Dev} {x1 : Nat} {x2 : Nat} {x3 : Nat} {x4 : CamSet} (ha : Q.allows 4096) (h0 : Inv Q d0) : Inv Q (Dev.camOpen d0 x1 x2 x3 x4) := by
  unfold Dev.camOpen
  try extract_lets
  repeat' first
    | with_reducible assumption | with_reducible apply keeps_Dev_setCam

theorem keeps_Dev_camShort {d0 : Dev} {x1 : Nat} {x2 : Nat} {x3 : CamFrame} (ha : Q.allows 55083033) (h0 : Inv Q d0) : Inv Q (Dev.camShort d0 x1 x2 x3) := by
  unfold Dev.camShort
  try extract_lets
  repeat' first
    | with_reducible assumption | with_reducible apply keeps_Dev_event

theorem keeps_Dev_camSkip {d0 : Dev} {x1 : Nat} {x2 : Nat} {x3 : Nat} (ha : Q.allows 4096) (h0 : Inv Q d0) : Inv Q (Dev.camSkip d0 x1 x2 x3) := by
  unfold Dev.camSkip
  try extract_lets
  repeat' first
    | with_reducible assumption | with_reducible apply keeps_Dev_setCam

theorem keeps_Dev_camLong {d0 : Dev} {x1 : Nat} {x2 : Nat} {x3 : CamFrame} (ha : Q.allows 55083033) (h0 : Inv Q d0) : Inv Q (Dev.camLong d0 x1 x2 x3) := by
  unfold Dev.camLong
  try extract_lets
  repeat' first
    | with_reducible assumption | with_reducible apply keeps_Dev_event | split

theorem keeps_Dev_camBegin {d0 : Dev} {x1 : Nat} {x2 : Nat} {x3 : Nat} (ha : Q.allows 55087129) (h0 : Inv Q d0) : Inv Q (Dev.camBegin d0 x1 x2 x3) := by
  unfold Dev.camBegin
  try extract_lets
  repeat' first
    | with_reducible assumption | with_reducible exact ha.sub rfl | with_reducible apply keeps_Dev_setCam
    | with_reducible apply keeps_Dev_camActivate | with_reducible apply keeps_Dev_camSkip
    | with_reducible apply keeps_Dev_bump | with_reducible apply keeps_Dev_camOpen | split

theorem keeps_Dev_camSecond {d0 : Dev} {x1 : Nat} {x2 : Nat} {x3 : Nat} {x4 : Nat} {x5 : Nat} (ha : Q.allows 55087129) (h0 : Inv Q d0) : Inv Q (Dev.camSecond d0 x1 x2 x3 x4 x5) := by
  unfold Dev.camSecond
  try extract_lets
  repeat' first
    | with_reducible assumption | with_reducible exact ha.sub rfl | with_reducible apply keeps_Dev_camSkip
    | with_reducible apply keeps_Dev_event | with_reducible apply keeps_Dev_bump

theorem keeps_Dev_camYield {d0 : Dev} {x1 : Nat} {x2 : Nat} {x3 : Nat} {x4 : Nat} {x5 : Nat} (ha : Q.allows 55087129) (h0 : Inv Q d0) : Inv Q (Dev.camYield d0 x1 x2 x3 x4 x5) := by
  unfold Dev.camYield
  try extract_lets
  repeat' first
    | with_reducible assumption | with_reducible exact ha.sub rfl | with_reducible apply keeps_Dev_event
    | with_reducible apply keeps_Dev_bump | with_reducible apply keeps_Dev_camBegin
    | with_reducible apply keeps_Dev_setCam

theorem keeps_Dev_camStart {d0 : Dev} {x1 : Nat} {x2 : Nat} {x3 : Nat} (ha : Q.allows 55087129) (h0 : Inv Q d0) : Inv Q (Dev.camStart d0 x1 x2 x3) := by
  unfold Dev.camStart
  try extract_lets
  repeat' first
    | with_reducible assumption | with_reducible exact ha.sub rfl | with_reducible apply keeps_Dev_setCam
    | with_reducible apply keeps_Dev_camShort | with_reducible apply keeps_Dev_camLong
    | with_reducible apply keeps_Dev_camClose | with_reducible apply keeps_Dev_setFrame
    | with_reducible apply keeps_Dev_event | with_reducible apply keeps_Dev_camSkip
    | with_reducible apply keeps_Dev_camYield | with_reducible apply keeps_Dev_camSecond
    | with_reducible apply keeps_Dev_camBegin | intro _ _ _ | extract_lets | split | with_reducible apply inv_foldl
    | dsimp +zetaDelta only

theorem keeps_frameStart {x0 : Nat} {x1 : Nat} {x2 : Nat} {d3 : Dev} (ha : Q.allows 55087133) (h3 : Inv Q d3) : Inv Q (frameStart x0 x1 x2 d3) := by
  unfold frameStart
  try extract_lets
  repeat' first
    | with_reducible assumption | with_reducible exact ha.sub rfl | with_reducible apply keeps_Dev_after
    | with_reducible apply keeps_Dev_camStart | intro _ _ _ | split | with_reducible apply inv_foldl

theorem keeps_Dev_camEnd {d0 : Dev} {x1 : Nat} {x2 : Nat} {x3 : Nat} (ha : Q.allows 55087129) (h0 : Inv Q d0) : Inv Q (Dev.camEnd d0 x1 x2 x3) := by
  unfold Dev.camEnd
  try extract_lets
  repeat' first
    | with_reducible assumption | with_reducible exact ha.sub rfl | with_reducible apply keeps_Dev_setCam
    | with_reducible apply keeps_Dev_bump | with_reducible apply keeps_Dev_camShort
    | with_reducible apply keeps_Dev_camLong | with_reducible apply keeps_Dev_setFrame
    | with_reducible apply keeps_Dev_camClose | extract_lets | split | dsimp +zetaDelta only

theorem keeps_frameEnd {x0 : Nat} {x1 : Nat} {x2 : Nat} {d3 : Dev} (ha : Q.allows 55087133) (h3 : Inv Q d3) : Inv Q (frameEnd x0 x1 x2 d3) := by
  unfold frameEnd
  try extract_lets
  repeat' first
    | with_reducible assumption | with_reducible exact ha.sub rfl | with_reducible apply keeps_Dev_after
    | with_reducible apply keeps_Dev_camEnd | intro _ _ _ | split | with_reducible apply inv_foldl

theorem keeps_Dev_camPair {d0 : Dev} {x1 : Nat} {x2 : Nat} {x3 : Nat} {x4 : Bool} (ha : Q.allows 4097) (h0 : Inv Q d0) : Inv Q (Dev.camPair d0 x1 x2 x3 x4) := by
  unfold Dev.camPair
  try extract_lets
  repeat' first
    | with_reducible assumption | with_reducible exact ha.sub rfl | with_reducible apply keeps_Dev_bump
    | with_reducible apply keeps_Dev_setFrame | extract_lets | split

theorem keeps_lineStart {x0 : Nat} {x1 : Nat} {x2 : Nat} {d3 : Dev} (ha : Q.allows 36869) (h3 : Inv Q d3) : Inv Q (lineStart x0 x1 x2 d3) := by
  unfold lineStart
  try extract_lets
  repeat' first
    | with_reducible assumption | with_reducible exact ha.sub rfl | with_reducible apply keeps_Dev_after
    | with_reducible apply keeps_Dev_camPair | intro _ _ _ | split | with_reducible apply inv_foldl

theorem keeps_lineEnd {x0 : Nat} {x1 : Nat} {x2 : Nat} {d3 : Dev} (ha : Q.allows 36869) (h3 : Inv Q d3) : Inv Q (lineEnd x0 x1 x2 d3) := by
  unfold lineEnd
  try extract_lets
  repeat' first
    | with_reducible assumption | with_reducible exact ha.sub rfl | with_reducible apply keeps_Dev_after
    | with_reducible apply keeps_Dev_camPair | intro _ _ _ | split | with_reducible apply inv_foldl

theorem keeps_Dev_camLine {d0 : Dev} {x1 : Nat} {x2 : Nat} {x3 : CamFrame} {x4 : CsiPacket} (ha : Q.allows 55087129) (h0 : Inv Q d0) : Inv Q (Dev.camLine d0 x1 x2 x3 x4) := by
  unfold Dev.camLine
  try extract_lets
  repeat' first
    | with_reducible assumption | with_reducible exact ha.sub rfl | with_reducible apply keeps_Dev_bump
    | with_reducible apply keeps_Dev_setFrame | with_reducible apply keeps_Dev_draw
    | with_reducible apply keeps_Dev_event | extract_lets | split | with_reducible refine inv_eq2 (by assumption) ?_
    | dsimp +zetaDelta only

theorem keeps_Dev_camPacket {d0 : Dev} {x1 : Nat} {x2 : Nat} {x3 : CsiPacket} (ha : Q.allows 55087129) (h0 : Inv Q d0) : Inv Q (Dev.camPacket d0 x1 x2 x3) := by
  unfold Dev.camPacket
  try extract_lets
  repeat' first
    | with_reducible assumption | with_reducible exact ha.sub rfl | with_reducible apply keeps_Dev_bump
    | with_reducible apply keeps_Dev_setFrame | with_reducible apply keeps_Dev_camLine | split

theorem keeps_csiLongPacket {x0 : Nat} {x1 : CsiPacket} {x2 : Nat} {d3 : Dev} (ha : Q.allows 55087133) (h3 : Inv Q d3) : Inv Q (csiLongPacket x0 x1 x2 d3) := by
  unfold csiLongPacket
  try extract_lets
  repeat' first
    | with_reducible assumption | with_reducible exact ha.sub rfl | with_reducible apply keeps_Dev_after
    | with_reducible apply keeps_Dev_camPacket | intro _ _ _ | split | with_reducible apply inv_foldl

theorem keeps_Dev_pqPush {d0 : Dev} {x1 : Nat} {x2 : Nat} (ha : Q.allows 55087129) (h0 : Inv Q d0) : Inv Q (Dev.pqPush d0 x1 x2) := by
  unfold Dev.pqPush
  try extract_lets
  repeat' first
    | with_reducible assumption | with_reducible exact ha.sub rfl | with_reducible apply keeps_Dev_event
    | with_reducible apply keeps_Dev_setCam | with_reducible apply keeps_Dev_wr | split

theorem keeps_pqPush {x0 : Nat} {x1 : Nat} {x2 : Nat} {d3 : Dev} (ha : Q.allows 55087133) (h3 : Inv Q d3) : Inv Q (pqPush x0 x1 x2 d3) := by
  unfold pqPush
  try extract_lets
  repeat' first
    | with_reducible assumption | with_reducible exact ha.sub rfl | with_reducible apply keeps_Dev_after
    | with_reducible apply keeps_Dev_pqPush | split

theorem keeps_Dev_readSet {d0 : Dev} {x1 : Nat} {x2 : Nat} {x3 : Nat} (ha : Q.allows 55410713) (h0 : Inv Q d0) : Inv2 Q (Dev.readSet d0 x1 x2 x3) := by
  unfold Dev.readSet
  try extract_lets
  repeat' first
    | with_reducible assumption | with_reducible apply keeps_Dev_hbmRead | extract_lets | split
    | with_reducible apply inv2_mk | with_reducible apply inv_snd

theorem keeps_paramStaging {x0 : Nat} {x1 : Nat} {d2 : Dev} (ha : Q.allows 55414813) (h2 : Inv Q d2) : Inv Q (paramStaging x0 x1 d2) := by
  unfold paramStaging
  try extract_lets
  repeat' first
    | with_reducible assumption | with_reducible exact ha.sub rfl | with_reducible apply keeps_Dev_after
    | with_reducible apply keeps_Dev_readSet | with_reducible apply keeps_Dev_setCam
    | with_reducible apply keeps_Dev_event | extract_lets | split | with_reducible refine inv_eq2 (by assumption) ?_

theorem keeps_Dev_camStop {d0 : Dev} {x1 : Nat} {x2 : Nat} (ha : Q.allows 55088153) (h0 : Inv Q d0) : Inv Q (Dev.camStop d0 x1 x2) := by
  unfold Dev.camStop
  try extract_lets
  repeat' first
    | with_reducible assumption | with_reducible exact ha.sub rfl | with_reducible exact still_rfl
    | (with_reducible apply Lit.mk <;> first | exact same_may rfl | with_reducible exact same_rfl)
    | with_reducible apply keeps_Dev_camUnclose | with_reducible apply keeps_Dev_setCam
    | with_reducible apply keeps_Dev_event | extract_lets | split
    | (simp only [↓inv_mk]; with_reducible apply inv_parts ha) | dsimp +zetaDelta only

theorem keeps_cameraTimeout {x0 : Nat} {d1 : Dev} (ha : Q.allows 55088157) (h1 : Inv Q d1) : Inv Q (cameraTimeout x0 d1) := by
  unfold cameraTimeout
  try extract_lets
  repeat' first
    | with_reducible assumption | with_reducible exact ha.sub rfl | with_reducible apply keeps_Dev_camStop
    | with_reducible apply keeps_Dev_reachUp | split

theorem keeps_Dev_camDisable {d0 : Dev} {x1 : Nat} (ha : Q.allows 55088153) (h0 : Inv Q d0) : Inv Q (Dev.camDisable d0 x1) := by
  unfold Dev.camDisable
  try extract_lets
  repeat' first
    | with_reducible assumption | with_reducible exact ha.sub rfl | with_reducible apply keeps_Dev_camStop
    | with_reducible apply keeps_Dev_set | split

theorem keeps_cameraDisable {x0 : Nat} {x1 : Nat} {d2 : Dev} (ha : Q.allows 55088157) (h2 : Inv Q d2) : Inv Q (cameraDisable x0 x1 d2) := by
  unfold cameraDisable
  try extract_lets
  repeat' first
    | with_reducible assumption | with_reducible exact ha.sub rfl | with_reducible apply keeps_Dev_after
    | with_reducible apply keeps_Dev_camDisable | split

theorem keeps_Dev_camEnable {d0 : Dev} {x1 : Nat} (ha : Q.allows 4097) (h0 : Inv Q d0) : Inv Q (Dev.camEnable d0 x1) := by
  unfold Dev.camEnable
  try extract_lets
  repeat' first
    | with_reducible assumption | with_reducible exact ha.sub rfl | with_reducible apply keeps_Dev_setCam
    | with_reducible apply keeps_Dev_set | split

theorem keeps_cameraEnable {x0 : Nat} {x1 : Nat} {d2 : Dev} (ha : Q.allows 36869) (h2 : Inv Q d2) : Inv Q (cameraEnable x0 x1 d2) := by
  unfold cameraEnable
  try extract_lets
  repeat' first
    | with_reducible assumption | with_reducible exact ha.sub rfl | with_reducible apply keeps_Dev_after
    | with_reducible apply keeps_Dev_camEnable | split

theorem keeps_Dev_pnlEvent {d0 : Dev} {x1 : Nat} {x2 : List Byte} (ha : Q.allows 55083033) (h0 : Inv Q d0) : Inv Q (Dev.pnlEvent d0 x1 x2) := by
  unfold Dev.pnlEvent
  try extract_lets
  repeat' first
    | with_reducible assumption | with_reducible exact ha.sub rfl | with_reducible apply keeps_Dev_msix
    | with_reducible apply keeps_Dev_event

theorem keeps_cameraPlug {x0 : Nat} {x1 : Nat} {d2 : Dev} (ha : Q.allows 55087133) (h2 : Inv Q d2) : Inv Q (cameraPlug x0 x1 d2) := by
  unfold cameraPlug
  try extract_lets
  repeat' first
    | with_reducible assumption | with_reducible exact ha.sub rfl | with_reducible apply keeps_Dev_after
    | with_reducible apply keeps_Dev_pnlEvent | with_reducible apply keeps_Dev_setCam | split

theorem keeps_cameraUnplug {x0 : Nat} {x1 : Nat} {d2 : Dev} (ha : Q.allows 55088157) (h2 : Inv Q d2) : Inv Q (cameraUnplug x0 x1 d2) := by
  unfold cameraUnplug
  try extract_lets
  repeat' first
    | with_reducible assumption | with_reducible exact ha.sub rfl | with_reducible apply keeps_Dev_after
    | with_reducible apply keeps_Dev_pnlEvent | with_reducible apply keeps_Dev_setCam
    | with_reducible apply keeps_Dev_set | with_reducible apply keeps_Dev_camStop | intro _ _ _ | split
    | with_reducible apply inv_foldl

theorem keeps_Dev_exportMap {d0 : Dev} {x1 : HMap} {x2 : Bool} (ha : Q.allows 21528601) (h0 : Inv Q d0) : Inv Q (Dev.exportMap d0 x1 x2) := by
  unfold Dev.exportMap
  try extract_lets
  repeat' first
    | with_reducible assumption | with_reducible exact ha.sub rfl | with_reducible apply keeps_Dev_dataPut
    | with_reducible apply keeps_Dev_countSlot | with_reducible apply keeps_Dev_putEntry
    | with_reducible apply keeps_Dev_bump | extract_lets | split

theorem keeps_assimilation {x0 : Nat} {d1 : Dev} (ha : Q.allows 55415965) (h1 : Inv Q d1) : Inv Q (assimilation x0 d1) := by
  unfold assimilation
  try extract_lets
  repeat' first
    | with_reducible assumption | with_reducible exact ha.sub rfl | with_reducible exact still_rfl
    | (with_reducible apply Lit.mk <;> first | exact same_may rfl | with_reducible exact same_rfl)
    | with_reducible apply keeps_Dev_after | with_reducible apply keeps_Dev_assimilate
    | with_reducible apply keeps_Dev_heatActed | with_reducible apply keeps_Dev_setCam
    | with_reducible apply keeps_Dev_exportMap | extract_lets | split
    | (simp only [↓inv_mk]; with_reducible apply inv_parts ha) | with_reducible refine inv_eq2 (by assumption) ?_
    | dsimp +zetaDelta only

end Sys2Proof.Laws
end

