-- ==== Sys2Proof/Laws/Keeps/Hbm.lean ====
section
/-!
SUPPORT. What Hbm does keeps the invariant.
-/
namespace Sys2Proof.Laws
open Sys2Proof Sys2Proof.Machine
set_option linter.unusedVariables false
variable {Q : Scope}

theorem keeps_Dev_setArb {d0 : Dev} {x1 : Nat} {x2 : Arb → Arb} (ha : Q.allows 262144) (h0 : Inv Q d0) : Inv Q (Dev.setArb d0 x1 x2) := by
  unfold Dev.setArb
  try extract_lets
  repeat' first
    | with_reducible assumption | with_reducible exact still_rfl
    | (with_reducible apply Lit.mk <;> first | exact same_may rfl | with_reducible exact same_rfl)
    | (simp only [↓inv_mk]; with_reducible apply inv_parts ha)

theorem keeps_Dev_arbCycle {d0 : Dev} {x1 : List Pend} (ha : Q.allows 17072128) (h0 : Inv Q d0) : Inv2 Q (Dev.arbCycle d0 x1) := by
  unfold Dev.arbCycle
  try extract_lets
  repeat' first
    | with_reducible assumption | with_reducible exact ha.sub rfl | with_reducible exact still_rfl
    | (with_reducible apply Lit.mk <;> first | exact same_may rfl | with_reducible exact same_rfl)
    | with_reducible apply keeps_Dev_pmc | with_reducible apply keeps_Dev_send | intro _ _ _ | extract_lets | split
    | (simp only [↓inv_mk]; with_reducible apply inv_parts ha) | with_reducible apply inv_foldl
    | with_reducible apply inv2_mk | dsimp +zetaDelta only

theorem keeps_Dev_serve {d0 : Dev} {x1 : Pend} (ha : Q.allows 55410713) (h0 : Inv Q d0) : Inv Q (Dev.serve d0 x1) := by
  unfold Dev.serve
  try extract_lets
  repeat' first
    | with_reducible assumption | with_reducible exact ha.sub rfl | with_reducible exact still_rfl
    | (with_reducible apply Lit.mk <;> first | exact same_may rfl | with_reducible exact same_rfl)
    | with_reducible apply keeps_Dev_hbmWrite | with_reducible apply keeps_Dev_hbmRead
    | with_reducible apply keeps_Dev_send | extract_lets | split
    | (simp only [↓inv_mk]; with_reducible apply inv_parts ha) | with_reducible apply inv_snd | dsimp +zetaDelta only

theorem keeps_Dev_serveAll {d0 : Dev} {x1 : Nat} {x2 : List Pend} (ha : Q.allows 55410713) (h0 : Inv Q d0) : Inv Q (Dev.serveAll d0 x1 x2) := by
  induction x1 generalizing d0 x2 with
  | zero =>
    unfold Dev.serveAll
    try extract_lets
    repeat' first
      | with_reducible assumption
  | succ n ih =>
    unfold Dev.serveAll
    try extract_lets
    repeat' first
      | with_reducible assumption | with_reducible apply ih | with_reducible apply keeps_Dev_serve | split

theorem keeps_Dev_forget {d0 : Dev} (ha : Q.allows 262144) (h0 : Inv Q d0) : Inv Q (Dev.forget d0) := by
  unfold Dev.forget
  try extract_lets
  repeat' first
    | with_reducible assumption | with_reducible exact still_rfl
    | (with_reducible apply Lit.mk <;> first | exact same_may rfl | with_reducible exact same_rfl)
    | (simp only [↓inv_mk]; with_reducible apply inv_parts ha)

theorem keeps_hbmRequest {x0 : List HReq} {x1 : Nat} {d2 : Dev} (ha : Q.allows 55410717) (h2 : Inv Q d2) : Inv Q (hbmRequest x0 x1 d2) := by
  unfold hbmRequest
  try extract_lets
  repeat' first
    | with_reducible assumption | with_reducible exact ha.sub rfl | with_reducible apply keeps_Dev_after
    | with_reducible apply keeps_Dev_forget | with_reducible apply keeps_Dev_arbCycle
    | with_reducible apply keeps_Dev_serveAll | extract_lets | split | with_reducible apply inv_snd

theorem keeps_hbmAgePromotion {x0 : Nat} {x1 : Nat} {d2 : Dev} (ha : Q.allows 294917) (h2 : Inv Q d2) : Inv Q (hbmAgePromotion x0 x1 d2) := by
  unfold hbmAgePromotion
  try extract_lets
  repeat' first
    | with_reducible assumption | with_reducible exact ha.sub rfl | with_reducible exact still_rfl
    | (with_reducible apply Lit.mk <;> first | exact same_may rfl | with_reducible exact same_rfl)
    | with_reducible apply keeps_Dev_reachUp | with_reducible apply keeps_Dev_bump
    | with_reducible apply keeps_Dev_setArb | extract_lets | split
    | (simp only [↓inv_mk]; with_reducible apply inv_parts ha) | dsimp +zetaDelta only

theorem keeps_Dev_arbAgain {d0 : Dev} (ha : Q.allows 17072128) (h0 : Inv Q d0) : Inv2 Q (Dev.arbAgain d0) := by
  unfold Dev.arbAgain
  try extract_lets
  repeat' first
    | with_reducible assumption | with_reducible exact ha.sub rfl | with_reducible apply keeps_Dev_forget
    | with_reducible apply keeps_Dev_arbCycle

theorem keeps_arbWithdraw {x0 : Nat} {x1 : Nat} {x2 : Nat} {d3 : Dev} (ha : Q.allows 55410717) (h3 : Inv Q d3) : Inv Q (arbWithdraw x0 x1 x2 d3) := by
  unfold arbWithdraw
  try extract_lets
  repeat' first
    | with_reducible assumption | with_reducible exact ha.sub rfl | with_reducible apply keeps_Dev_after
    | with_reducible apply keeps_Dev_arbAgain | with_reducible apply keeps_Dev_bump
    | with_reducible apply keeps_Dev_serveAll | extract_lets | split
    | with_reducible refine inv_eq2 (by assumption) ?_

theorem keeps_arbCutoff {x0 : Nat} {x1 : Nat} {x2 : Nat} {d3 : Dev} (ha : Q.allows 55410717) (h3 : Inv Q d3) : Inv Q (arbCutoff x0 x1 x2 d3) := by
  unfold arbCutoff
  try extract_lets
  repeat' first
    | with_reducible assumption | with_reducible exact ha.sub rfl | with_reducible apply keeps_Dev_after
    | with_reducible apply keeps_Dev_arbAgain | with_reducible apply keeps_Dev_serveAll
    | with_reducible apply keeps_Dev_wr | with_reducible apply keeps_Dev_bump | with_reducible apply keeps_Dev_event
    | with_reducible apply keeps_Dev_setArb | extract_lets | split | with_reducible refine inv_eq2 (by assumption) ?_

theorem keeps_arbCommit {x0 : Nat} {d1 : Dev} (ha : Q.allows 55345181) (h1 : Inv Q d1) : Inv Q (arbCommit x0 d1) := by
  unfold arbCommit
  try extract_lets
  repeat' first
    | with_reducible assumption | with_reducible exact ha.sub rfl | with_reducible exact still_rfl
    | (with_reducible apply Lit.mk <;> first | exact same_may rfl | with_reducible exact same_rfl)
    | with_reducible apply keeps_Dev_after | with_reducible apply keeps_Dev_set | with_reducible apply keeps_Dev_event
    | intro _ _ _ | extract_lets | split | (simp only [↓inv_mk]; with_reducible apply inv_parts ha)
    | with_reducible apply inv_foldl

theorem scope_foldl {α : Type} {f : List (Nat × HWord) → α → List (Nat × HWord)} {l : List α} {m : List (Nat × HWord)} (h : Q.hbm m)
    (hf : ∀ m x, Q.hbm m → Q.hbm (f m x)) : Q.hbm (l.foldl f m) := by
  induction l generalizing m with
  | nil => exact h
  | cons x l ih => exact ih (hf _ _ h)

theorem scope_remapped {m : List (Nat × HWord)} {o n : Nat} : Q.hbm (remapped m o n) := by
  unfold remapped
  refine scope_foldl Q.hbmNil fun m x hm => ?_
  split
  · exact hm
  · rename_i hd
    exact Q.hbmIns _ _ _ (fun e => hd (congrArg HWord.data e)) hm

theorem keeps_Dev_remapTo {d : Dev} {o : Nat} (ha : Q.allows 327680) (h : Inv Q d) : Inv Q (d.remapTo o) :=
  ⟨h.1, scope_remapped, h.3, { h.4 with hbm := .inl (ha.bit rfl), hbmc := .inl (ha.bit rfl) }⟩

theorem keeps_Dev_hbmCfg {d0 : Dev} {x1 : Nat} (ha : Q.allows 55345177) (h0 : Inv Q d0) : Inv Q (Dev.hbmCfg d0 x1) := by
  unfold Dev.hbmCfg
  try extract_lets
  repeat' first
    | with_reducible assumption | with_reducible exact ha.sub rfl | with_reducible exact still_rfl
    | (with_reducible apply Lit.mk <;> first | exact same_may rfl | with_reducible exact same_rfl)
    | with_reducible apply keeps_Dev_set | with_reducible apply keeps_Dev_event | split
    | (simp only [↓inv_mk]; with_reducible apply inv_parts ha)

theorem keeps_hbmOrderWrite {x0 : Nat} {x1 : Nat} {d2 : Dev} (ha : Q.allows 55345181) (h2 : Inv Q d2) : Inv Q (hbmOrderWrite x0 x1 d2) := by
  unfold hbmOrderWrite
  try extract_lets
  repeat' first
    | with_reducible assumption | with_reducible exact ha.sub rfl | with_reducible apply keeps_Dev_after
    | with_reducible apply keeps_Dev_hbmCfg | split

theorem keeps_hbmRemapDone {x0 : Nat} {d1 : Dev} (ha : Q.allows 55410717) (h1 : Inv Q d1) : Inv Q (hbmRemapDone x0 d1) := by
  unfold hbmRemapDone
  try extract_lets
  repeat' first
    | with_reducible assumption | with_reducible exact ha.sub rfl | with_reducible apply keeps_Dev_after
    | with_reducible apply keeps_Dev_remapTo | with_reducible apply keeps_Dev_event
    | with_reducible apply keeps_Dev_set | split

theorem keeps_Dev_refStat {d0 : Dev} {x1 : Nat} (ha : Q.allows 1) (h0 : Inv Q d0) : Inv Q (Dev.refStat d0 x1) := by
  unfold Dev.refStat
  try extract_lets
  repeat' first
    | with_reducible assumption | with_reducible apply keeps_Dev_set

theorem keeps_Dev_refresh {d0 : Dev} {x1 : Nat} {x2 : Nat} (ha : Q.allows 294912) (h0 : Inv Q d0) : Inv Q (Dev.refresh d0 x1 x2) := by
  unfold Dev.refresh
  try extract_lets
  repeat' first
    | with_reducible assumption | with_reducible exact ha.sub rfl | with_reducible exact still_rfl
    | (with_reducible apply Lit.mk <;> first | exact same_may rfl | with_reducible exact same_rfl)
    | with_reducible apply keeps_Dev_pmc | extract_lets | (simp only [↓inv_mk]; with_reducible apply inv_parts ha)

theorem keeps_Dev_postpone {d0 : Dev} {x1 : Nat} (ha : Q.allows 262145) (h0 : Inv Q d0) : Inv Q (Dev.postpone d0 x1) := by
  unfold Dev.postpone
  try extract_lets
  repeat' first
    | with_reducible assumption | with_reducible exact ha.sub rfl | with_reducible exact still_rfl
    | (with_reducible apply Lit.mk <;> first | exact same_may rfl | with_reducible exact same_rfl)
    | with_reducible apply keeps_Dev_refStat | extract_lets | (simp only [↓inv_mk]; with_reducible apply inv_parts ha)

theorem keeps_hbmRefreshDue {x0 : Nat} {x1 : Nat} {d2 : Dev} (ha : Q.allows 55345181) (h2 : Inv Q d2) : Inv Q (hbmRefreshDue x0 x1 d2) := by
  unfold hbmRefreshDue
  try extract_lets
  repeat' first
    | with_reducible assumption | with_reducible exact ha.sub rfl | with_reducible apply keeps_Dev_after
    | with_reducible apply keeps_Dev_refresh | with_reducible apply keeps_Dev_event
    | with_reducible apply keeps_Dev_bump | with_reducible apply keeps_Dev_postpone
    | with_reducible apply keeps_Dev_refStat | split

theorem keeps_strikeCriticalWindowEnd {d0 : Dev} (ha : Q.allows 294917) (h0 : Inv Q d0) : Inv Q (strikeCriticalWindowEnd d0) := by
  unfold strikeCriticalWindowEnd
  try extract_lets
  repeat' first
    | with_reducible assumption | with_reducible exact ha.sub rfl | with_reducible exact still_rfl
    | (with_reducible apply Lit.mk <;> first | exact same_may rfl | with_reducible exact same_rfl)
    | with_reducible apply keeps_Dev_reach | with_reducible apply keeps_Dev_refresh
    | with_reducible apply keeps_Dev_refStat | intro _ _ _ | extract_lets | split
    | (simp only [↓inv_mk]; with_reducible apply inv_parts ha) | with_reducible apply inv_foldl

theorem keeps_hbmTempCrossing {x0 : Bool} {x1 : Nat} {x2 : Nat} {d3 : Dev} (ha : Q.allows 55083037) (h3 : Inv Q d3) : Inv Q (hbmTempCrossing x0 x1 x2 d3) := by
  unfold hbmTempCrossing
  try extract_lets
  repeat' first
    | with_reducible assumption | with_reducible exact ha.sub rfl | with_reducible apply keeps_Dev_after
    | with_reducible apply keeps_Dev_set | with_reducible apply keeps_Dev_event | split

theorem keeps_Dev_scrubWord {d0 : Dev} {x1 : Nat} (ha : Q.allows 55148569) (h0 : Inv Q d0) : Inv22 Q (Dev.scrubWord d0 x1) := by
  unfold Dev.scrubWord
  try extract_lets
  repeat' first
    | with_reducible assumption | with_reducible exact ha.sub rfl | with_reducible apply keeps_Dev_bump
    | with_reducible apply keeps_Dev_putWord | with_reducible apply keeps_Dev_ceNote
    | with_reducible apply keeps_Dev_ueNote | extract_lets | split | with_reducible apply inv22_mk

theorem keeps_Dev_scrubStat {d0 : Dev} (ha : Q.allows 1) (h0 : Inv Q d0) : Inv Q (Dev.scrubStat d0) := by
  unfold Dev.scrubStat
  try extract_lets
  repeat' first
    | with_reducible assumption | with_reducible apply keeps_Dev_wr | split

theorem inv_foldl22 {α β γ : Type} {f : β × γ × Dev → α → β × γ × Dev} {d : β × γ × Dev} {l : List α} (h : Inv22 Q d)
    (hf : ∀ d x, Inv22 Q d → Inv22 Q (f d x)) : Inv22 Q (l.foldl f d) := by
  induction l generalizing d with
  | nil => exact h
  | cons x l ih => exact ih (hf _ _ h)

theorem keeps_Dev_scrubWords {d : Dev} {wi : Nat} (ha : Q.allows 55148569) (h : Inv Q d) : Inv22 Q (d.scrubWords wi) :=
  inv_foldl22 (inv22_mk h) fun _ _ hx => inv22_mk (inv_snd2 (keeps_Dev_scrubWord (ha.sub rfl) (inv_snd2 hx)))

theorem keeps_Dev_scrubRow {d0 : Dev} {x1 : Nat} (ha : Q.allows 55410713) (h0 : Inv Q d0) : Inv22 Q (Dev.scrubRow d0 x1) := by
  unfold Dev.scrubRow
  try extract_lets
  repeat' first
    | with_reducible assumption | with_reducible exact ha.sub rfl | with_reducible apply keeps_Dev_oor
    | with_reducible apply keeps_Dev_scrubWords | with_reducible apply keeps_Dev_touchRow
    | with_reducible apply keeps_Dev_pmc | split | with_reducible apply inv22_mk

theorem keeps_Dev_putPass {d0 : Dev} {x1 : Option Pass} (ha : Q.allows 262144) (h0 : Inv Q d0) : Inv Q (Dev.putPass d0 x1) := by
  unfold Dev.putPass
  try extract_lets
  repeat' first
    | with_reducible assumption | with_reducible exact still_rfl
    | (with_reducible apply Lit.mk <;> first | exact same_may rfl | with_reducible exact same_rfl)
    | (simp only [↓inv_mk]; with_reducible apply inv_parts ha)

theorem keeps_Dev_passStep {d0 : Dev} {x1 : Pass} (ha : Q.allows 55345177) (h0 : Inv Q d0) : Inv Q (Dev.passStep d0 x1) := by
  unfold Dev.passStep
  try extract_lets
  repeat' first
    | with_reducible assumption | with_reducible exact ha.sub rfl | with_reducible apply keeps_Dev_scrubStat
    | with_reducible apply keeps_Dev_putPass | with_reducible apply keeps_Dev_event
    | with_reducible apply keeps_Dev_wr | split

theorem keeps_Dev_scrubEnd {p : Pass} {k ofs size : Nat} {x : Nat × Nat × Dev} (ha : Q.allows 55345177) (h : Inv22 Q x) :
    Inv Q (Dev.scrubEnd p k ofs size x) := keeps_Dev_passStep (ha.sub rfl) (inv_snd2 h)

theorem keeps_Dev_scrubGranule {d0 : Dev} {x1 : Pass} {x2 : Nat} (ha : Q.allows 55410713) (h0 : Inv Q d0) : Inv Q (Dev.scrubGranule d0 x1 x2) := by
  unfold Dev.scrubGranule
  try extract_lets
  repeat' first
    | with_reducible assumption | with_reducible exact ha.sub rfl | with_reducible apply keeps_Dev_scrubEnd
    | with_reducible apply keeps_Dev_scrubRow

theorem keeps_scrubRead {d0 : Dev} (ha : Q.allows 55410717) (h0 : Inv Q d0) : Inv Q (scrubRead d0) := by
  unfold scrubRead
  try extract_lets
  repeat' first
    | with_reducible assumption | with_reducible exact ha.sub rfl | with_reducible apply keeps_Dev_scrubGranule
    | with_reducible apply keeps_Dev_reachUp | split

end Sys2Proof.Laws
end

