-- ==== Sys2Proof/Laws/Keeps/Host.lean ====
section
/-!
SUPPORT. What Host does keeps the invariant.
-/
namespace Sys2Proof.Laws
open Sys2Proof Sys2Proof.Machine
set_option linter.unusedVariables false
variable {Q : Scope}

theorem keeps_Dev_ringTrace {d0 : Dev} {x1 : Nat} {x2 : List Byte} (ha : Q.allows 16809985) (h0 : Inv Q d0) : Inv Q (Dev.ringTrace d0 x1 x2) := by
  unfold Dev.ringTrace
  try extract_lets
  repeat' first
    | with_reducible assumption | with_reducible apply keeps_Dev_traceOwn | split

theorem keeps_Dev_doorbell {d0 : Dev} {x1 : Nat} {x2 : Nat} (ha : Q.allows 55083033) (h0 : Inv Q d0) : Inv Q (Dev.doorbell d0 x1 x2) := by
  unfold Dev.doorbell
  try extract_lets
  repeat' first
    | with_reducible assumption | with_reducible exact ha.sub rfl | with_reducible apply keeps_Dev_msix
    | with_reducible apply keeps_Dev_event | with_reducible apply keeps_Dev_set
    | with_reducible apply keeps_Dev_ringTrace | with_reducible apply keeps_Dev_wr
    | with_reducible apply keeps_Dev_setRing | with_reducible apply keeps_Dev_flushLost | split

theorem keeps_doorbell {x0 : Nat} {x1 : Nat} {x2 : Nat} {x3 : Nat} {d4 : Dev} (ha : Q.allows 55083037) (h4 : Inv Q d4) : Inv Q (doorbell x0 x1 x2 x3 d4) := by
  unfold doorbell
  try extract_lets
  repeat' first
    | with_reducible assumption | with_reducible exact ha.sub rfl | with_reducible apply keeps_Dev_after
    | with_reducible apply keeps_Dev_doorbell | split

theorem keeps_Dev_relayOut {d0 : Dev} {x1 : Desc} (ha : Q.allows 17184587792) (h0 : Inv Q d0) : Inv Q (Dev.relayOut d0 x1) := by
  unfold Dev.relayOut
  try extract_lets
  repeat' first
    | with_reducible assumption | with_reducible exact ha.sub rfl | with_reducible exact still_rfl
    | (with_reducible apply Lit.mk <;> first | exact same_may rfl | with_reducible exact same_rfl)
    | with_reducible apply keeps_Dev_kSend | extract_lets | (simp only [↓inv_mk]; with_reducible apply inv_parts ha)
    | dsimp +zetaDelta only

theorem keeps_Dev_enqueue {d0 : Dev} {x1 : Desc} (ha : Q.allows 17201397817) (h0 : Inv Q d0) : Inv Q (Dev.enqueue d0 x1) := by
  unfold Dev.enqueue
  try extract_lets
  repeat' first
    | with_reducible assumption | with_reducible exact ha.sub rfl | with_reducible exact still_rfl
    | (with_reducible apply Lit.mk <;> first | exact same_may rfl | with_reducible exact same_rfl)
    | with_reducible apply keeps_Dev_reject | with_reducible apply keeps_Dev_relayOut
    | with_reducible apply keeps_Dev_updPortion | split | (simp only [↓inv_mk]; with_reducible apply inv_parts ha)

theorem keeps_Dev_countOn {d0 : Dev} {x1 : Nat} (ha : Q.allows 17179869201) (h0 : Inv Q d0) : Inv Q (Dev.countOn d0 x1) := by
  unfold Dev.countOn
  try extract_lets
  repeat' first
    | with_reducible assumption | with_reducible exact ha.sub rfl | with_reducible exact still_rfl
    | (with_reducible apply Lit.mk <;> first | exact same_may rfl | with_reducible exact same_rfl)
    | with_reducible apply keeps_Dev_setRing | with_reducible apply keeps_Dev_wr | split
    | (simp only [↓inv_mk]; with_reducible apply inv_parts ha)

theorem keeps_Dev_fetched {d0 : Dev} {x1 : Nat} {x2 : Nat} {x3 : Desc} (ha : Q.allows 17201397817) (h0 : Inv Q d0) : Inv Q (Dev.fetched d0 x1 x2 x3) := by
  unfold Dev.fetched
  try extract_lets
  repeat' first
    | with_reducible assumption | with_reducible exact ha.sub rfl | with_reducible exact still_rfl
    | (with_reducible apply Lit.mk <;> first | exact same_may rfl | with_reducible exact same_rfl)
    | with_reducible apply keeps_Dev_countOn | with_reducible apply keeps_Dev_setRing
    | with_reducible apply keeps_Dev_ringTrace | with_reducible apply keeps_Dev_pmc
    | with_reducible apply keeps_Dev_reject | with_reducible apply keeps_Dev_enqueue | extract_lets | split
    | (simp only [↓inv_mk]; with_reducible apply inv_parts ha) | dsimp +zetaDelta only

theorem keeps_Dev_fetchFailed {d0 : Dev} {x1 : Nat} {x2 : Nat} (ha : Q.allows 55083065) (h0 : Inv Q d0) : Inv Q (Dev.fetchFailed d0 x1 x2) := by
  unfold Dev.fetchFailed
  try extract_lets
  repeat' first
    | with_reducible assumption | with_reducible exact ha.sub rfl | with_reducible apply keeps_Dev_msix
    | with_reducible apply keeps_Dev_event | with_reducible apply keeps_Dev_set
    | with_reducible apply keeps_Dev_malformed | split

theorem keeps_descriptorFetch {x0 : Nat} {x1 : Option (List Byte)} {x2 : Nat} {d3 : Dev} (ha : Q.allows 17234952253) (h3 : Inv Q d3) : Inv Q (descriptorFetch x0 x1 x2 d3) := by
  unfold descriptorFetch
  try extract_lets
  repeat' first
    | with_reducible assumption | with_reducible exact ha.sub rfl | with_reducible apply keeps_Dev_after
    | with_reducible apply keeps_Dev_fetchFailed | with_reducible apply keeps_Dev_fetched | extract_lets | split

theorem keeps_fetchErrClear {x0 : Nat} {x1 : Nat} {d2 : Dev} (ha : Q.allows 32773) (h2 : Inv Q d2) : Inv Q (fetchErrClear x0 x1 d2) := by
  unfold fetchErrClear
  try extract_lets
  repeat' first
    | with_reducible assumption | with_reducible exact ha.sub rfl | with_reducible apply keeps_Dev_after
    | with_reducible apply keeps_Dev_set | split

theorem keeps_Dev_ringFields {d0 : Dev} {x1 : Nat} {x2 : Nat} (ha : Q.allows 1) (h0 : Inv Q d0) : Inv Q (Dev.ringFields d0 x1 x2) := by
  unfold Dev.ringFields
  try extract_lets
  repeat' first
    | with_reducible assumption | with_reducible apply keeps_Dev_set | split

theorem keeps_Dev_ringEnable {d0 : Dev} {x1 : Nat} {x2 : Nat} (ha : Q.allows 17179869201) (h0 : Inv Q d0) : Inv Q (Dev.ringEnable d0 x1 x2) := by
  unfold Dev.ringEnable
  try extract_lets
  repeat' first
    | with_reducible assumption | with_reducible exact ha.sub rfl | with_reducible exact still_rfl
    | (with_reducible apply Lit.mk <;> first | exact same_may rfl | with_reducible exact same_rfl)
    | with_reducible apply keeps_Dev_ringFields | with_reducible apply keeps_Dev_wr
    | with_reducible apply keeps_Dev_set | with_reducible apply keeps_Dev_setRing | extract_lets | split
    | (simp only [↓inv_mk]; with_reducible apply inv_parts ha) | dsimp +zetaDelta only

theorem keeps_ringEnable {x0 : Nat} {x1 : Nat} {x2 : Nat} {d3 : Dev} (ha : Q.allows 17179901973) (h3 : Inv Q d3) : Inv Q (ringEnable x0 x1 x2 d3) := by
  unfold ringEnable
  try extract_lets
  repeat' first
    | with_reducible assumption | with_reducible exact ha.sub rfl | with_reducible apply keeps_Dev_after
    | with_reducible apply keeps_Dev_ringEnable | split

theorem keeps_Dev_retireRing {d0 : Dev} {x1 : Nat} (ha : Q.allows 17201397817) (h0 : Inv Q d0) : Inv Q (Dev.retireRing d0 x1) := by
  unfold Dev.retireRing
  try extract_lets
  repeat' first
    | with_reducible assumption | with_reducible exact ha.sub rfl | with_reducible exact still_rfl
    | (with_reducible apply Lit.mk <;> first | exact same_may rfl | with_reducible exact same_rfl)
    | with_reducible apply keeps_Dev_updPortion | with_reducible apply keeps_Dev_reject | intro _ _ _ | extract_lets
    | split | (simp only [↓inv_mk]; with_reducible apply inv_parts ha) | with_reducible apply inv_foldl
    | with_reducible apply inv2_mk | with_reducible refine inv_eq2 (by assumption) ?_

theorem keeps_Dev_dropEntries {d0 : Dev} {x1 : Nat} (ha : Q.allows 16) (h0 : Inv Q d0) : Inv Q (Dev.dropEntries d0 x1) := by
  unfold Dev.dropEntries
  try extract_lets
  repeat' first
    | with_reducible assumption | with_reducible exact still_rfl
    | (with_reducible apply Lit.mk <;> first | exact same_may rfl | with_reducible exact same_rfl)
    | (simp only [↓inv_mk]; with_reducible apply inv_parts ha)

theorem keeps_Dev_ringDisable {d0 : Dev} {x1 : Nat} {x2 : Nat} (ha : Q.allows 17234952249) (h0 : Inv Q d0) : Inv Q (Dev.ringDisable d0 x1 x2) := by
  unfold Dev.ringDisable
  try extract_lets
  repeat' first
    | with_reducible assumption | with_reducible exact ha.sub rfl | with_reducible apply keeps_Dev_ringFields
    | with_reducible apply keeps_Dev_set | with_reducible apply keeps_Dev_event
    | with_reducible apply keeps_Dev_retireRing | with_reducible apply keeps_Dev_dropEntries
    | with_reducible apply keeps_Dev_bumpBy | split

theorem keeps_ringDisable {x0 : Nat} {x1 : Nat} {x2 : Nat} {d3 : Dev} (ha : Q.allows 17234952253) (h3 : Inv Q d3) : Inv Q (ringDisable x0 x1 x2 d3) := by
  unfold ringDisable
  try extract_lets
  repeat' first
    | with_reducible assumption | with_reducible exact ha.sub rfl | with_reducible apply keeps_Dev_after
    | with_reducible apply keeps_Dev_ringDisable | split

theorem keeps_irqDelayExpiry {x0 : Nat} {d1 : Dev} (ha : Q.allows 16810004) (h1 : Inv Q d1) : Inv Q (irqDelayExpiry x0 d1) := by
  unfold irqDelayExpiry
  try extract_lets
  repeat' first
    | with_reducible assumption | with_reducible exact ha.sub rfl | with_reducible apply keeps_Dev_msix
    | with_reducible apply keeps_Dev_setRing | with_reducible apply keeps_Dev_reachUp | split

theorem keeps_busMasterEnable {x0 : Bool} {x1 : Bool} {x2 : Bool} {x3 : Nat} {d4 : Dev} (ha : Q.allows 68736286740) (h4 : Inv Q d4) : Inv Q (busMasterEnable x0 x1 x2 x3 d4) := by
  unfold busMasterEnable
  try extract_lets
  repeat' first
    | with_reducible assumption | with_reducible exact ha.sub rfl | with_reducible exact still_rfl
    | (with_reducible apply Lit.mk <;> first | exact same_may rfl | with_reducible exact same_rfl)
    | with_reducible apply keeps_Dev_after | with_reducible apply keeps_Dev_sendWaiting
    | with_reducible apply keeps_Dev_msixRelease | intro _ _ _ | extract_lets | split
    | (simp only [↓inv_mk]; with_reducible apply inv_parts ha) | with_reducible apply inv_foldl
    | dsimp +zetaDelta only

theorem keeps_Dev_endSession {d0 : Dev} {x1 : Nat} (ha : Q.allows 1117820323865) (h0 : Inv Q d0) : Inv Q (Dev.endSession d0 x1) := by
  unfold Dev.endSession
  try extract_lets
  repeat' first
    | with_reducible assumption | with_reducible exact ha.sub rfl | with_reducible exact still_rfl
    | (with_reducible apply Lit.mk <;> first | exact same_may rfl | with_reducible exact same_rfl)
    | with_reducible apply keeps_Dev_event | with_reducible apply keeps_Dev_reject
    | with_reducible apply keeps_Dev_trigger | with_reducible apply keeps_Dev_calDropReqs | intro _ _ _ | extract_lets
    | split | (simp only [↓inv_mk]; with_reducible apply inv_parts ha) | with_reducible apply inv_foldl
    | dsimp +zetaDelta only

theorem keeps_sessionOpen {x0 : Nat} {d1 : Dev} (ha : Q.allows 51561136157) (h1 : Inv Q d1) : Inv Q (sessionOpen x0 d1) := by
  unfold sessionOpen
  try extract_lets
  repeat' first
    | with_reducible assumption | with_reducible exact ha.sub rfl | with_reducible exact still_rfl
    | (with_reducible apply Lit.mk <;> first | exact same_may rfl | with_reducible exact same_rfl)
    | with_reducible apply keeps_Dev_cmd0 | with_reducible apply keeps_Dev_after
    | with_reducible apply keeps_Dev_reject | with_reducible apply keeps_Dev_complete
    | with_reducible apply keeps_Dev_draw | intro _ _ _ | extract_lets | split
    | (simp only [↓inv_mk]; with_reducible apply inv_parts ha) | with_reducible apply inv_snd

theorem keeps_Dev_openSession {d0 : Dev} {x1 : Nat} {x2 : Option Nat} (ha : Q.allows 35433480208) (h0 : Inv Q d0) : Inv Q (Dev.openSession d0 x1 x2) := by
  unfold Dev.openSession
  try extract_lets
  repeat' first
    | with_reducible assumption | with_reducible exact still_rfl
    | (with_reducible apply Lit.mk <;> first | exact same_may rfl | with_reducible exact same_rfl)
    | (simp only [↓inv_mk]; with_reducible apply inv_parts ha)

theorem keeps_Dev_authDone {d0 : Dev} {x1 : Desc} (ha : Q.allows 17234952217) (h0 : Inv Q d0) : Inv Q (Dev.authDone d0 x1) := by
  unfold Dev.authDone
  try extract_lets
  repeat' first
    | with_reducible assumption | with_reducible exact ha.sub rfl | with_reducible apply keeps_Dev_endCmd
    | with_reducible apply keeps_Dev_event

theorem keeps_sessionAuth {x0 : Nat} {d1 : Dev} (ha : Q.allows 1152180060189) (h1 : Inv Q d1) : Inv Q (sessionAuth x0 d1) := by
  unfold sessionAuth
  try extract_lets
  repeat' first
    | with_reducible assumption | with_reducible exact ha.sub rfl | with_reducible exact still_rfl
    | (with_reducible apply Lit.mk <;> first | exact same_may rfl | with_reducible exact same_rfl)
    | with_reducible apply keeps_Dev_cmd0 | with_reducible apply keeps_Dev_after
    | with_reducible apply keeps_Dev_complete | with_reducible apply keeps_Dev_openSession
    | with_reducible apply keeps_Dev_trigger | with_reducible apply keeps_Dev_holdCmd
    | with_reducible apply keeps_Dev_authDone | with_reducible apply keeps_Dev_event | intro _ _ _ | extract_lets
    | split | (simp only [↓inv_mk]; with_reducible apply inv_parts ha) | dsimp +zetaDelta only

theorem keeps_sessionClose {x0 : Nat} {d1 : Dev} (ha : Q.allows 1117820323869) (h1 : Inv Q d1) : Inv Q (sessionClose x0 d1) := by
  unfold sessionClose
  try extract_lets
  repeat' first
    | with_reducible assumption | with_reducible exact ha.sub rfl | with_reducible apply keeps_Dev_cmd0
    | with_reducible apply keeps_Dev_after | with_reducible apply keeps_Dev_endSession
    | with_reducible apply keeps_Dev_complete | with_reducible apply keeps_Dev_holdCmd | intro _ _ _ | extract_lets
    | split

theorem keeps_sessionKeepalive {x0 : Nat} {d1 : Dev} (ha : Q.allows 18275139613) (h1 : Inv Q d1) : Inv Q (sessionKeepalive x0 d1) := by
  unfold sessionKeepalive
  try extract_lets
  repeat' first
    | with_reducible assumption | with_reducible exact ha.sub rfl | with_reducible exact still_rfl
    | (with_reducible apply Lit.mk <;> first | exact same_may rfl | with_reducible exact same_rfl)
    | with_reducible apply keeps_Dev_cmd0 | with_reducible apply keeps_Dev_after
    | with_reducible apply keeps_Dev_complete | intro _ _ _ | extract_lets
    | (simp only [↓inv_mk]; with_reducible apply inv_parts ha)

theorem keeps_nop {x0 : Nat} {d1 : Dev} (ha : Q.allows 17201397789) (h1 : Inv Q d1) : Inv Q (nop x0 d1) := by
  unfold nop
  try extract_lets
  repeat' first
    | with_reducible assumption | with_reducible exact ha.sub rfl | with_reducible apply keeps_Dev_cmd0
    | with_reducible apply keeps_Dev_after | with_reducible apply keeps_Dev_complete | intro _ _ _

theorem keeps_sessionTimeout {d0 : Dev} (ha : Q.allows 1117820323869) (h0 : Inv Q d0) : Inv Q (sessionTimeout d0) := by
  unfold sessionTimeout
  try extract_lets
  repeat' first
    | with_reducible assumption | with_reducible exact ha.sub rfl | with_reducible apply keeps_Dev_endSession
    | with_reducible apply keeps_Dev_reachUp | split

theorem keeps_challengeExpiry {d0 : Dev} (ha : Q.allows 34359771156) (h0 : Inv Q d0) : Inv Q (challengeExpiry d0) := by
  unfold challengeExpiry
  try extract_lets
  repeat' first
    | with_reducible assumption | with_reducible exact ha.sub rfl | with_reducible exact still_rfl
    | (with_reducible apply Lit.mk <;> first | exact same_may rfl | with_reducible exact same_rfl)
    | with_reducible apply keeps_Dev_reachUp | extract_lets | split
    | (simp only [↓inv_mk]; with_reducible apply inv_parts ha)

theorem keeps_sessionLockoutEnd {d0 : Dev} (ha : Q.allows 34359771156) (h0 : Inv Q d0) : Inv Q (sessionLockoutEnd d0) := by
  unfold sessionLockoutEnd
  try extract_lets
  repeat' first
    | with_reducible assumption | with_reducible exact ha.sub rfl | with_reducible exact still_rfl
    | (with_reducible apply Lit.mk <;> first | exact same_may rfl | with_reducible exact same_rfl)
    | with_reducible apply keeps_Dev_reachUp | extract_lets | split
    | (simp only [↓inv_mk]; with_reducible apply inv_parts ha)

theorem keeps_relayTimeout {d0 : Dev} (ha : Q.allows 17201397789) (h0 : Inv Q d0) : Inv Q (relayTimeout d0) := by
  unfold relayTimeout
  try extract_lets
  repeat' first
    | with_reducible assumption | with_reducible exact ha.sub rfl | with_reducible exact still_rfl
    | (with_reducible apply Lit.mk <;> first | exact same_may rfl | with_reducible exact same_rfl)
    | with_reducible apply keeps_Dev_reachUp | with_reducible apply keeps_Dev_reject | extract_lets | split
    | (simp only [↓inv_mk]; with_reducible apply inv_parts ha)

theorem keeps_modeSet {x0 : Nat} {d1 : Dev} (ha : Q.allows 1116713025565) (h1 : Inv Q d1) : Inv Q (modeSet x0 d1) := by
  unfold modeSet
  try extract_lets
  repeat' first
    | with_reducible assumption | with_reducible exact ha.sub rfl | with_reducible apply keeps_Dev_cmd0
    | with_reducible apply keeps_Dev_after | with_reducible apply keeps_Dev_trigger
    | with_reducible apply keeps_Dev_holdCmd | with_reducible apply keeps_Dev_reject | intro _ _ _ | extract_lets
    | split

theorem keeps_resume {x0 : Nat} {d1 : Dev} (ha : Q.allows 1116713025565) (h1 : Inv Q d1) : Inv Q (resume x0 d1) := by
  unfold resume
  try extract_lets
  repeat' first
    | with_reducible assumption | with_reducible exact ha.sub rfl | with_reducible apply keeps_Dev_cmd0
    | with_reducible apply keeps_Dev_after | with_reducible apply keeps_Dev_trigger
    | with_reducible apply keeps_Dev_holdCmd | intro _ _ _

theorem keeps_libValidate {x0 : Nat} {d1 : Dev} (ha : Q.allows 17201397821) (h1 : Inv Q d1) : Inv Q (libValidate x0 d1) := by
  unfold libValidate
  try extract_lets
  repeat' first
    | with_reducible assumption | with_reducible exact ha.sub rfl | with_reducible exact still_rfl
    | (with_reducible apply Lit.mk <;> first | exact same_may rfl | with_reducible exact same_rfl)
    | with_reducible apply keeps_Dev_cmd0 | with_reducible apply keeps_Dev_after
    | with_reducible apply keeps_Dev_reject | with_reducible apply keeps_Dev_holdCmd | intro _ _ _ | extract_lets
    | split | (simp only [↓inv_mk]; with_reducible apply inv_parts ha)

end Sys2Proof.Laws
end

