-- ==== Sys2Proof/Laws/Keeps/Krypel.lean ====
section
/-!
SUPPORT. What Krypel does keeps the invariant.
-/
namespace Sys2Proof.Laws
open Sys2Proof Sys2Proof.Machine
set_option linter.unusedVariables false
variable {Q : Scope}

theorem keeps_Dev_setPort {d0 : Dev} {x1 : Nat} {x2 : KPort → KPort} (ha : Q.allows 2199023779840) (h0 : Inv Q d0) : Inv Q (Dev.setPort d0 x1 x2) := by
  unfold Dev.setPort
  try extract_lets
  repeat' first
    | with_reducible assumption | with_reducible exact still_rfl
    | (with_reducible apply Lit.mk <;> first | exact same_may rfl | with_reducible exact same_rfl)
    | (simp only [↓inv_mk]; with_reducible apply inv_parts ha)

theorem keeps_Dev_flitOut {d0 : Dev} {x1 : Nat} {x2 : Nat} (ha : Q.allows 16809984) (h0 : Inv Q d0) : Inv Q (Dev.flitOut d0 x1 x2) := by
  unfold Dev.flitOut
  try extract_lets
  repeat' first
    | with_reducible assumption | with_reducible exact ha.sub rfl | with_reducible apply keeps_Dev_pmc
    | with_reducible apply keeps_Dev_send

theorem keeps_Dev_badFlit {d0 : Dev} {x1 : Nat} (ha : Q.allows 2199023779841) (h0 : Inv Q d0) : Inv Q (Dev.badFlit d0 x1) := by
  unfold Dev.badFlit
  try extract_lets
  repeat' first
    | with_reducible assumption | with_reducible exact ha.sub rfl | with_reducible apply keeps_Dev_setPort
    | with_reducible apply keeps_Dev_bump

theorem keeps_Dev_sendTrain {d0 : Dev} {x1 : Nat} {x2 : Nat} {x3 : Bool} (ha : Q.allows 16809984) (h0 : Inv Q d0) : Inv Q (Dev.sendTrain d0 x1 x2 x3) := by
  unfold Dev.sendTrain
  try extract_lets
  repeat' first
    | with_reducible assumption | with_reducible apply keeps_Dev_flitOut

theorem keeps_Dev_sendHello {d0 : Dev} {x1 : Nat} (ha : Q.allows 16809984) (h0 : Inv Q d0) : Inv Q (Dev.sendHello d0 x1) := by
  unfold Dev.sendHello
  try extract_lets
  repeat' first
    | with_reducible assumption | with_reducible apply keeps_Dev_flitOut

theorem keeps_Dev_sendEnum {d0 : Dev} {x1 : Nat} {x2 : Bool} (ha : Q.allows 16809984) (h0 : Inv Q d0) : Inv Q (Dev.sendEnum d0 x1 x2) := by
  unfold Dev.sendEnum
  try extract_lets
  repeat' first
    | with_reducible assumption | with_reducible apply keeps_Dev_flitOut

theorem keeps_Dev_floodEnum {d0 : Dev} {x1 : Nat} {x2 : Bool} (ha : Q.allows 16809984) (h0 : Inv Q d0) : Inv Q (Dev.floodEnum d0 x1 x2) := by
  unfold Dev.floodEnum
  try extract_lets
  repeat' first
    | with_reducible assumption | with_reducible apply keeps_Dev_sendEnum | intro _ _ _ | extract_lets | split
    | with_reducible apply inv_foldl

theorem keeps_Dev_sendIdle {d0 : Dev} {x1 : Nat} {x2 : Bool} (ha : Q.allows 2199040589824) (h0 : Inv Q d0) : Inv Q (Dev.sendIdle d0 x1 x2) := by
  unfold Dev.sendIdle
  try extract_lets
  repeat' first
    | with_reducible assumption | with_reducible exact ha.sub rfl | with_reducible apply keeps_Dev_setPort
    | with_reducible apply keeps_Dev_flitOut

theorem keeps_Dev_mapTake {d0 : Dev} {x1 : List Byte} (ha : Q.allows 1) (h0 : Inv Q d0) : Inv Q (Dev.mapTake d0 x1) := by
  unfold Dev.mapTake
  try extract_lets
  repeat' first
    | with_reducible assumption | with_reducible apply keeps_Dev_wr | with_reducible apply keeps_Dev_set | split

theorem keeps_Dev_mapReport {d0 : Dev} (ha : Q.allows 2199027974145) (h0 : Inv Q d0) : Inv Q (Dev.mapReport d0) := by
  unfold Dev.mapReport
  try extract_lets
  repeat' first
    | with_reducible assumption | with_reducible exact ha.sub rfl | with_reducible exact still_rfl
    | (with_reducible apply Lit.mk <;> first | exact same_may rfl | with_reducible exact same_rfl)
    | with_reducible apply keeps_Dev_mapTake | with_reducible apply keeps_Dev_kSend | extract_lets | split
    | (simp only [↓inv_mk]; with_reducible apply inv_parts ha)
    | dsimp +zetaDelta only

theorem keeps_Dev_linksChanged {d0 : Dev} (ha : Q.allows 2199029022725) (h0 : Inv Q d0) : Inv Q (Dev.linksChanged d0) := by
  unfold Dev.linksChanged
  try extract_lets
  repeat' first
    | with_reducible assumption | with_reducible exact ha.sub rfl | with_reducible apply keeps_Dev_mapReport
    | with_reducible apply keeps_Dev_timeRole

theorem keeps_Dev_kDiscard {d0 : Dev} {x1 : Nat} {x2 : KFrame} (ha : Q.allows 55083033) (h0 : Inv Q d0) : Inv Q (Dev.kDiscard d0 x1 x2) := by
  unfold Dev.kDiscard
  try extract_lets
  repeat' first
    | with_reducible assumption | with_reducible exact ha.sub rfl | with_reducible apply keeps_Dev_eventLim
    | with_reducible apply keeps_Dev_bump

theorem keeps_Dev_freeBuf {d0 : Dev} {x1 : Nat} {x2 : KFrame} (ha : Q.allows 1) (h0 : Inv Q d0) : Inv Q (Dev.freeBuf d0 x1 x2) := by
  unfold Dev.freeBuf
  try extract_lets
  repeat' first
    | with_reducible assumption | with_reducible apply keeps_Dev_wr

theorem keeps_Dev_kDeliver {d0 : Dev} {x1 : Nat} {x2 : KFrame} (ha : Q.allows 63471641) (h0 : Inv Q d0) : Inv Q (Dev.kDeliver d0 x1 x2) := by
  unfold Dev.kDeliver
  try extract_lets
  repeat' first
    | with_reducible assumption | with_reducible exact ha.sub rfl | with_reducible exact still_rfl
    | (with_reducible apply Lit.mk <;> first | exact same_may rfl | with_reducible exact same_rfl)
    | with_reducible apply keeps_Dev_kDiscard | split
    | (simp only [↓inv_mk]; with_reducible apply inv_parts ha)

theorem keeps_Dev_frameOut {d0 : Dev} {x1 : Nat} {x2 : Nat} {x3 : KFrame} (ha : Q.allows 16809984) (h0 : Inv Q d0) : Inv Q (Dev.frameOut d0 x1 x2 x3) := by
  unfold Dev.frameOut
  try extract_lets
  repeat' first
    | with_reducible assumption | with_reducible exact ha.sub rfl | with_reducible apply keeps_Dev_pmc
    | with_reducible apply keeps_Dev_send

theorem keeps_Dev_kLeaves {d0 : Dev} {x1 : KOut} (ha : Q.allows 4194305) (h0 : Inv Q d0) : Inv Q (Dev.kLeaves d0 x1) := by
  unfold Dev.kLeaves
  try extract_lets
  repeat' first
    | with_reducible assumption | with_reducible exact ha.sub rfl | with_reducible exact still_rfl
    | (with_reducible apply Lit.mk <;> first | exact same_may rfl | with_reducible exact same_rfl)
    | with_reducible apply keeps_Dev_freeBuf | extract_lets | split
    | (simp only [↓inv_mk]; with_reducible apply inv_parts ha)
    | dsimp +zetaDelta only

theorem keeps_Dev_kDropCopies {d0 : Dev} {x1 : Nat} (ha : Q.allows 4194305) (h0 : Inv Q d0) : Inv Q (Dev.kDropCopies d0 x1) := by
  unfold Dev.kDropCopies
  try extract_lets
  repeat' first
    | with_reducible assumption | with_reducible apply keeps_Dev_kLeaves | intro _ _ _
    | with_reducible apply inv_foldl

theorem keeps_Dev_kEmit {d0 : Dev} {x1 : Nat} {x2 : KOut} (ha : Q.allows 2199044784129) (h0 : Inv Q d0) : Inv Q (Dev.kEmit d0 x1 x2) := by
  unfold Dev.kEmit
  try extract_lets
  repeat' first
    | with_reducible assumption | with_reducible exact ha.sub rfl | with_reducible apply keeps_Dev_wr
    | with_reducible apply keeps_Dev_setPort | with_reducible apply keeps_Dev_kLeaves
    | with_reducible apply keeps_Dev_frameOut

theorem keeps_Dev_kPumpPort {d0 : Dev} {x1 : Nat} {x2 : Nat} (ha : Q.allows 2199044784129) (h0 : Inv Q d0) : Inv Q (Dev.kPumpPort d0 x1 x2) := by
  induction x2 generalizing d0 x1 with
  | zero =>
    unfold Dev.kPumpPort
    try extract_lets
    repeat' first
      | with_reducible assumption
  | succ n ih =>
    unfold Dev.kPumpPort
    try extract_lets
    repeat' first
      | with_reducible assumption | with_reducible apply ih | with_reducible apply keeps_Dev_kEmit | split

theorem keeps_Dev_kRouteOwn {d0 : Dev} {x1 : KOut} (ha : Q.allows 63471641) (h0 : Inv Q d0) : Inv Q (Dev.kRouteOwn d0 x1) := by
  unfold Dev.kRouteOwn
  try extract_lets
  repeat' first
    | with_reducible assumption | with_reducible exact ha.sub rfl | with_reducible exact still_rfl
    | (with_reducible apply Lit.mk <;> first | exact same_may rfl | with_reducible exact same_rfl)
    | with_reducible apply keeps_Dev_kDeliver | with_reducible apply keeps_Dev_kDiscard | split
    | (simp only [↓inv_mk]; with_reducible apply inv_parts ha)

theorem keeps_Dev_kPump {d0 : Dev} (ha : Q.allows 2199086727193) (h0 : Inv Q d0) : Inv Q (Dev.kPump d0) := by
  unfold Dev.kPump
  try extract_lets
  repeat' first
    | with_reducible assumption | with_reducible exact ha.sub rfl | with_reducible exact still_rfl
    | (with_reducible apply Lit.mk <;> first | exact same_may rfl | with_reducible exact same_rfl)
    | with_reducible apply keeps_Dev_kRouteOwn | with_reducible apply keeps_Dev_kPumpPort | intro _ _ _ | extract_lets
    | (simp only [↓inv_mk]; with_reducible apply inv_parts ha)
    | with_reducible apply inv_foldl | dsimp +zetaDelta only

theorem keeps_Dev_kStep {d0 : Dev} {x1 : Nat} {x2 : Nat} (ha : Q.allows 2199040589824) (h0 : Inv Q d0) : Inv Q (Dev.kStep d0 x1 x2) := by
  unfold Dev.kStep
  try extract_lets
  repeat' first
    | with_reducible assumption | with_reducible exact ha.sub rfl | with_reducible apply keeps_Dev_setPort
    | with_reducible apply keeps_Dev_sendHello | with_reducible apply keeps_Dev_sendTrain | split

theorem keeps_Dev_kBringup {d0 : Dev} {x1 : Nat} (ha : Q.allows 2199040589824) (h0 : Inv Q d0) : Inv Q (Dev.kBringup d0 x1) := by
  unfold Dev.kBringup
  try extract_lets
  repeat' first
    | with_reducible assumption | with_reducible exact ha.sub rfl | with_reducible apply keeps_Dev_kStep
    | with_reducible apply keeps_Dev_setPort

theorem keeps_Dev_kLive {d0 : Dev} {x1 : Nat} (ha : Q.allows 2199029022725) (h0 : Inv Q d0) : Inv Q (Dev.kLive d0 x1) := by
  unfold Dev.kLive
  try extract_lets
  repeat' first
    | with_reducible assumption | with_reducible exact ha.sub rfl | with_reducible apply keeps_Dev_setPort
    | with_reducible apply keeps_Dev_linksChanged

theorem keeps_Dev_kUp {d0 : Dev} {x1 : Nat} (ha : Q.allows 2199079387165) (h0 : Inv Q d0) : Inv Q (Dev.kUp d0 x1) := by
  unfold Dev.kUp
  try extract_lets
  repeat' first
    | with_reducible assumption | with_reducible exact ha.sub rfl | with_reducible apply keeps_Dev_kLive
    | with_reducible apply keeps_Dev_msix | with_reducible apply keeps_Dev_event
    | with_reducible apply keeps_Dev_frameOut | with_reducible apply keeps_Dev_bump
    | with_reducible apply keeps_Dev_sendEnum | intro _ _ _ | extract_lets | split | with_reducible apply inv_foldl

theorem keeps_Dev_kAdvance {d0 : Dev} {x1 : Nat} {x2 : Nat} (ha : Q.allows 2199079387165) (h0 : Inv Q d0) : Inv Q (Dev.kAdvance d0 x1 x2) := by
  unfold Dev.kAdvance
  try extract_lets
  repeat' first
    | with_reducible assumption | with_reducible exact ha.sub rfl | with_reducible apply keeps_Dev_setPort
    | with_reducible apply keeps_Dev_kStep | with_reducible apply keeps_Dev_kUp | split

theorem keeps_kryPortEnable {x0 : Nat} {x1 : Nat} {d2 : Dev} (ha : Q.allows 2199040589828) (h2 : Inv Q d2) : Inv Q (kryPortEnable x0 x1 d2) := by
  unfold kryPortEnable
  try extract_lets
  repeat' first
    | with_reducible assumption | with_reducible exact ha.sub rfl | with_reducible apply keeps_Dev_after
    | with_reducible apply keeps_Dev_kBringup | split

theorem keeps_Dev_kDropReplay {d0 : Dev} {x1 : Nat} (ha : Q.allows 2199023779841) (h0 : Inv Q d0) : Inv2 Q (Dev.kDropReplay d0 x1) := by
  unfold Dev.kDropReplay
  try extract_lets
  repeat' first
    | with_reducible assumption | with_reducible exact ha.sub rfl | with_reducible apply keeps_Dev_setPort
    | with_reducible apply keeps_Dev_bumpBy | with_reducible apply inv2_mk

theorem keeps_Dev_kRetrain {d0 : Dev} {x1 : Nat} {x2 : Nat} (ha : Q.allows 2199079387165) (h0 : Inv Q d0) : Inv Q (Dev.kRetrain d0 x1 x2) := by
  unfold Dev.kRetrain
  try extract_lets
  repeat' first
    | with_reducible assumption | with_reducible exact ha.sub rfl | with_reducible apply keeps_Dev_setPort
    | with_reducible apply keeps_Dev_bump | with_reducible apply keeps_Dev_set | with_reducible apply keeps_Dev_event
    | with_reducible apply keeps_Dev_linksChanged | with_reducible apply keeps_Dev_kStep | split

theorem keeps_Dev_kryEdge {d0 : Dev} (ha : Q.allows 2199079387165) (h0 : Inv Q d0) : Inv Q (Dev.kryEdge d0) := by
  unfold Dev.kryEdge
  try extract_lets
  repeat' first
    | with_reducible assumption | with_reducible exact ha.sub rfl | with_reducible apply keeps_Dev_setPort
    | with_reducible apply keeps_Dev_linksChanged | with_reducible apply keeps_Dev_kDropCopies
    | with_reducible apply keeps_Dev_kDropReplay | with_reducible apply keeps_Dev_kRetrain | intro _ _ _
    | extract_lets | split | with_reducible apply inv_foldl | with_reducible apply inv_snd

theorem keeps_Dev_kryCtl {d0 : Dev} {x1 : Nat} {x2 : Nat} (ha : Q.allows 2199023779841) (h0 : Inv Q d0) : Inv Q (Dev.kryCtl d0 x1 x2) := by
  unfold Dev.kryCtl
  try extract_lets
  repeat' first
    | with_reducible assumption | with_reducible exact ha.sub rfl | with_reducible apply keeps_Dev_set
    | with_reducible apply keeps_Dev_setPort

theorem keeps_kryPortDisable {x0 : Nat} {x1 : Nat} {x2 : Nat} {d3 : Dev} (ha : Q.allows 2199023812613) (h3 : Inv Q d3) : Inv Q (kryPortDisable x0 x1 x2 d3) := by
  unfold kryPortDisable
  try extract_lets
  repeat' first
    | with_reducible assumption | with_reducible exact ha.sub rfl | with_reducible apply keeps_Dev_after
    | with_reducible apply keeps_Dev_kryCtl | split

theorem keeps_kryRetrain {x0 : Nat} {x1 : Nat} {x2 : Nat} {d3 : Dev} (ha : Q.allows 2199023812613) (h3 : Inv Q d3) : Inv Q (kryRetrain x0 x1 x2 d3) := by
  unfold kryRetrain
  try extract_lets
  repeat' first
    | with_reducible assumption | with_reducible exact ha.sub rfl | with_reducible apply keeps_Dev_after
    | with_reducible apply keeps_Dev_kryCtl | split

theorem keeps_fastRetrain {x0 : Nat} {x1 : Nat} {x2 : Nat} {d3 : Dev} (ha : Q.allows 2199079387165) (h3 : Inv Q d3) : Inv Q (fastRetrain x0 x1 x2 d3) := by
  unfold fastRetrain
  try extract_lets
  repeat' first
    | with_reducible assumption | with_reducible exact ha.sub rfl | with_reducible apply keeps_Dev_after
    | with_reducible apply keeps_Dev_kRetrain | split

theorem keeps_kryIdleTimeout {x0 : Nat} {d1 : Dev} (ha : Q.allows 2199079387165) (h1 : Inv Q d1) : Inv Q (kryIdleTimeout x0 d1) := by
  unfold kryIdleTimeout
  try extract_lets
  repeat' first
    | with_reducible assumption | with_reducible exact ha.sub rfl | with_reducible apply keeps_Dev_kRetrain
    | with_reducible apply keeps_Dev_reachUp | split

theorem keeps_kryBringupStepTimeout {x0 : Nat} {d1 : Dev} (ha : Q.allows 2199079387165) (h1 : Inv Q d1) : Inv Q (kryBringupStepTimeout x0 d1) := by
  unfold kryBringupStepTimeout
  try extract_lets
  repeat' first
    | with_reducible assumption | with_reducible exact ha.sub rfl | with_reducible apply keeps_Dev_reachUp
    | with_reducible apply keeps_Dev_kStep | with_reducible apply keeps_Dev_setPort
    | with_reducible apply keeps_Dev_kBringup | with_reducible apply keeps_Dev_kDropCopies
    | with_reducible apply keeps_Dev_kLive | with_reducible apply keeps_Dev_msix
    | with_reducible apply keeps_Dev_event | extract_lets | split | dsimp +zetaDelta only

theorem keeps_train {x0 : Nat} {x1 : Nat} {x2 : Bool} {x3 : Nat} {d4 : Dev} (ha : Q.allows 2199079387165) (h4 : Inv Q d4) : Inv Q (train x0 x1 x2 x3 d4) := by
  unfold train
  try extract_lets
  repeat' first
    | with_reducible assumption | with_reducible exact ha.sub rfl | with_reducible apply keeps_Dev_after
    | with_reducible apply keeps_Dev_badFlit | with_reducible apply keeps_Dev_sendTrain
    | with_reducible apply keeps_Dev_setPort | with_reducible apply keeps_Dev_kStep
    | with_reducible apply keeps_Dev_kAdvance | extract_lets | split | dsimp +zetaDelta only

theorem keeps_Dev_kQuarantine {d0 : Dev} {x1 : Nat} {x2 : Nat} {x3 : Nat} (ha : Q.allows 2199079387165) (h0 : Inv Q d0) : Inv Q (Dev.kQuarantine d0 x1 x2 x3) := by
  unfold Dev.kQuarantine
  try extract_lets
  repeat' first
    | with_reducible assumption | with_reducible exact ha.sub rfl | with_reducible apply keeps_Dev_setPort
    | with_reducible apply keeps_Dev_linksChanged | with_reducible apply keeps_Dev_msix
    | with_reducible apply keeps_Dev_event

theorem keeps_Dev_kEpoch {d0 : Dev} {x1 : Nat} (ha : Q.allows 2199078338585) (h0 : Inv Q d0) : Inv Q (Dev.kEpoch d0 x1) := by
  unfold Dev.kEpoch
  try extract_lets
  repeat' first
    | with_reducible assumption | with_reducible exact ha.sub rfl | with_reducible exact still_rfl
    | (with_reducible apply Lit.mk <;> first | exact same_may rfl | with_reducible exact same_rfl)
    | with_reducible apply keeps_Dev_kDropReplay | with_reducible apply keeps_Dev_setPort
    | with_reducible apply keeps_Dev_wr | with_reducible apply keeps_Dev_event | intro _ _ _ | extract_lets | split
    | (simp only [↓inv_mk]; with_reducible apply inv_parts ha)
    | with_reducible apply inv_foldl | with_reducible refine inv_eq2 (by assumption) ?_ | dsimp +zetaDelta only

theorem keeps_Dev_helloKnown {d0 : Dev} {x1 : Nat} {x2 : KPort} {x3 : Nat} (ha : Q.allows 2199087775773) (h0 : Inv Q d0) : Inv Q (Dev.helloKnown d0 x1 x2 x3) := by
  unfold Dev.helloKnown
  try extract_lets
  repeat' first
    | with_reducible assumption | with_reducible exact ha.sub rfl | with_reducible apply keeps_Dev_kQuarantine
    | with_reducible apply keeps_Dev_kAdvance | with_reducible apply keeps_Dev_kPump
    | with_reducible apply keeps_Dev_kLive | split

theorem keeps_Dev_helloFrom {d0 : Dev} {x1 : Nat} {x2 : Nat} {x3 : Nat} (ha : Q.allows 2199023779841) (h0 : Inv Q d0) : Inv Q (Dev.helloFrom d0 x1 x2 x3) := by
  unfold Dev.helloFrom
  try extract_lets
  repeat' first
    | with_reducible assumption | with_reducible exact ha.sub rfl | with_reducible apply keeps_Dev_wr
    | with_reducible apply keeps_Dev_setPort

theorem keeps_Dev_helloIn {d0 : Dev} {x1 : Nat} {x2 : Nat} {x3 : Nat} (ha : Q.allows 2199087775773) (h0 : Inv Q d0) : Inv Q (Dev.helloIn d0 x1 x2 x3) := by
  unfold Dev.helloIn
  try extract_lets
  repeat' first
    | with_reducible assumption | with_reducible exact ha.sub rfl | with_reducible apply keeps_Dev_helloFrom
    | with_reducible apply keeps_Dev_kQuarantine | with_reducible apply keeps_Dev_helloKnown
    | with_reducible apply keeps_Dev_kEpoch | extract_lets | split

theorem keeps_hello {x0 : Nat} {x1 : Nat} {x2 : Nat} {d3 : Dev} (ha : Q.allows 2199087775773) (h3 : Inv Q d3) : Inv Q (hello x0 x1 x2 d3) := by
  unfold hello
  try extract_lets
  repeat' first
    | with_reducible assumption | with_reducible exact ha.sub rfl | with_reducible apply keeps_Dev_after
    | with_reducible apply keeps_Dev_badFlit | with_reducible apply keeps_Dev_helloIn | split

theorem keeps_Dev_kReplay {d0 : Dev} {x1 : Nat} (ha : Q.allows 2199079387165) (h0 : Inv Q d0) : Inv Q (Dev.kReplay d0 x1) := by
  unfold Dev.kReplay
  try extract_lets
  repeat' first
    | with_reducible assumption | with_reducible exact ha.sub rfl | with_reducible apply keeps_Dev_frameOut
    | with_reducible apply keeps_Dev_bump | with_reducible apply keeps_Dev_setPort
    | with_reducible apply keeps_Dev_kRetrain | intro _ _ _ | extract_lets | split | with_reducible apply inv_foldl

theorem keeps_idle {x0 : Nat} {x1 : Nat} {x2 : Nat} {d3 : Dev} (ha : Q.allows 2199087775773) (h3 : Inv Q d3) : Inv Q (idle x0 x1 x2 d3) := by
  unfold idle
  try extract_lets
  repeat' first
    | with_reducible assumption | with_reducible exact ha.sub rfl | with_reducible apply keeps_Dev_after
    | with_reducible apply keeps_Dev_badFlit | with_reducible apply keeps_Dev_wr
    | with_reducible apply keeps_Dev_setPort | with_reducible apply keeps_Dev_kPump
    | with_reducible apply keeps_Dev_kReplay | extract_lets | split

theorem keeps_kryAckTimeout {x0 : Nat} {d1 : Dev} (ha : Q.allows 2199079387165) (h1 : Inv Q d1) : Inv Q (kryAckTimeout x0 d1) := by
  unfold kryAckTimeout
  try extract_lets
  repeat' first
    | with_reducible assumption | with_reducible exact ha.sub rfl | with_reducible apply keeps_Dev_kReplay
    | with_reducible apply keeps_Dev_reachUp | split

theorem keeps_Dev_kTake {d0 : Dev} {x1 : Nat} {x2 : KFrame} {x3 : Bool} (ha : Q.allows 63471641) (h0 : Inv Q d0) : Inv Q (Dev.kTake d0 x1 x2 x3) := by
  unfold Dev.kTake
  try extract_lets
  repeat' first
    | with_reducible assumption | with_reducible exact ha.sub rfl | with_reducible exact still_rfl
    | (with_reducible apply Lit.mk <;> first | exact same_may rfl | with_reducible exact same_rfl)
    | with_reducible apply keeps_Dev_kDiscard | with_reducible apply keeps_Dev_freeBuf
    | with_reducible apply keeps_Dev_kDeliver | extract_lets | split
    | (simp only [↓inv_mk]; with_reducible apply inv_parts ha)
    | dsimp +zetaDelta only

theorem keeps_frameForward {x0 : Nat} {x1 : List (BitVec 128)} {x2 : Nat} {d3 : Dev} (ha : Q.allows 2199086727197) (h3 : Inv Q d3) : Inv Q (frameForward x0 x1 x2 d3) := by
  unfold frameForward
  try extract_lets
  repeat' first
    | with_reducible assumption | with_reducible exact ha.sub rfl | with_reducible apply keeps_Dev_after
    | with_reducible apply keeps_Dev_pmc | with_reducible apply keeps_Dev_sendIdle
    | with_reducible apply keeps_Dev_badFlit | with_reducible apply keeps_Dev_setPort
    | with_reducible apply keeps_Dev_kPump | with_reducible apply keeps_Dev_kTake | extract_lets | split

theorem keeps_Dev_dlyNow {d0 : Dev} (ha : Q.allows 524288) (h0 : Inv Q d0) : Inv Q (Dev.dlyNow d0) := by
  unfold Dev.dlyNow
  try extract_lets
  repeat' first
    | with_reducible assumption | with_reducible exact still_rfl
    | (with_reducible apply Lit.mk <;> first | exact same_may rfl | with_reducible exact same_rfl)
    | (simp only [↓inv_mk]; with_reducible apply inv_parts ha)

theorem keeps_dlyPeriod {x0 : Nat} {d1 : Dev} (ha : Q.allows 2199040589828) (h1 : Inv Q d1) : Inv Q (dlyPeriod x0 d1) := by
  unfold dlyPeriod
  try extract_lets
  repeat' first
    | with_reducible assumption | with_reducible exact ha.sub rfl | with_reducible apply keeps_Dev_after
    | with_reducible apply keeps_Dev_dlyNow | with_reducible apply keeps_Dev_reachUp
    | with_reducible apply keeps_Dev_flitOut | with_reducible apply keeps_Dev_setPort | intro _ _ _ | extract_lets
    | split | with_reducible apply inv_foldl

theorem keeps_dly {x0 : Nat} {x1 : Nat} {x2 : Nat} {x3 : Nat} {d4 : Dev} (ha : Q.allows 2199040589829) (h4 : Inv Q d4) : Inv Q (dly x0 x1 x2 x3 d4) := by
  unfold dly
  try extract_lets
  repeat' first
    | with_reducible assumption | with_reducible exact ha.sub rfl | with_reducible apply keeps_Dev_after
    | with_reducible apply keeps_Dev_badFlit | with_reducible apply keeps_Dev_flitOut
    | with_reducible apply keeps_Dev_wr | with_reducible apply keeps_Dev_setPort | split

theorem keeps_kryEyeScanStart {x0 : Nat} {x1 : Nat} {x2 : Nat} {d3 : Dev} (ha : Q.allows 2199023812613) (h3 : Inv Q d3) : Inv Q (kryEyeScanStart x0 x1 x2 d3) := by
  unfold kryEyeScanStart
  try extract_lets
  repeat' first
    | with_reducible assumption | with_reducible exact ha.sub rfl | with_reducible apply keeps_Dev_after
    | with_reducible apply keeps_Dev_set | with_reducible apply keeps_Dev_setPort | split

theorem keeps_kryEyeScanDone {x0 : Nat} {x1 : List Nat} {x2 : Nat} {d3 : Dev} (ha : Q.allows 2199078338589) (h3 : Inv Q d3) : Inv Q (kryEyeScanDone x0 x1 x2 d3) := by
  unfold kryEyeScanDone
  try extract_lets
  repeat' first
    | with_reducible assumption | with_reducible exact ha.sub rfl | with_reducible apply keeps_Dev_after
    | with_reducible apply keeps_Dev_set | with_reducible apply keeps_Dev_setPort | with_reducible apply keeps_Dev_wr
    | with_reducible apply keeps_Dev_event | extract_lets | split

theorem keeps_Dev_clearMap {d0 : Dev} (ha : Q.allows 1) (h0 : Inv Q d0) : Inv Q (Dev.clearMap d0) := by
  unfold Dev.clearMap
  try extract_lets
  repeat' first
    | with_reducible assumption | with_reducible exact still_rfl
    | (with_reducible apply Lit.mk <;> first | exact same_may rfl | with_reducible exact same_rfl)
    | with_reducible apply keeps_Dev_wr
    | (simp only [↓inv_mk]; first | with_reducible apply inv_parts ha | with_reducible apply inv_filter ha)

theorem keeps_Dev_newGen {d0 : Dev} {x1 : Nat} {x2 : Nat} (ha : Q.allows 2199023779841) (h0 : Inv Q d0) : Inv Q (Dev.newGen d0 x1 x2) := by
  unfold Dev.newGen
  try extract_lets
  repeat' first
    | with_reducible assumption | with_reducible exact ha.sub rfl | with_reducible exact still_rfl
    | (with_reducible apply Lit.mk <;> first | exact same_may rfl | with_reducible exact same_rfl)
    | with_reducible apply keeps_Dev_wr | with_reducible apply keeps_Dev_clearMap | extract_lets
    | (simp only [↓inv_mk]; with_reducible apply inv_parts ha)

theorem keeps_Dev_takeId {d0 : Dev} {x1 : Nat} {x2 : Nat} (ha : Q.allows 2199044784129) (h0 : Inv Q d0) : Inv Q (Dev.takeId d0 x1 x2) := by
  unfold Dev.takeId
  try extract_lets
  repeat' first
    | with_reducible assumption | with_reducible exact ha.sub rfl | with_reducible apply keeps_Dev_set
    | with_reducible apply keeps_Dev_mapReport | with_reducible apply keeps_Dev_floodEnum

theorem keeps_Dev_kConflict {d0 : Dev} {x1 : Nat} {x2 : Nat} (ha : Q.allows 2199078338585) (h0 : Inv Q d0) : Inv Q (Dev.kConflict d0 x1 x2) := by
  unfold Dev.kConflict
  try extract_lets
  repeat' first
    | with_reducible assumption | with_reducible exact ha.sub rfl | with_reducible apply keeps_Dev_set
    | with_reducible apply keeps_Dev_mapReport | with_reducible apply keeps_Dev_event

theorem keeps_Dev_kConfirm {d0 : Dev} {x1 : Nat} (ha : Q.allows 2199040589825) (h0 : Inv Q d0) : Inv Q (Dev.kConfirm d0 x1) := by
  unfold Dev.kConfirm
  try extract_lets
  repeat' first
    | with_reducible assumption | with_reducible exact ha.sub rfl | with_reducible exact still_rfl
    | (with_reducible apply Lit.mk <;> first | exact same_may rfl | with_reducible exact same_rfl)
    | with_reducible apply keeps_Dev_set | with_reducible apply keeps_Dev_floodEnum | extract_lets
    | (simp only [↓inv_mk]; with_reducible apply inv_parts ha)

theorem keeps_Dev_enumConfirm {d0 : Dev} {x1 : Nat} {x2 : Nat} {x3 : Nat} (ha : Q.allows 2199086727193) (h0 : Inv Q d0) : Inv Q (Dev.enumConfirm d0 x1 x2 x3) := by
  unfold Dev.enumConfirm
  try extract_lets
  repeat' first
    | with_reducible assumption | with_reducible exact ha.sub rfl | with_reducible apply keeps_Dev_kPump
    | with_reducible apply keeps_Dev_kConfirm | split

theorem keeps_Dev_enumGen {d0 : Dev} {x1 : Nat} {x2 : Nat} (ha : Q.allows 2199023779841) (h0 : Inv Q d0) : Inv Q (Dev.enumGen d0 x1 x2) := by
  unfold Dev.enumGen
  try extract_lets
  repeat' first
    | with_reducible assumption | with_reducible apply keeps_Dev_newGen | split

theorem keeps_Dev_enumOffer {d0 : Dev} {x1 : Nat} {x2 : Nat} {x3 : Nat} {x4 : Option Nat} (ha : Q.allows 2199086727193) (h0 : Inv Q d0) : Inv Q (Dev.enumOffer d0 x1 x2 x3 x4) := by
  unfold Dev.enumOffer
  try extract_lets
  repeat' first
    | with_reducible assumption | with_reducible exact ha.sub rfl | with_reducible apply keeps_Dev_enumGen
    | with_reducible apply keeps_Dev_kPump | with_reducible apply keeps_Dev_kConflict
    | with_reducible apply keeps_Dev_takeId | split

theorem keeps_Dev_enumIn {d0 : Dev} {x1 : Nat} {x2 : Nat} {x3 : Nat} {x4 : Nat} {x5 : Bool} (ha : Q.allows 2199086727193) (h0 : Inv Q d0) : Inv Q (Dev.enumIn d0 x1 x2 x3 x4 x5) := by
  unfold Dev.enumIn
  try extract_lets
  repeat' first
    | with_reducible assumption | with_reducible exact ha.sub rfl | with_reducible apply keeps_Dev_setPort
    | with_reducible apply keeps_Dev_enumConfirm | with_reducible apply keeps_Dev_kPump
    | with_reducible apply keeps_Dev_kConflict | with_reducible apply keeps_Dev_enumOffer | split

theorem keeps_enum_ {x0 : Nat} {x1 : Nat} {x2 : Nat} {d3 : Dev} (ha : Q.allows 2199086727197) (h3 : Inv Q d3) : Inv Q (enum_ x0 x1 x2 d3) := by
  unfold enum_
  try extract_lets
  repeat' first
    | with_reducible assumption | with_reducible exact ha.sub rfl | with_reducible apply keeps_Dev_after
    | with_reducible apply keeps_Dev_badFlit | with_reducible apply keeps_Dev_enumIn | split

theorem keeps_rootEnumStart {x0 : Nat} {d1 : Dev} (ha : Q.allows 2199086727197) (h1 : Inv Q d1) : Inv Q (rootEnumStart x0 d1) := by
  unfold rootEnumStart
  try extract_lets
  repeat' first
    | with_reducible assumption | with_reducible exact ha.sub rfl | with_reducible apply keeps_Dev_after
    | with_reducible apply keeps_Dev_kPump | with_reducible apply keeps_Dev_takeId
    | with_reducible apply keeps_Dev_newGen | split

theorem keeps_Dev_mapIn {d0 : Dev} {x1 : KIn} (ha : Q.allows 1) (h0 : Inv Q d0) : Inv Q (Dev.mapIn d0 x1) := by
  unfold Dev.mapIn
  try extract_lets
  repeat' first
    | with_reducible assumption | with_reducible apply keeps_Dev_mapTake | split

theorem keeps_mapReport {x0 : Nat} {d1 : Dev} (ha : Q.allows 8421381) (h1 : Inv Q d1) : Inv Q (mapReport x0 d1) := by
  unfold mapReport
  try extract_lets
  repeat' first
    | with_reducible assumption | with_reducible exact ha.sub rfl | with_reducible apply keeps_Dev_takeIn
    | with_reducible apply keeps_Dev_after | with_reducible apply keeps_Dev_mapIn | extract_lets | split
    | with_reducible refine inv_some2 (by assumption) ?_

theorem keeps_Dev_mapAll {d0 : Dev} {x1 : Nat} (ha : Q.allows 8388609) (h0 : Inv Q d0) : Inv Q (Dev.mapAll d0 x1) := by
  induction x1 generalizing d0 with
  | zero =>
    unfold Dev.mapAll
    try extract_lets
    repeat' first
      | with_reducible assumption
  | succ n ih =>
    unfold Dev.mapAll
    try extract_lets
    repeat' first
      | with_reducible assumption | with_reducible apply ih | with_reducible exact ha.sub rfl
      | with_reducible apply keeps_Dev_takeIn | with_reducible apply keeps_Dev_mapIn | extract_lets | split
      | with_reducible refine inv_some2 (by assumption) ?_

theorem keeps_kryConfirm {x0 : Nat} {x1 : Nat} {d2 : Dev} (ha : Q.allows 2199086727197) (h2 : Inv Q d2) : Inv Q (kryConfirm x0 x1 d2) := by
  unfold kryConfirm
  try extract_lets
  repeat' first
    | with_reducible assumption | with_reducible exact ha.sub rfl | with_reducible apply keeps_Dev_after
    | with_reducible apply keeps_Dev_mapAll | with_reducible apply keeps_Dev_set
    | with_reducible apply keeps_Dev_kPump | with_reducible apply keeps_Dev_event
    | with_reducible apply keeps_Dev_kConfirm | split

theorem keeps_kryReenum {x0 : Nat} {x1 : Nat} {d2 : Dev} (ha : Q.allows 2199086727197) (h2 : Inv Q d2) : Inv Q (kryReenum x0 x1 d2) := by
  unfold kryReenum
  try extract_lets
  repeat' first
    | with_reducible assumption | with_reducible exact ha.sub rfl | with_reducible apply keeps_Dev_after
    | with_reducible apply keeps_Dev_set | with_reducible apply keeps_Dev_kPump
    | with_reducible apply keeps_Dev_takeId | with_reducible apply keeps_Dev_newGen | split

theorem keeps_kryRouteCommit {x0 : Nat} {d1 : Dev} (ha : Q.allows 2199023812612) (h1 : Inv Q d1) : Inv Q (kryRouteCommit x0 d1) := by
  unfold kryRouteCommit
  try extract_lets
  repeat' first
    | with_reducible assumption | with_reducible exact ha.sub rfl | with_reducible exact still_rfl
    | (with_reducible apply Lit.mk <;> first | exact same_may rfl | with_reducible exact same_rfl)
    | with_reducible apply keeps_Dev_after | split
    | (simp only [↓inv_mk]; with_reducible apply inv_parts ha)

theorem keeps_relayCmd {x0 : Nat} {d1 : Dev} (ha : Q.allows 2216266596381) (h1 : Inv Q d1) : Inv Q (relayCmd x0 d1) := by
  unfold relayCmd
  try extract_lets
  repeat' first
    | with_reducible assumption | with_reducible exact ha.sub rfl | with_reducible exact still_rfl
    | (with_reducible apply Lit.mk <;> first | exact same_may rfl | with_reducible exact same_rfl)
    | with_reducible apply keeps_Dev_takeIn | with_reducible apply keeps_Dev_after
    | with_reducible apply keeps_Dev_kPump | with_reducible apply keeps_Dev_complete | extract_lets | split
    | (simp only [↓inv_mk]; with_reducible apply inv_parts ha)
    | with_reducible refine inv_some2 (by assumption) ?_

theorem keeps_relayCpl {x0 : Nat} {d1 : Dev} (ha : Q.allows 17243340829) (h1 : Inv Q d1) : Inv Q (relayCpl x0 d1) := by
  unfold relayCpl
  try extract_lets
  repeat' first
    | with_reducible assumption | with_reducible exact ha.sub rfl | with_reducible exact still_rfl
    | (with_reducible apply Lit.mk <;> first | exact same_may rfl | with_reducible exact same_rfl)
    | with_reducible apply keeps_Dev_takeIn | with_reducible apply keeps_Dev_after
    | with_reducible apply keeps_Dev_kDiscard | with_reducible apply keeps_Dev_setRing
    | with_reducible apply keeps_Dev_putEntry | extract_lets | split
    | (simp only [↓inv_mk]; with_reducible apply inv_parts ha)
    | with_reducible refine inv_some2 (by assumption) ?_ | dsimp +zetaDelta only

theorem keeps_relayedEvent {x0 : Nat} {d1 : Dev} (ha : Q.allows 63471645) (h1 : Inv Q d1) : Inv Q (relayedEvent x0 d1) := by
  unfold relayedEvent
  try extract_lets
  repeat' first
    | with_reducible assumption | with_reducible exact ha.sub rfl | with_reducible apply keeps_Dev_takeIn
    | with_reducible apply keeps_Dev_after | with_reducible apply keeps_Dev_flushLost
    | with_reducible apply keeps_Dev_putEntry | with_reducible apply keeps_Dev_setRing
    | with_reducible apply keeps_Dev_bump | extract_lets | split | with_reducible refine inv_some2 (by assumption) ?_

theorem keeps_relayedTelemetry {x0 : Nat} {d1 : Dev} (ha : Q.allows 29917205) (h1 : Inv Q d1) : Inv Q (relayedTelemetry x0 d1) := by
  unfold relayedTelemetry
  try extract_lets
  repeat' first
    | with_reducible assumption | with_reducible exact ha.sub rfl | with_reducible apply keeps_Dev_takeIn
    | with_reducible apply keeps_Dev_after | with_reducible apply keeps_Dev_putOrLose | extract_lets | split
    | with_reducible refine inv_some2 (by assumption) ?_

end Sys2Proof.Laws
end

