-- ==== Sys2Proof/Laws/Keeps/Time.lean ====
section
/-!
SUPPORT. What Time does keeps the invariant.
-/
namespace Sys2Proof.Laws
open Sys2Proof Sys2Proof.Machine
set_option linter.unusedVariables false
variable {Q : Scope}

theorem keeps_Dev_refWritten {d0 : Dev} (ha : Q.allows 56131613) (h0 : Inv Q d0) : Inv Q (Dev.refWritten d0) := by
  unfold Dev.refWritten
  try extract_lets
  repeat' first
    | with_reducible assumption | with_reducible exact ha.sub rfl | with_reducible apply keeps_Dev_setTim
    | with_reducible apply keeps_Dev_setRate | with_reducible apply keeps_Dev_event | split

theorem keeps_timeRateWrite {x0 : Nat} {x1 : Nat} {d2 : Dev} (ha : Q.allows 56131613) (h2 : Inv Q d2) : Inv Q (timeRateWrite x0 x1 d2) := by
  unfold timeRateWrite
  try extract_lets
  repeat' first
    | with_reducible assumption | with_reducible exact ha.sub rfl | with_reducible apply keeps_Dev_after
    | with_reducible apply keeps_Dev_refWritten | with_reducible apply keeps_Dev_setTim | split

theorem keeps_timeSlewWrite {x0 : Nat} {x1 : Nat} {d2 : Dev} (ha : Q.allows 56131613) (h2 : Inv Q d2) : Inv Q (timeSlewWrite x0 x1 d2) := by
  unfold timeSlewWrite
  try extract_lets
  repeat' first
    | with_reducible assumption | with_reducible exact ha.sub rfl | with_reducible apply keeps_Dev_after
    | with_reducible apply keeps_Dev_refWritten | with_reducible apply keeps_Dev_setTim | split

theorem keeps_slewComplete {d0 : Dev} (ha : Q.allows 1081348) (h0 : Inv Q d0) : Inv Q (slewComplete d0) := by
  unfold slewComplete
  try extract_lets
  repeat' first
    | with_reducible assumption | with_reducible exact ha.sub rfl | with_reducible apply keeps_Dev_setTim
    | with_reducible apply keeps_Dev_reachUp | with_reducible apply keeps_Dev_setRate | split

theorem keeps_Dev_enterHoldover {d0 : Dev} {x1 : Nat} (ha : Q.allows 56131609) (h0 : Inv Q d0) : Inv Q (Dev.enterHoldover d0 x1) := by
  unfold Dev.enterHoldover
  try extract_lets
  repeat' first
    | with_reducible assumption | with_reducible exact ha.sub rfl | with_reducible apply keeps_Dev_event
    | with_reducible apply keeps_Dev_setTim | split

theorem keeps_holdoverEnter {x0 : Nat} {x1 : Nat} {d2 : Dev} (ha : Q.allows 56131613) (h2 : Inv Q d2) : Inv Q (holdoverEnter x0 x1 d2) := by
  unfold holdoverEnter
  try extract_lets
  repeat' first
    | with_reducible assumption | with_reducible exact ha.sub rfl | with_reducible apply keeps_Dev_after
    | with_reducible apply keeps_Dev_enterHoldover | with_reducible apply keeps_Dev_set | split

theorem keeps_holdoverTimeout {d0 : Dev} (ha : Q.allows 56131613) (h0 : Inv Q d0) : Inv Q (holdoverTimeout d0) := by
  unfold holdoverTimeout
  try extract_lets
  repeat' first
    | with_reducible assumption | with_reducible exact ha.sub rfl | with_reducible apply keeps_Dev_enterHoldover
    | with_reducible apply keeps_Dev_reachUp | split

theorem keeps_timeStepArm {x0 : Nat} {x1 : Nat} {d2 : Dev} (ha : Q.allows 1081349) (h2 : Inv Q d2) : Inv Q (timeStepArm x0 x1 d2) := by
  unfold timeStepArm
  try extract_lets
  repeat' first
    | with_reducible assumption | with_reducible exact ha.sub rfl | with_reducible apply keeps_Dev_after
    | with_reducible apply keeps_Dev_wr | with_reducible apply keeps_Dev_setTim | split

theorem keeps_Dev_timeEdge {d0 : Dev} (ha : Q.allows 56131613) (h0 : Inv Q d0) : Inv Q (Dev.timeEdge d0) := by
  unfold Dev.timeEdge
  try extract_lets
  repeat' first
    | with_reducible assumption | with_reducible exact ha.sub rfl | with_reducible exact still_rfl
    | (with_reducible apply Lit.mk <;> first | exact same_may rfl | with_reducible exact same_rfl)
    | with_reducible apply keeps_Dev_setTim | with_reducible apply keeps_Dev_event | extract_lets | split
    | (simp only [↓inv_mk]; with_reducible apply inv_parts ha) | dsimp +zetaDelta only

theorem keeps_timeMessageSend {d0 : Dev} (ha : Q.allows 2199087775773) (h0 : Inv Q d0) : Inv Q (timeMessageSend d0) := by
  unfold timeMessageSend
  try extract_lets
  repeat' first
    | with_reducible assumption | with_reducible exact ha.sub rfl | with_reducible apply keeps_Dev_reachUp
    | with_reducible apply keeps_Dev_setTim | with_reducible apply keeps_Dev_kPump
    | with_reducible apply keeps_Dev_kSend | extract_lets | split | dsimp +zetaDelta only

theorem keeps_Dev_loseLock {d0 : Dev} {x1 : Int} {x2 : Nat} {x3 : Nat} (ha : Q.allows 56131609) (h0 : Inv Q d0) : Inv Q (Dev.loseLock d0 x1 x2 x3) := by
  unfold Dev.loseLock
  try extract_lets
  repeat' first
    | with_reducible assumption | with_reducible exact ha.sub rfl | with_reducible apply keeps_Dev_setTim
    | with_reducible apply keeps_Dev_event | split

theorem keeps_Dev_lockStep {d0 : Dev} {x1 : Int} {x2 : Nat} (ha : Q.allows 56131609) (h0 : Inv Q d0) : Inv Q (Dev.lockStep d0 x1 x2) := by
  unfold Dev.lockStep
  try extract_lets
  repeat' first
    | with_reducible assumption | with_reducible exact ha.sub rfl | with_reducible apply keeps_Dev_loseLock
    | with_reducible apply keeps_Dev_setTim | with_reducible apply keeps_Dev_event | split

theorem keeps_Dev_servo {d0 : Dev} {x1 : Nat} {x2 : Nat} {x3 : List Byte} (ha : Q.allows 56131613) (h0 : Inv Q d0) : Inv Q (Dev.servo d0 x1 x2 x3) := by
  unfold Dev.servo
  try extract_lets
  repeat' first
    | with_reducible assumption | with_reducible exact ha.sub rfl | with_reducible apply keeps_Dev_wr
    | with_reducible apply keeps_Dev_setTim | with_reducible apply keeps_Dev_loseLock
    | with_reducible apply keeps_Dev_setRate | with_reducible apply keeps_Dev_lockStep | split

theorem keeps_timeMessage {x0 : Nat} {d1 : Dev} (ha : Q.allows 64520221) (h1 : Inv Q d1) : Inv Q (timeMessage x0 d1) := by
  unfold timeMessage
  try extract_lets
  repeat' first
    | with_reducible assumption | with_reducible exact ha.sub rfl | with_reducible apply keeps_Dev_takeIn
    | with_reducible apply keeps_Dev_after | with_reducible apply keeps_Dev_servo | extract_lets | split
    | with_reducible refine inv_some2 (by assumption) ?_

theorem keeps_servoIntervalExpiry {d0 : Dev} (ha : Q.allows 56131613) (h0 : Inv Q d0) : Inv Q (servoIntervalExpiry d0) := by
  unfold servoIntervalExpiry
  try extract_lets
  repeat' first
    | with_reducible assumption | with_reducible exact ha.sub rfl | with_reducible apply keeps_Dev_setTim
    | with_reducible apply keeps_Dev_reachUp | with_reducible apply keeps_Dev_setRate
    | with_reducible apply keeps_Dev_loseLock | split

theorem keeps_Dev_setTx {d0 : Dev} {x1 : Nat} {x2 : TxSlot → TxSlot} (ha : Q.allows 1048576) (h0 : Inv Q d0) : Inv Q (Dev.setTx d0 x1 x2) := by
  unfold Dev.setTx
  try extract_lets
  repeat' first
    | with_reducible assumption | with_reducible apply keeps_Dev_setTim

theorem keeps_Dev_putTs {d0 : Dev} {x1 : TxTs} (ha : Q.allows 56131609) (h0 : Inv Q d0) : Inv Q (Dev.putTs d0 x1) := by
  unfold Dev.putTs
  try extract_lets
  repeat' first
    | with_reducible assumption | with_reducible exact ha.sub rfl | with_reducible apply keeps_Dev_event
    | with_reducible apply keeps_Dev_bump | with_reducible apply keeps_Dev_setTim
    | with_reducible apply keeps_Dev_msix | split

theorem keeps_Dev_ethSend {d0 : Dev} {x1 : Nat} {x2 : Bool} (ha : Q.allows 56131609) (h0 : Inv Q d0) : Inv Q (Dev.ethSend d0 x1 x2) := by
  unfold Dev.ethSend
  try extract_lets
  repeat' first
    | with_reducible assumption | with_reducible exact ha.sub rfl | with_reducible apply keeps_Dev_send
    | with_reducible apply keeps_Dev_setTx | with_reducible apply keeps_Dev_set | with_reducible apply keeps_Dev_putTs
    | split

theorem keeps_ethTxGo {x0 : Nat} {x1 : Nat} {x2 : Nat} {d3 : Dev} (ha : Q.allows 56131613) (h3 : Inv Q d3) : Inv Q (ethTxGo x0 x1 x2 d3) := by
  unfold ethTxGo
  try extract_lets
  repeat' first
    | with_reducible assumption | with_reducible exact ha.sub rfl | with_reducible apply keeps_Dev_after
    | with_reducible apply keeps_Dev_wr | with_reducible apply keeps_Dev_ethSend
    | with_reducible apply keeps_Dev_event | with_reducible apply keeps_Dev_bumpF
    | with_reducible apply keeps_Dev_setTx | with_reducible apply keeps_Dev_set
    | with_reducible apply keeps_Dev_setTim | split

theorem keeps_ethLaunch {x0 : Nat} {d1 : Dev} (ha : Q.allows 56131613) (h1 : Inv Q d1) : Inv Q (ethLaunch x0 d1) := by
  unfold ethLaunch
  try extract_lets
  repeat' first
    | with_reducible assumption | with_reducible exact ha.sub rfl | with_reducible apply keeps_Dev_ethSend
    | with_reducible apply keeps_Dev_reach | split

theorem keeps_Dev_answer {d0 : Dev} {x1 : Nat} {x2 : Nat} (ha : Q.allows 16777216) (h0 : Inv Q d0) : Inv Q (Dev.answer d0 x1 x2) := by
  unfold Dev.answer
  try extract_lets
  repeat' first
    | with_reducible assumption | with_reducible apply keeps_Dev_send

theorem keeps_Dev_txqTake {d0 : Dev} (ha : Q.allows 1048577) (h0 : Inv Q d0) : Inv2 Q (Dev.txqTake d0) := by
  unfold Dev.txqTake
  try extract_lets
  repeat' first
    | with_reducible assumption | with_reducible exact ha.sub rfl | with_reducible apply keeps_Dev_wr
    | with_reducible apply keeps_Dev_setTim | extract_lets | split | with_reducible apply inv2_mk

theorem keeps_txqPop {x0 : Nat} {d1 : Dev} (ha : Q.allows 17858565) (h1 : Inv Q d1) : Inv Q (txqPop x0 d1) := by
  unfold txqPop
  try extract_lets
  repeat' first
    | with_reducible assumption | with_reducible exact ha.sub rfl | with_reducible apply keeps_Dev_after
    | with_reducible apply keeps_Dev_txqTake | with_reducible apply keeps_Dev_answer | extract_lets | split
    | with_reducible apply inv_snd

theorem keeps_ptpFrameReceive {x0 : List Byte} {x1 : Nat} {d2 : Dev} (ha : Q.allows 56131613) (h2 : Inv Q d2) : Inv Q (ptpFrameReceive x0 x1 d2) := by
  unfold ptpFrameReceive
  try extract_lets
  repeat' first
    | with_reducible assumption | with_reducible exact ha.sub rfl | with_reducible apply keeps_Dev_after
    | with_reducible apply keeps_Dev_bumpF | with_reducible apply keeps_Dev_setTim | with_reducible apply keeps_Dev_wr
    | with_reducible apply keeps_Dev_event | extract_lets | split

theorem keeps_Dev_rxFree {d0 : Dev} {x1 : Nat} (ha : Q.allows 1048577) (h0 : Inv Q d0) : Inv Q (Dev.rxFree d0 x1) := by
  unfold Dev.rxFree
  try extract_lets
  repeat' first
    | with_reducible assumption | with_reducible exact ha.sub rfl | with_reducible apply keeps_Dev_set
    | with_reducible apply keeps_Dev_setTim

theorem keeps_rxSlotFree {x0 : Nat} {x1 : Nat} {d2 : Dev} (ha : Q.allows 1081349) (h2 : Inv Q d2) : Inv Q (rxSlotFree x0 x1 d2) := by
  unfold rxSlotFree
  try extract_lets
  repeat' first
    | with_reducible assumption | with_reducible exact ha.sub rfl | with_reducible apply keeps_Dev_after
    | with_reducible apply keeps_Dev_rxFree | split

end Sys2Proof.Laws
end

