-- ==== Sys2Proof/Laws/Keeps/Panel.lean ====
section
/-!
SUPPORT. What Panel does keeps the invariant.
-/
namespace Sys2Proof.Laws
open Sys2Proof Sys2Proof.Machine
set_option linter.unusedVariables false
variable {Q : Scope}

theorem keeps_Dev_keyDo {d0 : Dev} {x1 : Nat} {x2 : Nat} (ha : Q.allows 1099566727193) (h0 : Inv Q d0) : Inv Q (Dev.keyDo d0 x1 x2) := by
  unfold Dev.keyDo
  try extract_lets
  repeat' first
    | with_reducible assumption | with_reducible exact ha.sub rfl | with_reducible exact still_rfl
    | (with_reducible apply Lit.mk <;> first | exact same_may rfl | with_reducible exact same_rfl)
    | with_reducible apply keeps_Dev_trigger | with_reducible apply keeps_Dev_pnlEvent | split
    | (simp only [↓inv_mk]; with_reducible apply inv_parts ha)

theorem keeps_Dev_keyDown {d0 : Dev} {x1 : Nat} {x2 : Nat} (ha : Q.allows 57180185) (h0 : Inv Q d0) : Inv Q (Dev.keyDown d0 x1 x2) := by
  unfold Dev.keyDown
  try extract_lets
  repeat' first
    | with_reducible assumption | with_reducible exact ha.sub rfl | with_reducible exact still_rfl
    | (with_reducible apply Lit.mk <;> first | exact same_may rfl | with_reducible exact same_rfl)
    | with_reducible apply keeps_Dev_wr | with_reducible apply keeps_Dev_pnlEvent | extract_lets
    | (simp only [↓inv_mk]; with_reducible apply inv_parts ha) | dsimp +zetaDelta only

theorem keeps_keyPress {x0 : Nat} {x1 : Nat} {d2 : Dev} (ha : Q.allows 1099568824349) (h2 : Inv Q d2) : Inv Q (keyPress x0 x1 d2) := by
  unfold keyPress
  try extract_lets
  repeat' first
    | with_reducible assumption | with_reducible exact ha.sub rfl | with_reducible apply keeps_Dev_after
    | with_reducible apply keeps_Dev_keyDo | with_reducible apply keeps_Dev_keyDown | split

theorem keeps_keyRelease {x0 : Nat} {x1 : Nat} {d2 : Dev} (ha : Q.allows 57180189) (h2 : Inv Q d2) : Inv Q (keyRelease x0 x1 d2) := by
  unfold keyRelease
  try extract_lets
  repeat' first
    | with_reducible assumption | with_reducible exact ha.sub rfl | with_reducible exact still_rfl
    | (with_reducible apply Lit.mk <;> first | exact same_may rfl | with_reducible exact same_rfl)
    | with_reducible apply keeps_Dev_after | with_reducible apply keeps_Dev_pnlEvent | extract_lets | split
    | (simp only [↓inv_mk]; with_reducible apply inv_parts ha)

theorem keeps_Dev_pnlEdge {d0 : Dev} (ha : Q.allows 2097152) (h0 : Inv Q d0) : Inv Q (Dev.pnlEdge d0) := by
  unfold Dev.pnlEdge
  try extract_lets
  repeat' first
    | with_reducible assumption | with_reducible exact still_rfl
    | (with_reducible apply Lit.mk <;> first | exact same_may rfl | with_reducible exact same_rfl)
    | (simp only [↓inv_mk]; with_reducible apply inv_parts ha)

theorem keeps_Dev_glnIdle {d0 : Dev} {x1 : Nat} (ha : Q.allows 16809984) (h0 : Inv Q d0) : Inv Q (Dev.glnIdle d0 x1) := by
  induction x1 generalizing d0 with
  | zero =>
    unfold Dev.glnIdle
    try extract_lets
    repeat' first
      | with_reducible assumption
  | succ n ih =>
    unfold Dev.glnIdle
    try extract_lets
    repeat' first
      | with_reducible assumption | with_reducible apply ih | with_reducible exact ha.sub rfl
      | with_reducible exact still_rfl
      | (with_reducible apply Lit.mk <;> first | exact same_may rfl | with_reducible exact same_rfl)
      | with_reducible apply keeps_Dev_send | extract_lets | (simp only [↓inv_mk]; with_reducible apply inv_parts ha)

theorem keeps_Dev_glnCtl {d0 : Dev} {x1 : Nat} (ha : Q.allows 16809985) (h0 : Inv Q d0) : Inv Q (Dev.glnCtl d0 x1) := by
  unfold Dev.glnCtl
  try extract_lets
  repeat' first
    | with_reducible assumption | with_reducible exact ha.sub rfl | with_reducible exact still_rfl
    | (with_reducible apply Lit.mk <;> first | exact same_may rfl | with_reducible exact same_rfl)
    | with_reducible apply keeps_Dev_glnDrain | with_reducible apply keeps_Dev_wr
    | with_reducible apply keeps_Dev_glnIdle | extract_lets | split
    | (simp only [↓inv_mk]; with_reducible apply inv_parts ha)

theorem keeps_gleanEnable {x0 : Nat} {x1 : Nat} {d2 : Dev} (ha : Q.allows 16809989) (h2 : Inv Q d2) : Inv Q (gleanEnable x0 x1 d2) := by
  unfold gleanEnable
  try extract_lets
  repeat' first
    | with_reducible assumption | with_reducible exact ha.sub rfl | with_reducible apply keeps_Dev_after
    | with_reducible apply keeps_Dev_glnCtl | split

theorem keeps_gleanDisable {x0 : Nat} {x1 : Nat} {d2 : Dev} (ha : Q.allows 16809989) (h2 : Inv Q d2) : Inv Q (gleanDisable x0 x1 d2) := by
  unfold gleanDisable
  try extract_lets
  repeat' first
    | with_reducible assumption | with_reducible exact ha.sub rfl | with_reducible apply keeps_Dev_after
    | with_reducible apply keeps_Dev_glnCtl | split

theorem keeps_gleanPeriodicSample {d0 : Dev} (ha : Q.allows 17072129) (h0 : Inv Q d0) : Inv Q (gleanPeriodicSample d0) := by
  unfold gleanPeriodicSample
  try extract_lets
  repeat' first
    | with_reducible assumption | with_reducible exact ha.sub rfl | with_reducible exact still_rfl
    | (with_reducible apply Lit.mk <;> first | exact same_may rfl | with_reducible exact same_rfl)
    | with_reducible apply keeps_Dev_traceOwn | intro _ _ _ | extract_lets | split
    | (simp only [↓inv_mk]; with_reducible apply inv_parts ha) | with_reducible apply inv_foldl
    | dsimp +zetaDelta only

theorem keeps_Dev_pmcCtl {d0 : Dev} {x1 : Nat} (ha : Q.allows 32769) (h0 : Inv Q d0) : Inv Q (Dev.pmcCtl d0 x1) := by
  unfold Dev.pmcCtl
  try extract_lets
  repeat' first
    | with_reducible assumption | with_reducible exact ha.sub rfl | with_reducible exact still_rfl
    | (with_reducible apply Lit.mk <;> first | exact same_may rfl | with_reducible exact same_rfl)
    | with_reducible apply keeps_Dev_wr | intro _ _ _ | extract_lets | split
    | (simp only [↓inv_mk]; with_reducible apply inv_parts ha) | with_reducible apply inv_foldl
    | dsimp +zetaDelta only

theorem keeps_pmcSnap {x0 : Nat} {x1 : Nat} {d2 : Dev} (ha : Q.allows 32773) (h2 : Inv Q d2) : Inv Q (pmcSnap x0 x1 d2) := by
  unfold pmcSnap
  try extract_lets
  repeat' first
    | with_reducible assumption | with_reducible exact ha.sub rfl | with_reducible apply keeps_Dev_after
    | with_reducible apply keeps_Dev_pmcCtl | split

theorem keeps_pmcClear {x0 : Nat} {x1 : Nat} {d2 : Dev} (ha : Q.allows 32773) (h2 : Inv Q d2) : Inv Q (pmcClear x0 x1 d2) := by
  unfold pmcClear
  try extract_lets
  repeat' first
    | with_reducible assumption | with_reducible exact ha.sub rfl | with_reducible apply keeps_Dev_after
    | with_reducible apply keeps_Dev_pmcCtl | split

end Sys2Proof.Laws
end

