-- ==== Sys2Proof/Laws/Keeps/Modes.lean ====
section
/-!
SUPPORT. What Modes does keeps the invariant.
-/
namespace Sys2Proof.Laws
open Sys2Proof Sys2Proof.Machine
set_option linter.unusedVariables false
variable {Q : Scope}

theorem keeps_Dev_setRa {d : Dev} {m : Nat} {f : RunAhead → RunAhead} (ha : Q.allows 128) (hm : Q.allows m) (h : Inv Q d)
    (c31 : Same m 31 ((f d.ra).cur, (f d.ra).sTick, (f d.ra).nextTick) (d.ra.cur, d.ra.sTick, d.ra.nextTick)) : Inv Q (d.setRa f) :=
  ⟨h.1, h.2, h.3, { h.4 with ra := .inl (ha.bit rfl), prog := c31.trans hm h.4.prog }⟩

theorem keeps_Dev_setTop {d : Dev} {m : Nat} {f : Top → Top} (ha : Q.allows 8) (hm : Q.allows m) (h : Inv Q d)
    (c26 : Same m 26 ((f d.top).phase, (f d.top).tick, (f d.top).edgeAt) (d.top.phase, d.top.tick, d.top.edgeAt))
    (c27 : Same m 27 ((f d.top).otpKey, (f d.top).otpSerial) (d.top.otpKey, d.top.otpSerial))
    (c33 : Same m 33 (f d.top).mode d.top.mode)
    (c37 : Same m 37 ((f d.top).desig, (f d.top).nextIdle, (f d.top).committed, (f d.top).sealOpen, (f d.top).isStrike, (f d.top).overspeed, (f d.top).stallNext, (f d.top).tPrev, (f d.top).idlePeriod) (d.top.desig, d.top.nextIdle, d.top.committed, d.top.sealOpen, d.top.isStrike, d.top.overspeed, d.top.stallNext, d.top.tPrev, d.top.idlePeriod))
    (c38 : Same m 38 ((f d.top).sysRst, (f d.top).railsGood, (f d.top).straps) (d.top.sysRst, d.top.railsGood, d.top.straps))
    (c39 : Same m 39 ((f d.top).causes, (f d.top).holdCause, (f d.top).prevMode, (f d.top).abortPend) (d.top.causes, d.top.holdCause, d.top.prevMode, d.top.abortPend))
    (c40 : Same m 40 (f d.top).trigs d.top.trigs) : Inv Q (d.setTop f) :=
  ⟨h.1, h.2, h.3, { h.4 with top := .inl (ha.bit rfl), core := c26.trans hm h.4.core, otp := c27.trans hm h.4.otp, opMode := c33.trans hm h.4.opMode, nextE := c37.trans hm h.4.nextE, power := c38.trans hm h.4.power, causes := c39.trans hm h.4.causes, trigs := c40.trans hm h.4.trigs }⟩

theorem keeps_Dev_setMode {d0 : Dev} {x1 : Mode} {x2 : Nat} (ha : Q.allows 558362558489) (h0 : Inv Q d0) : Inv Q (Dev.setMode d0 x1 x2) := by
  unfold Dev.setMode
  try extract_lets
  repeat' first
    | with_reducible assumption | with_reducible exact ha.sub rfl | exact same_may rfl | with_reducible exact same_rfl
    | with_reducible apply keeps_Dev_setTop | with_reducible apply keeps_Dev_set
    | with_reducible apply keeps_Dev_traceOwn | with_reducible apply keeps_Dev_msix | extract_lets | split
    | dsimp +zetaDelta only

theorem keeps_Dev_logCause {d0 : Dev} {x1 : Nat} (ha : Q.allows 55083033) (h0 : Inv Q d0) : Inv Q (Dev.logCause d0 x1) := by
  unfold Dev.logCause
  try extract_lets
  repeat' first
    | with_reducible assumption | with_reducible apply keeps_Dev_event | split

theorem keeps_Dev_addCause {d0 : Dev} {x1 : Nat} (ha : Q.allows 549755813896) (h0 : Inv Q d0) : Inv Q (Dev.addCause d0 x1) := by
  unfold Dev.addCause
  try extract_lets
  repeat' first
    | with_reducible assumption | with_reducible exact ha.sub rfl | exact same_may rfl | with_reducible exact same_rfl
    | with_reducible apply keeps_Dev_setTop | split

theorem keeps_Dev_addCauses {d0 : Dev} {x1 : List Nat} (ha : Q.allows 549810896921) (h0 : Inv Q d0) : Inv Q (Dev.addCauses d0 x1) := by
  unfold Dev.addCauses
  try extract_lets
  repeat' first
    | with_reducible assumption | with_reducible exact ha.sub rfl | with_reducible apply keeps_Dev_logCause
    | with_reducible apply keeps_Dev_addCause | intro _ _ _ | extract_lets | split | with_reducible apply inv_foldl

theorem keeps_Dev_stepOne {d0 : Dev} {x1 : Nat} {x2 : Bool} (ha : Q.allows 4350050969) (h0 : Inv Q d0) : Inv Q (Dev.stepOne d0 x1 x2) := by
  unfold Dev.stepOne
  try extract_lets
  repeat' first
    | with_reducible assumption | with_reducible exact ha.sub rfl | exact same_may rfl | with_reducible exact same_rfl
    | with_reducible apply keeps_Dev_setStg | with_reducible apply keeps_Dev_setRa
    | with_reducible apply keeps_Dev_event | with_reducible apply keeps_Dev_bump

theorem keeps_Dev_recordResume {d0 : Dev} {x1 : Nat} (ha : Q.allows 129) (h0 : Inv Q d0) : Inv Q (Dev.recordResume d0 x1) := by
  unfold Dev.recordResume
  try extract_lets
  repeat' first
    | with_reducible assumption | with_reducible exact ha.sub rfl | with_reducible exact same_rfl
    | with_reducible apply keeps_Dev_wr | with_reducible apply keeps_Dev_setRa

theorem keeps_Dev_enterHold {d0 : Dev} {x1 : Option Nat} {x2 : Bool} {x3 : List Nat} (ha : Q.allows 562695799449) (h0 : Inv Q d0) : Inv Q (Dev.enterHold d0 x1 x2 x3) := by
  unfold Dev.enterHold
  try extract_lets
  repeat' first
    | with_reducible assumption | with_reducible exact ha.sub rfl | exact same_may rfl | with_reducible exact same_rfl
    | with_reducible apply keeps_Dev_setTop | with_reducible apply keeps_Dev_setMode
    | with_reducible apply keeps_Dev_addCause | with_reducible apply keeps_Dev_stepOne
    | with_reducible apply keeps_Dev_recordResume | with_reducible apply keeps_Dev_addCauses
    | with_reducible apply keeps_Dev_event | split

theorem keeps_Dev_restartHold {d0 : Dev} {x1 : List Nat} {x2 : Bool} (ha : Q.allows 554105864857) (h0 : Inv Q d0) : Inv Q (Dev.restartHold d0 x1 x2) := by
  unfold Dev.restartHold
  try extract_lets
  repeat' first
    | with_reducible assumption | with_reducible exact ha.sub rfl | exact same_may rfl | with_reducible exact same_rfl
    | with_reducible apply keeps_Dev_setTop | with_reducible apply keeps_Dev_addCauses
    | with_reducible apply keeps_Dev_addCause | with_reducible apply keeps_Dev_stepOne
    | with_reducible apply keeps_Dev_event | extract_lets | split | dsimp +zetaDelta only

theorem keeps_Dev_freshCauses {d0 : Dev} {x1 : List Nat} (ha : Q.allows 549810896921) (h0 : Inv Q d0) : Inv Q (Dev.freshCauses d0 x1) := by
  unfold Dev.freshCauses
  try extract_lets
  repeat' first
    | with_reducible assumption | with_reducible exact ha.sub rfl | exact same_may rfl | with_reducible exact same_rfl
    | with_reducible apply keeps_Dev_addCauses | with_reducible apply keeps_Dev_setTop

theorem keeps_Dev_safeFromExpose {d0 : Dev} {x1 : Option Nat} {x2 : Bool} {x3 : List Nat} (ha : Q.allows 556253348505) (h0 : Inv Q d0) : Inv Q (Dev.safeFromExpose d0 x1 x2 x3) := by
  unfold Dev.safeFromExpose
  try extract_lets
  repeat' first
    | with_reducible assumption | with_reducible exact ha.sub rfl | exact same_may rfl
    | with_reducible apply keeps_Dev_setRa | with_reducible apply keeps_Dev_freshCauses
    | with_reducible apply keeps_Dev_stepOne | with_reducible apply keeps_Dev_recordResume

theorem keeps_Dev_safeFromHold {d0 : Dev} {x1 : List Nat} (ha : Q.allows 554105864857) (h0 : Inv Q d0) : Inv Q (Dev.safeFromHold d0 x1) := by
  unfold Dev.safeFromHold
  try extract_lets
  repeat' first
    | with_reducible assumption | with_reducible exact ha.sub rfl | exact same_may rfl | with_reducible exact same_rfl
    | with_reducible apply keeps_Dev_addCauses | with_reducible apply keeps_Dev_setRa
    | with_reducible apply keeps_Dev_setStg | split

theorem keeps_Dev_enterSafe {d0 : Dev} {x1 : Option Nat} {x2 : Bool} {x3 : List Nat} (ha : Q.allows 564843285145) (h0 : Inv Q d0) : Inv Q (Dev.enterSafe d0 x1 x2 x3) := by
  unfold Dev.enterSafe
  try extract_lets
  repeat' first
    | with_reducible assumption | with_reducible exact ha.sub rfl | with_reducible apply keeps_Dev_setMode
    | with_reducible apply keeps_Dev_calAbandon | with_reducible apply keeps_Dev_safeFromExpose
    | with_reducible apply keeps_Dev_safeFromHold | with_reducible apply keeps_Dev_freshCauses | split
    | dsimp +zetaDelta only

theorem keeps_Dev_releaseToHold {d0 : Dev} (ha : Q.allows 558400831513) (h0 : Inv Q d0) : Inv Q (Dev.releaseToHold d0) := by
  unfold Dev.releaseToHold
  try extract_lets
  repeat' first
    | with_reducible assumption | with_reducible exact ha.sub rfl | with_reducible apply keeps_Dev_addCauses
    | with_reducible apply keeps_Dev_setMode

theorem keeps_Dev_clearCauses {d0 : Dev} (ha : Q.allows 549755813896) (h0 : Inv Q d0) : Inv Q (Dev.clearCauses d0) := by
  unfold Dev.clearCauses
  try extract_lets
  repeat' first
    | with_reducible assumption | with_reducible exact ha.sub rfl | exact same_may rfl | with_reducible exact same_rfl
    | with_reducible apply keeps_Dev_setTop | split

theorem keeps_Dev_mayEnter {d0 : Dev} {x1 : Bool} (ha : Q.allows 55083033) (h0 : Inv Q d0) : Inv2 Q (Dev.mayEnter d0 x1) := by
  unfold Dev.mayEnter
  try extract_lets
  repeat' first
    | with_reducible assumption | with_reducible apply keeps_Dev_event | split | with_reducible apply inv2_mk

theorem keeps_Dev_freshExpose {d0 : Dev} (ha : Q.allows 2147491488) (h0 : Inv Q d0) : Inv Q (Dev.freshExpose d0) := by
  unfold Dev.freshExpose
  try extract_lets
  repeat' first
    | with_reducible assumption | with_reducible exact ha.sub rfl | with_reducible exact still_rfl
    | (with_reducible apply Lit.mk <;> first | exact same_may rfl | with_reducible exact same_rfl)
    | exact same_may rfl | with_reducible exact same_rfl | with_reducible apply keeps_Dev_setStg
    | with_reducible apply keeps_Dev_setRa | with_reducible apply keeps_Dev_endRun | extract_lets
    | (simp only [↓inv_mk]; with_reducible apply inv_parts ha) | dsimp +zetaDelta only

theorem keeps_Dev_holdReqLevel {d0 : Dev} (ha : Q.allows 1099511627784) (h0 : Inv Q d0) : Inv Q (Dev.holdReqLevel d0) := by
  unfold Dev.holdReqLevel
  try extract_lets
  repeat' first
    | with_reducible assumption | with_reducible apply keeps_Dev_triggerNext | split

theorem keeps_Dev_enterExpose {d0 : Dev} (ha : Q.allows 1660060278457) (h0 : Inv Q d0) : Inv Q (Dev.enterExpose d0) := by
  unfold Dev.enterExpose
  try extract_lets
  repeat' first
    | with_reducible assumption | with_reducible exact ha.sub rfl | with_reducible apply keeps_Dev_holdReqLevel
    | with_reducible apply keeps_Dev_loadAllHealth | with_reducible apply keeps_Dev_freshExpose
    | with_reducible apply keeps_Dev_setMode

theorem keeps_Dev_enterCalibrate {d0 : Dev} (ha : Q.allows 558401161369) (h0 : Inv Q d0) : Inv Q (Dev.enterCalibrate d0) := by
  unfold Dev.enterCalibrate
  try extract_lets
  repeat' first
    | with_reducible assumption | with_reducible exact ha.sub rfl | with_reducible exact still_rfl
    | (with_reducible apply Lit.mk <;> first | exact same_may rfl | with_reducible exact same_rfl)
    | with_reducible apply keeps_Dev_setMode | with_reducible apply keeps_Dev_loadAllHealth | extract_lets
    | (simp only [↓inv_mk]; with_reducible apply inv_parts ha) | dsimp +zetaDelta only

theorem keeps_Dev_enterConfigure {d0 : Dev} (ha : Q.allows 616383024889) (h0 : Inv Q d0) : Inv Q (Dev.enterConfigure d0) := by
  unfold Dev.enterConfigure
  try extract_lets
  repeat' first
    | with_reducible assumption | with_reducible exact ha.sub rfl | with_reducible exact still_rfl
    | (with_reducible apply Lit.mk <;> first | exact same_may rfl | with_reducible exact same_rfl)
    | exact same_may rfl | with_reducible exact same_rfl | with_reducible apply keeps_Dev_abortStroke
    | with_reducible apply keeps_Dev_calAbandon | with_reducible apply keeps_Dev_calDropReqs
    | with_reducible apply keeps_Dev_setTop | with_reducible apply keeps_Dev_setMode
    | with_reducible apply keeps_Dev_calConfigure | with_reducible apply keeps_Dev_setStg | extract_lets | split
    | (simp only [↓inv_mk]; with_reducible apply inv_parts ha) | dsimp +zetaDelta only

theorem keeps_Dev_tryMode {d0 : Dev} {x1 : Mode} (ha : Q.allows 1715894984441) (h0 : Inv Q d0) : Inv2 Q (Dev.tryMode d0 x1) := by
  unfold Dev.tryMode
  try extract_lets
  repeat' first
    | with_reducible assumption | with_reducible exact ha.sub rfl | with_reducible apply keeps_Dev_setMode
    | with_reducible apply keeps_Dev_mayEnter | with_reducible apply keeps_Dev_enterCalibrate
    | with_reducible apply keeps_Dev_enterExpose | with_reducible apply keeps_Dev_enterConfigure | extract_lets
    | split | with_reducible apply inv2_mk | with_reducible refine inv_eq2 (by assumption) ?_

theorem keeps_Dev_tryResume {d0 : Dev} {x1 : Bool} (ha : Q.allows 549755813928) (h0 : Inv Q d0) : Inv2 Q (Dev.tryResume d0 x1) := by
  unfold Dev.tryResume
  try extract_lets
  repeat' first
    | with_reducible assumption | with_reducible exact ha.sub rfl | exact same_may rfl | with_reducible exact same_rfl
    | with_reducible apply keeps_Dev_resumeBlocks | with_reducible apply keeps_Dev_setTop | split
    | with_reducible apply inv2_mk

theorem keeps_Dev_endHeld {d0 : Dev} {x1 : Nat} {x2 : Bool} (ha : Q.allows 17201397785) (h0 : Inv Q d0) : Inv Q (Dev.endHeld d0 x1 x2) := by
  unfold Dev.endHeld
  try extract_lets
  repeat' first
    | with_reducible assumption | with_reducible apply keeps_Dev_endCmd | split

theorem keeps_Dev_keyRefused {d0 : Dev} {x1 : Nat} (ha : Q.allows 55083033) (h0 : Inv Q d0) : Inv Q (Dev.keyRefused d0 x1) := by
  unfold Dev.keyRefused
  try extract_lets
  repeat' first
    | with_reducible assumption | with_reducible apply keeps_Dev_pnlEvent

theorem keeps_Dev_command {d0 : Dev} {x1 : Want} (ha : Q.allows 1715894984441) (h0 : Inv Q d0) : Inv Q (Dev.command d0 x1) := by
  unfold Dev.command
  try extract_lets
  repeat' first
    | with_reducible assumption | with_reducible exact ha.sub rfl | with_reducible apply keeps_Dev_tryMode
    | with_reducible apply keeps_Dev_endHeld | with_reducible apply keeps_Dev_tryResume
    | with_reducible apply keeps_Dev_keyRefused | with_reducible apply keeps_Dev_setMode
    | with_reducible apply keeps_Dev_authDone | extract_lets | split | with_reducible apply inv_snd
    | with_reducible refine inv_eq2 (by assumption) ?_ | dsimp +zetaDelta only

theorem keeps_Dev_loses {d0 : Dev} {x1 : Bool} {x2 : Want} (ha : Q.allows 1715894984441) (h0 : Inv Q d0) : Inv Q (Dev.loses d0 x1 x2) := by
  unfold Dev.loses
  try extract_lets
  repeat' first
    | with_reducible assumption | with_reducible exact ha.sub rfl | with_reducible apply keeps_Dev_endHeld
    | with_reducible apply keeps_Dev_keyRefused | with_reducible apply keeps_Dev_command | split

theorem keeps_Dev_takeTrigs {d0 : Dev} (ha : Q.allows 1099511627784) (h0 : Inv Q d0) : Inv2 Q (Dev.takeTrigs d0) := by
  unfold Dev.takeTrigs
  try extract_lets
  repeat' first
    | with_reducible assumption | with_reducible exact ha.sub rfl | exact same_may rfl | with_reducible exact same_rfl
    | with_reducible apply keeps_Dev_setTop | with_reducible apply inv2_mk

theorem keeps_Dev_endClose {d0 : Dev} (ha : Q.allows 17201397785) (h0 : Inv Q d0) : Inv Q (Dev.endClose d0) := by
  unfold Dev.endClose
  try extract_lets
  repeat' first
    | with_reducible assumption | with_reducible apply keeps_Dev_endCmd | split

theorem keeps_Dev_hostAbort {d0 : Dev} (ha : Q.allows 616383024889) (h0 : Inv Q d0) : Inv Q (Dev.hostAbort d0) := by
  unfold Dev.hostAbort
  try extract_lets
  repeat' first
    | with_reducible assumption | with_reducible exact ha.sub rfl | with_reducible exact still_rfl
    | (with_reducible apply Lit.mk <;> first | exact same_may rfl | with_reducible exact same_rfl)
    | exact same_may rfl | with_reducible exact same_rfl | with_reducible apply keeps_Dev_setTop
    | with_reducible apply keeps_Dev_abortStroke | with_reducible apply keeps_Dev_setStg
    | with_reducible apply keeps_Dev_addCauses | with_reducible apply keeps_Dev_stepOne
    | with_reducible apply keeps_Dev_recordResume | with_reducible apply keeps_Dev_setMode | extract_lets | split
    | (simp only [↓inv_mk]; with_reducible apply inv_parts ha) | dsimp +zetaDelta only

theorem keeps_Dev_resumeStroke {d0 : Dev} (ha : Q.allows 558400831641) (h0 : Inv Q d0) : Inv Q (Dev.resumeStroke d0) := by
  unfold Dev.resumeStroke
  try extract_lets
  repeat' first
    | with_reducible assumption | with_reducible exact ha.sub rfl | exact same_may rfl | with_reducible exact same_rfl
    | with_reducible apply keeps_Dev_setTop | with_reducible apply keeps_Dev_setMode
    | with_reducible apply keeps_Dev_setRa | with_reducible apply keeps_Dev_event

theorem keeps_Dev_disarm {d0 : Dev} (ha : Q.allows 128) (h0 : Inv Q d0) : Inv Q (Dev.disarm d0) := by
  unfold Dev.disarm
  try extract_lets
  repeat' first
    | with_reducible assumption | with_reducible exact same_rfl | with_reducible apply keeps_Dev_setRa

theorem keeps_Dev_holdEdge {d0 : Dev} {x1 : Option Nat} {x2 : Bool} {x3 : List Want} {x4 : List Nat} (ha : Q.allows 1715894984441) (h0 : Inv Q d0) : Inv2 Q (Dev.holdEdge d0 x1 x2 x3 x4) := by
  unfold Dev.holdEdge
  try extract_lets
  repeat' first
    | with_reducible assumption | with_reducible exact ha.sub rfl | with_reducible apply keeps_Dev_clearCauses
    | with_reducible apply keeps_Dev_loses | with_reducible apply keeps_Dev_resumeStroke
    | with_reducible apply keeps_Dev_disarm | with_reducible apply keeps_Dev_addCauses
    | with_reducible apply keeps_Dev_restartHold | with_reducible apply keeps_Dev_command | intro _ _ _ | extract_lets
    | split | with_reducible apply inv_foldl | with_reducible apply inv2_mk | dsimp +zetaDelta only

theorem keeps_Dev_calibrateEnds {d0 : Dev} (ha : Q.allows 1715894652665) (h0 : Inv Q d0) : Inv Q (Dev.calibrateEnds d0) := by
  unfold Dev.calibrateEnds
  try extract_lets
  repeat' first
    | with_reducible assumption | with_reducible exact ha.sub rfl | with_reducible apply keeps_Dev_enterConfigure
    | with_reducible apply keeps_Dev_triggerNext | split

theorem keeps_Dev_modeEdge {d0 : Dev} {x1 : Option Nat} {x2 : Bool} {x3 : Bool} (ha : Q.allows 1715894992633) (h0 : Inv Q d0) : Inv2 Q (Dev.modeEdge d0 x1 x2 x3) := by
  unfold Dev.modeEdge
  try extract_lets
  repeat' first
    | with_reducible assumption | with_reducible exact ha.sub rfl | with_reducible exact same_rfl
    | with_reducible exact still_same rfl rfl rfl | with_reducible apply keeps_Dev_takeTrigs
    | with_reducible apply keeps_Dev_setSaf | with_reducible apply keeps_Dev_loses
    | with_reducible apply keeps_Dev_enterSafe | with_reducible apply keeps_Dev_command
    | with_reducible apply keeps_Dev_calibrateEnds | with_reducible apply keeps_Dev_enterHold
    | with_reducible apply keeps_Dev_holdEdge | with_reducible apply keeps_Dev_addCauses
    | with_reducible apply keeps_Dev_releaseToHold | intro _ _ _ | extract_lets | split
    | with_reducible apply inv_foldl | with_reducible apply inv2_mk | with_reducible refine inv_eq2 (by assumption) ?_

end Sys2Proof.Laws
end

