-- ==== Sys2Proof/Laws/Keeps/Strike.lean ====
section
/-!
SUPPORT. What Strike does keeps the invariant.
-/
namespace Sys2Proof.Laws
open Sys2Proof Sys2Proof.Machine
set_option linter.unusedVariables false
variable {Q : Scope}

theorem keeps_Dev_passSent {d0 : Dev} {x1 : Nat} {x2 : SentPass} (ha : Q.allows 192) (h0 : Inv Q d0) : Inv Q (Dev.passSent d0 x1 x2) := by
  unfold Dev.passSent
  try extract_lets
  repeat' first
    | with_reducible assumption | with_reducible exact ha.sub rfl | with_reducible apply keeps_Dev_updMap
    | with_reducible apply keeps_Dev_ldgStroke | split

theorem keeps_Dev_losePasses {d0 : Dev} {x1 : Nat} {x2 : List SentPass} (ha : Q.allows 192) (h0 : Inv Q d0) : Inv Q (Dev.losePasses d0 x1 x2) := by
  unfold Dev.losePasses
  try extract_lets
  repeat' first
    | with_reducible assumption | with_reducible exact ha.sub rfl | with_reducible exact still_rfl
    | (with_reducible apply Lit.mk <;> first | exact same_may rfl | with_reducible exact same_rfl)
    | with_reducible apply keeps_Dev_passSent | with_reducible apply keeps_Dev_setCol | intro _ _ _ | extract_lets
    | split | (simp only [↓inv_mk]; with_reducible apply inv_parts ha) | with_reducible apply inv_foldl

theorem keeps_Dev_dueCheck {d0 : Dev} {x1 : Stroke} {x2 : Nat} {x3 : List Upset} (ha : Q.allows 1099566711001) (h0 : Inv Q d0) : Inv Q (Dev.dueCheck d0 x1 x2 x3) := by
  unfold Dev.dueCheck
  try extract_lets
  repeat' first
    | with_reducible assumption | with_reducible exact ha.sub rfl | with_reducible exact same_rfl
    | with_reducible apply keeps_Dev_losePasses | with_reducible apply keeps_Dev_event
    | with_reducible apply keeps_Dev_setRa | with_reducible apply keeps_Dev_triggerNext
    | with_reducible apply keeps_Dev_sendFrame | intro _ _ _ | extract_lets | split | with_reducible apply inv_foldl
    | dsimp +zetaDelta only

theorem keeps_Dev_sendIdleFrames {d0 : Dev} (ha : Q.allows 16777216) (h0 : Inv Q d0) : Inv Q (Dev.sendIdleFrames d0) := by
  unfold Dev.sendIdleFrames
  try extract_lets
  repeat' first
    | with_reducible assumption | with_reducible apply keeps_Dev_sendFrame | intro _ _ _
    | with_reducible apply inv_foldl

theorem keeps_Dev_beginStroke {d0 : Dev} {x1 : Stroke} (ha : Q.allows 2147499681) (h0 : Inv Q d0) : Inv Q (Dev.beginStroke d0 x1) := by
  unfold Dev.beginStroke
  try extract_lets
  repeat' first
    | with_reducible assumption | with_reducible exact ha.sub rfl | with_reducible exact still_rfl
    | (with_reducible apply Lit.mk <;> first | exact same_may rfl | with_reducible exact same_rfl)
    | exact same_may rfl | with_reducible exact same_rfl | with_reducible exact still_same rfl rfl rfl
    | with_reducible apply keeps_Dev_setRa | with_reducible apply keeps_Dev_setSaf
    | with_reducible apply keeps_Dev_setStg | with_reducible apply keeps_Dev_updLayer
    | with_reducible apply keeps_Dev_wr | extract_lets | split
    | (simp only [↓inv_mk]; with_reducible apply inv_parts ha) | dsimp +zetaDelta only

theorem keeps_Dev_strikePass {d0 : Dev} {x1 : Nat} {x2 : SentPass} (ha : Q.allows 1216) (h0 : Inv Q d0) : Inv Q (Dev.strikePass d0 x1 x2) := by
  unfold Dev.strikePass
  try extract_lets
  repeat' first
    | with_reducible assumption | with_reducible exact ha.sub rfl | with_reducible exact still_rfl
    | (with_reducible apply Lit.mk <;> first | exact same_may rfl | with_reducible exact same_rfl)
    | with_reducible apply keeps_Dev_passSent | with_reducible apply keeps_Dev_setCol | extract_lets
    | (simp only [↓inv_mk]; with_reducible apply inv_parts ha) | dsimp +zetaDelta only

theorem keeps_Dev_skipDisabled {d0 : Dev} {x1 : Stroke} {x2 : Nat} (ha : Q.allows 128) (h0 : Inv Q d0) : Inv Q (Dev.skipDisabled d0 x1 x2) := by
  unfold Dev.skipDisabled
  try extract_lets
  repeat' first
    | with_reducible assumption | with_reducible apply keeps_Dev_updMap | intro _ _ _ | extract_lets | split
    | with_reducible apply inv_foldl

theorem keeps_Dev_noteThermal {d0 : Dev} {x1 : Stroke} {x2 : Nat} (ha : Q.allows 32) (h0 : Inv Q d0) : Inv Q (Dev.noteThermal d0 x1 x2) := by
  unfold Dev.noteThermal
  try extract_lets
  repeat' first
    | with_reducible assumption | with_reducible apply keeps_Dev_updLayer | split

theorem keeps_Dev_strike {d0 : Dev} {x1 : Stroke} {x2 : Nat} (ha : Q.allows 139641863929) (h0 : Inv Q d0) : Inv Q (Dev.strike d0 x1 x2) := by
  unfold Dev.strike
  try extract_lets
  repeat' first
    | with_reducible assumption | with_reducible exact ha.sub rfl | with_reducible exact still_rfl
    | (with_reducible apply Lit.mk <;> first | exact same_may rfl | with_reducible exact same_rfl)
    | exact same_may rfl | with_reducible exact same_rfl | with_reducible exact still_same rfl rfl rfl
    | with_reducible apply keeps_Dev_beginStroke | with_reducible apply keeps_Dev_recordStrike
    | with_reducible apply keeps_Dev_strikePass | with_reducible apply keeps_Dev_noteThermal
    | with_reducible apply keeps_Dev_skipDisabled | with_reducible apply keeps_Dev_seamSends
    | with_reducible apply keeps_Dev_setRa | with_reducible apply keeps_Dev_wr | with_reducible apply keeps_Dev_setTop
    | with_reducible apply keeps_Dev_setSaf | with_reducible apply keeps_Dev_strobeRise | intro _ _ _ | extract_lets
    | split | (simp only [↓inv_mk]; with_reducible apply inv_parts ha) | with_reducible apply inv_foldl
    | with_reducible apply inv_snd | dsimp +zetaDelta only

theorem keeps_Dev_endStroke {d0 : Dev} (ha : Q.allows 2147483808) (h0 : Inv Q d0) : Inv Q (Dev.endStroke d0) := by
  unfold Dev.endStroke
  try extract_lets
  repeat' first
    | with_reducible assumption | with_reducible exact ha.sub rfl | with_reducible apply keeps_Dev_endRun
    | with_reducible apply keeps_Dev_updStroke | split

theorem keeps_Dev_designate {d0 : Dev} {x1 : Bool} {x2 : List Upset} (ha : Q.allows 1237005666521) (h0 : Inv Q d0) : Inv Q (Dev.designate d0 x1 x2) := by
  unfold Dev.designate
  try extract_lets
  repeat' first
    | with_reducible assumption | with_reducible exact ha.sub rfl | exact same_may rfl | with_reducible exact same_rfl
    | with_reducible apply keeps_Dev_setTop | with_reducible apply keeps_Dev_setRa
    | with_reducible apply keeps_Dev_calDesignate | with_reducible apply keeps_Dev_dueCheck
    | with_reducible apply keeps_Dev_sendIdleFrames | extract_lets | split
    | with_reducible refine inv_eq2 (by assumption) ?_

end Sys2Proof.Laws
end

