-- ==== Sys2Proof/Laws/Keeps/Tick.lean ====
section
/-!
SUPPORT. What Tick does keeps the invariant.
-/
namespace Sys2Proof.Laws
open Sys2Proof Sys2Proof.Machine
set_option linter.unusedVariables false
variable {Q : Scope}

theorem keeps_Dev_approach {d0 : Dev} {x1 : Nat} {x2 : Nat} {x3 : Nat} (ha : Q.allows 32772) (h0 : Inv Q d0) : Inv Q (Dev.approach d0 x1 x2 x3) := by
  induction x3 generalizing d0 x1 x2 with
  | zero =>
    unfold Dev.approach
    try extract_lets
    repeat' first
      | with_reducible assumption
  | succ n ih =>
    unfold Dev.approach
    try extract_lets
    repeat' first
      | with_reducible assumption | with_reducible apply ih | with_reducible apply keeps_Dev_reach | split

theorem keeps_Dev_setPeriod {d0 : Dev} {x1 : Option Int} (ha : Q.allows 513) (h0 : Inv Q d0) : Inv Q (Dev.setPeriod d0 x1) := by
  unfold Dev.setPeriod
  try extract_lets
  repeat' first
    | with_reducible assumption | with_reducible exact ha.sub rfl | with_reducible exact same_rfl
    | with_reducible apply keeps_Dev_wr | with_reducible apply keeps_Dev_setStg

theorem keeps_Dev_commitTest {d0 : Dev} {x1 : Nat} {x2 : Int} (ha : Q.allows 1237005664793) (h0 : Inv Q d0) : Inv Q (Dev.commitTest d0 x1 x2) := by
  unfold Dev.commitTest
  try extract_lets
  repeat' first
    | with_reducible assumption | with_reducible exact ha.sub rfl | exact same_may rfl | with_reducible exact same_rfl
    | with_reducible apply keeps_Dev_lossCheck | with_reducible apply keeps_Dev_triggerNext
    | with_reducible apply keeps_Dev_setTop | with_reducible apply keeps_Dev_setPeriod | split

theorem keeps_commitPoint {x0 : Nat} {d1 : Dev} (ha : Q.allows 1237005664797) (h1 : Inv Q d1) : Inv Q (commitPoint x0 d1) := by
  unfold commitPoint
  try extract_lets
  repeat' first
    | with_reducible assumption | with_reducible exact ha.sub rfl | with_reducible apply keeps_Dev_after
    | with_reducible apply keeps_Dev_approach | with_reducible apply keeps_Dev_commitTest | extract_lets | split

theorem keeps_stallTimeout {d0 : Dev} (ha : Q.allows 1236950614541) (h0 : Inv Q d0) : Inv Q (stallTimeout d0) := by
  unfold stallTimeout
  try extract_lets
  repeat' first
    | with_reducible assumption | with_reducible exact ha.sub rfl | exact same_may rfl | with_reducible exact same_rfl
    | with_reducible apply keeps_Dev_reach | with_reducible apply keeps_Dev_set
    | with_reducible apply keeps_Dev_setStg | with_reducible apply keeps_Dev_triggerNext
    | with_reducible apply keeps_Dev_setTop | extract_lets | split

theorem keeps_sealWindowOpen {d0 : Dev} (ha : Q.allows 137455763468) (h0 : Inv Q d0) : Inv Q (sealWindowOpen d0) := by
  unfold sealWindowOpen
  try extract_lets
  repeat' first
    | with_reducible assumption | with_reducible exact ha.sub rfl | exact same_may rfl | with_reducible exact same_rfl
    | with_reducible apply keeps_Dev_sendDly | with_reducible apply keeps_Dev_setTop
    | with_reducible apply keeps_Dev_reach | split

theorem keeps_Dev_tickIs {d0 : Dev} {x1 : Nat} (ha : Q.allows 67141641) (h0 : Inv Q d0) : Inv Q (Dev.tickIs d0 x1) := by
  unfold Dev.tickIs
  try extract_lets
  repeat' first
    | with_reducible assumption | with_reducible exact ha.sub rfl | with_reducible exact still_rfl
    | (with_reducible apply Lit.mk <;> first | exact same_may rfl | with_reducible exact same_rfl)
    | with_reducible apply keeps_Dev_wr | extract_lets | (simp only [↓inv_mk]; with_reducible apply inv_parts ha)
    | dsimp +zetaDelta only

theorem keeps_Dev_newTick {d0 : Dev} {x1 : Nat} (ha : Q.allows 67141641) (h0 : Inv Q d0) : Inv Q (Dev.newTick d0 x1) := by
  unfold Dev.newTick
  try extract_lets
  repeat' first
    | with_reducible assumption | with_reducible exact ha.sub rfl | with_reducible apply keeps_Dev_tickIs
    | with_reducible apply keeps_Dev_pmc | with_reducible apply keeps_Dev_wr

theorem keeps_Dev_edgeRegs {d0 : Dev} (ha : Q.allows 2199081486109) (h0 : Inv Q d0) : Inv Q (Dev.edgeRegs d0) := by
  unfold Dev.edgeRegs
  try extract_lets
  repeat' first
    | with_reducible assumption | with_reducible exact ha.sub rfl | with_reducible exact still_rfl
    | (with_reducible apply Lit.mk <;> first | exact same_may rfl | with_reducible exact same_rfl)
    | with_reducible exact same_rfl | with_reducible apply keeps_Dev_setStg | with_reducible apply keeps_Dev_pnlEdge
    | with_reducible apply keeps_Dev_kryEdge | extract_lets | (simp only [↓inv_mk]; with_reducible apply inv_parts ha)
    | dsimp +zetaDelta only

theorem keeps_Dev_idleEdge {d0 : Dev} (ha : Q.allows 137438953480) (h0 : Inv Q d0) : Inv Q (Dev.idleEdge d0) := by
  unfold Dev.idleEdge
  try extract_lets
  repeat' first
    | with_reducible assumption | with_reducible exact ha.sub rfl | exact same_may rfl | with_reducible exact same_rfl
    | with_reducible apply keeps_Dev_setTop

theorem keeps_Dev_handOverAll {d0 : Dev} (ha : Q.allows 128) (h0 : Inv Q d0) : Inv Q (Dev.handOverAll d0) := by
  unfold Dev.handOverAll
  try extract_lets
  repeat' first
    | with_reducible assumption | with_reducible apply keeps_Dev_applyLatch | with_reducible apply keeps_Dev_handOver
    | intro _ _ _ | extract_lets | with_reducible apply inv_foldl

theorem keeps_Dev_enableEdge {d0 : Dev} (ha : Q.allows 55083225) (h0 : Inv Q d0) : Inv2 Q (Dev.enableEdge d0) := by
  unfold Dev.enableEdge
  try extract_lets
  repeat' first
    | with_reducible assumption | with_reducible exact ha.sub rfl | with_reducible apply keeps_Dev_setCol
    | with_reducible apply keeps_Dev_maskChange | intro _ _ _ | extract_lets | split | with_reducible apply inv_foldl
    | with_reducible apply inv_foldl2 | with_reducible apply inv2_mk | with_reducible apply inv_snd
    | with_reducible refine inv_eq2 (by assumption) ?_

theorem keeps_Dev_depositEdge {d0 : Dev} (ha : Q.allows 55411865) (h0 : Inv Q d0) : Inv Q (Dev.depositEdge d0) := by
  unfold Dev.depositEdge
  try extract_lets
  repeat' first
    | with_reducible assumption | with_reducible exact ha.sub rfl | with_reducible exact still_rfl
    | (with_reducible apply Lit.mk <;> first | exact same_may rfl | with_reducible exact same_rfl)
    | with_reducible apply keeps_Dev_applyHeat | with_reducible apply keeps_Dev_heatActed
    | with_reducible apply keeps_Dev_applyDeposit | intro _ _ _ | extract_lets | split
    | (simp only [↓inv_mk]; with_reducible apply inv_parts ha) | with_reducible apply inv_foldl
    | dsimp +zetaDelta only

theorem keeps_Dev_stageEdge {d0 : Dev} (ha : Q.allows 1103861678745) (h0 : Inv Q d0) : Inv Q (Dev.stageEdge d0) := by
  unfold Dev.stageEdge
  try extract_lets
  repeat' first
    | with_reducible assumption | with_reducible exact ha.sub rfl | exact same_may rfl | with_reducible exact same_rfl
    | with_reducible apply keeps_Dev_wr | with_reducible apply keeps_Dev_setStg
    | with_reducible apply keeps_Dev_lossClear | with_reducible apply keeps_Dev_lossCheck
    | with_reducible apply keeps_Dev_noteMissing | with_reducible apply keeps_Dev_setRa | extract_lets | split
    | dsimp +zetaDelta only

theorem keeps_Dev_noteDepth {d0 : Dev} (ha : Q.allows 1) (h0 : Inv Q d0) : Inv Q (Dev.noteDepth d0) := by
  unfold Dev.noteDepth
  try extract_lets
  repeat' first
    | with_reducible assumption | with_reducible apply keeps_Dev_wr | split

theorem keeps_Dev_decideEdge {d0 : Dev} {x1 : Option Nat} {x2 : Bool} {x3 : Bool} (ha : Q.allows 1853333946105) (h0 : Inv Q d0) : Inv2 Q (Dev.decideEdge d0 x1 x2 x3) := by
  unfold Dev.decideEdge
  try extract_lets
  repeat' first
    | with_reducible assumption | with_reducible exact ha.sub rfl | exact same_may rfl
    | with_reducible apply keeps_Dev_enableEdge | with_reducible apply keeps_Dev_triggerNext
    | with_reducible apply keeps_Dev_modeEdge | with_reducible apply keeps_Dev_strike
    | with_reducible apply keeps_Dev_wr | with_reducible apply keeps_Dev_setRa | extract_lets | split
    | with_reducible apply inv2_mk | with_reducible apply inv_snd | with_reducible refine inv_eq2 (by assumption) ?_
    | dsimp +zetaDelta only

theorem keeps_Dev_headerHold {d0 : Dev} (ha : Q.allows 1099511627816) (h0 : Inv Q d0) : Inv Q (Dev.headerHold d0) := by
  unfold Dev.headerHold
  try extract_lets
  repeat' first
    | with_reducible assumption | with_reducible exact ha.sub rfl | with_reducible exact still_rfl
    | (with_reducible apply Lit.mk <;> first | exact same_may rfl | with_reducible exact same_rfl)
    | with_reducible apply keeps_Dev_triggerNext | extract_lets | split
    | (simp only [↓inv_mk]; with_reducible apply inv_parts ha)

theorem keeps_Dev_afterEdge {d0 : Dev} {x1 : Bool} {x2 : List Upset} (ha : Q.allows 3457512484857) (h0 : Inv Q d0) : Inv Q (Dev.afterEdge d0 x1 x2) := by
  unfold Dev.afterEdge
  try extract_lets
  repeat' first
    | with_reducible assumption | with_reducible exact ha.sub rfl | with_reducible apply keeps_Dev_syncEdge
    | with_reducible apply keeps_Dev_plugEdge | with_reducible apply keeps_Dev_headerHold
    | with_reducible apply keeps_Dev_stageEdge | with_reducible apply keeps_Dev_depositEdge
    | with_reducible apply keeps_Dev_calBoundary | with_reducible apply keeps_Dev_idleEdge
    | with_reducible apply keeps_Dev_benNote | with_reducible apply keeps_Dev_kPump
    | with_reducible apply keeps_Dev_endClose | with_reducible apply keeps_Dev_noteDepth
    | with_reducible apply keeps_Dev_designate | extract_lets | split | dsimp +zetaDelta only

theorem keeps_Dev_atEdge {d0 : Dev} {x1 : Nat} (ha : Q.allows 137506062344) (h0 : Inv Q d0) : Inv Q (Dev.atEdge d0 x1) := by
  unfold Dev.atEdge
  try extract_lets
  repeat' first
    | with_reducible assumption | with_reducible exact ha.sub rfl | exact same_may rfl | with_reducible exact same_rfl
    | with_reducible apply keeps_Dev_setTop

theorem keeps_Dev_edgeTime {d0 : Dev} (ha : Q.allows 123240477) (h0 : Inv Q d0) : Inv Q (Dev.edgeTime d0) := by
  unfold Dev.edgeTime
  try extract_lets
  repeat' first
    | with_reducible assumption | with_reducible exact ha.sub rfl | exact same_may rfl | with_reducible exact same_rfl
    | with_reducible apply keeps_Dev_timeEdge | with_reducible apply keeps_Dev_setTop | split

theorem keeps_Dev_calEdge {d0 : Dev} {x1 : Bool} (ha : Q.allows 2048) (h0 : Inv Q d0) : Inv Q (Dev.calEdge d0 x1) := by
  unfold Dev.calEdge
  try extract_lets
  repeat' first
    | with_reducible assumption | with_reducible exact still_rfl
    | (with_reducible apply Lit.mk <;> first | exact same_may rfl | with_reducible exact same_rfl)
    | (simp only [↓inv_mk]; with_reducible apply inv_parts ha)

theorem keeps_Dev_ldgPoisoned {d0 : Dev} {x1 : Nat} (ha : Q.allows 55099481) (h0 : Inv Q d0) : Inv Q (Dev.ldgPoisoned d0 x1) := by
  unfold Dev.ldgPoisoned
  try extract_lets
  repeat' first
    | with_reducible assumption | with_reducible exact ha.sub rfl | with_reducible apply keeps_Dev_invalidate
    | with_reducible apply keeps_Dev_metSnapshot | split

theorem keeps_Dev_ldgEdge {d0 : Dev} {x1 : List Upset} (ha : Q.allows 55099481) (h0 : Inv Q d0) : Inv Q (Dev.ldgEdge d0 x1) := by
  unfold Dev.ldgEdge
  try extract_lets
  repeat' first
    | with_reducible assumption | with_reducible exact ha.sub rfl | with_reducible apply keeps_Dev_ldgApply
    | with_reducible apply keeps_Dev_ldgPoisoned | with_reducible apply keeps_Dev_upsetNotes | intro _ _ _
    | extract_lets | split | with_reducible apply inv_foldl

theorem keeps_Dev_edgeOpen {d0 : Dev} {x1 : Nat} {x2 : Bool} {x3 : Bool} {x4 : List Upset} (ha : Q.allows 2952915505149) (h0 : Inv Q d0) : Inv Q (Dev.edgeOpen d0 x1 x2 x3 x4) := by
  unfold Dev.edgeOpen
  try extract_lets
  repeat' first
    | with_reducible assumption | with_reducible exact ha.sub rfl | with_reducible apply keeps_Dev_handOverAll
    | with_reducible apply keeps_Dev_edgeRegs | with_reducible apply keeps_Dev_ldgEdge
    | with_reducible apply keeps_Dev_calEdge | with_reducible apply keeps_Dev_edgeTime
    | with_reducible apply keeps_Dev_atEdge | with_reducible apply keeps_Dev_newTick
    | with_reducible apply keeps_Dev_hostAbort | with_reducible apply keeps_Dev_endStroke | extract_lets | split

theorem keeps_Dev_edgeClose {x0 : List Upset} {x1 : Bool × Dev} (ha : Q.allows 3457512484857) (h1 : Inv2 Q (x1)) : Inv Q (Dev.edgeClose x0 x1) := by
  unfold Dev.edgeClose
  try extract_lets
  repeat' first
    | with_reducible assumption | with_reducible apply keeps_Dev_afterEdge | extract_lets
    | with_reducible apply inv_snd

theorem keeps_Dev_edge {d0 : Dev} {x1 : Nat} {x2 : List Upset} (ha : Q.allows 4052435861501) (h0 : Inv Q d0) : Inv Q (Dev.edge d0 x1 x2) := by
  unfold Dev.edge
  try extract_lets
  repeat' first
    | with_reducible assumption | with_reducible exact ha.sub rfl | with_reducible apply keeps_Dev_edgeClose
    | with_reducible apply keeps_Dev_decideEdge | with_reducible apply keeps_Dev_edgeOpen
    | with_reducible apply keeps_Dev_reach

theorem keeps_Dev_firstEdge {d0 : Dev} (ha : Q.allows 3466172674045) (h0 : Inv Q d0) : Inv Q (Dev.firstEdge d0) := by
  unfold Dev.firstEdge
  try extract_lets
  repeat' first
    | with_reducible assumption | with_reducible exact ha.sub rfl | with_reducible exact still_rfl
    | (with_reducible apply Lit.mk <;> first | exact same_may rfl | with_reducible exact same_rfl)
    | exact same_may rfl | with_reducible exact same_rfl | with_reducible apply keeps_Dev_setTop
    | with_reducible apply keeps_Dev_afterEdge | with_reducible apply keeps_Dev_wr
    | with_reducible apply keeps_Dev_edgeRegs | extract_lets
    | (simp only [↓inv_mk]; with_reducible apply inv_parts ha) | dsimp +zetaDelta only

theorem keeps_tickEdge {x0 : List Upset} {d1 : Dev} (ha : Q.allows 4052435861501) (h1 : Inv Q d1) : Inv Q (tickEdge x0 d1) := by
  unfold tickEdge
  try extract_lets
  repeat' first
    | with_reducible assumption | with_reducible exact ha.sub rfl | with_reducible apply keeps_Dev_firstEdge
    | with_reducible apply keeps_Dev_lossCheck | with_reducible apply keeps_Dev_reach
    | with_reducible apply keeps_Dev_edge | with_reducible apply keeps_sealWindowOpen | extract_lets | split

theorem keeps_arm {x0 : Nat} {d1 : Dev} (ha : Q.allows 55083165) (h1 : Inv Q d1) : Inv Q (arm x0 d1) := by
  unfold arm
  try extract_lets
  repeat' first
    | with_reducible assumption | with_reducible exact ha.sub rfl | with_reducible exact same_rfl
    | with_reducible apply keeps_Dev_after | with_reducible apply keeps_Dev_orderReplay
    | with_reducible apply keeps_Dev_setRa | split

theorem keeps_strikeOkRise {x0 : Nat} {d1 : Dev} (ha : Q.allows 4295000708) (h1 : Inv Q d1) : Inv Q (strikeOkRise x0 d1) := by
  unfold strikeOkRise
  try extract_lets
  repeat' first
    | with_reducible assumption | with_reducible exact ha.sub rfl | exact same_may rfl | with_reducible exact same_rfl
    | with_reducible apply keeps_Dev_after | with_reducible apply keeps_Dev_setRa
    | with_reducible apply keeps_Dev_setStg | split

end Sys2Proof.Laws
end

