-- ==== Sys2Proof/Laws/Keeps/HostRead.lean ====
section
/-!
SUPPORT. What HostRead does keeps the invariant.
-/
namespace Sys2Proof.Laws
open Sys2Proof Sys2Proof.Machine
set_option linter.unusedVariables false
variable {Q : Scope}

theorem keeps_Dev_latchAll {d0 : Dev} {x1 : List Nat} (ha : Q.allows 16809987) (h0 : Inv Q d0) : Inv Q (Dev.latchAll d0 x1) := by
  unfold Dev.latchAll
  try extract_lets
  repeat' first
    | with_reducible assumption | with_reducible exact still_rfl
    | (with_reducible apply Lit.mk <;> first | exact same_may rfl | with_reducible exact same_rfl)
    | (simp only [↓inv_mk]; with_reducible apply inv_parts ha)

theorem keeps_Dev_clearRead {d0 : Dev} {x1 : Nat} (ha : Q.allows 1) (h0 : Inv Q d0) : Inv Q (Dev.clearRead d0 x1) := by
  unfold Dev.clearRead
  try extract_lets
  repeat' first
    | with_reducible assumption | with_reducible apply keeps_Dev_wr | split

theorem keeps_Dev_readWordAt {d0 : Dev} {x1 : Nat} (ha : Q.allows 17858571) (h0 : Inv Q d0) : Inv2 Q (Dev.readWordAt d0 x1) := by
  unfold Dev.readWordAt
  try extract_lets
  repeat' first
    | with_reducible assumption | with_reducible exact ha.sub rfl | with_reducible apply keeps_Dev_draw
    | with_reducible apply keeps_Dev_txqTake | with_reducible apply keeps_Dev_clearRead
    | with_reducible apply keeps_Dev_latchAll | extract_lets | split | with_reducible apply inv2_mk
    | with_reducible refine inv_eq2 (by assumption) ?_

theorem keeps_Dev_hostRead {d0 : Dev} {x1 : Nat} {x2 : Nat} (ha : Q.allows 17858571) (h0 : Inv Q d0) : Inv Q (Dev.hostRead d0 x1 x2) := by
  unfold Dev.hostRead
  try extract_lets
  repeat' first
    | with_reducible assumption | with_reducible exact ha.sub rfl | with_reducible apply keeps_Dev_readWordAt
    | with_reducible apply keeps_Dev_answer | extract_lets | split | with_reducible apply inv_snd

theorem keeps_latchingRead {x0 : Nat} {x1 : Nat} {x2 : Nat} {d3 : Dev} (ha : Q.allows 17858575) (h3 : Inv Q d3) : Inv Q (latchingRead x0 x1 x2 d3) := by
  unfold latchingRead
  try extract_lets
  repeat' first
    | with_reducible assumption | with_reducible exact ha.sub rfl | with_reducible apply keeps_Dev_after
    | with_reducible apply keeps_Dev_hostRead | split

theorem keeps_clearOnRead {x0 : Nat} {x1 : Nat} {x2 : Nat} {d3 : Dev} (ha : Q.allows 17858575) (h3 : Inv Q d3) : Inv Q (clearOnRead x0 x1 x2 d3) := by
  unfold clearOnRead
  try extract_lets
  repeat' first
    | with_reducible assumption | with_reducible exact ha.sub rfl | with_reducible apply keeps_Dev_after
    | with_reducible apply keeps_Dev_hostRead | split

theorem keeps_ldgLayerRead {x0 : Option Nat} {x1 : Nat} {d2 : Dev} (ha : Q.allows 17858575) (h2 : Inv Q d2) : Inv Q (ldgLayerRead x0 x1 d2) := by
  unfold ldgLayerRead
  try extract_lets
  repeat' first
    | with_reducible assumption | with_reducible exact ha.sub rfl | with_reducible apply keeps_Dev_after
    | with_reducible apply keeps_Dev_hostRead | split

theorem keeps_Dev_putTelem {d0 : Dev} {x1 : Nat} {x2 : Nat} {x3 : List Byte} (ha : Q.allows 21528601) (h0 : Inv Q d0) : Inv Q (Dev.putTelem d0 x1 x2 x3) := by
  unfold Dev.putTelem
  try extract_lets
  repeat' first
    | with_reducible assumption | with_reducible exact ha.sub rfl | with_reducible apply keeps_Dev_putOrLose
    | with_reducible apply keeps_Dev_countSlot

theorem keeps_Dev_telemTile {d0 : Dev} {x1 : Nat} (ha : Q.allows 21528857) (h0 : Inv Q d0) : Inv Q (Dev.telemTile d0 x1) := by
  unfold Dev.telemTile
  try extract_lets
  repeat' first
    | with_reducible assumption | with_reducible exact ha.sub rfl | with_reducible apply keeps_Dev_setTile
    | with_reducible apply keeps_Dev_putTelem

theorem keeps_Dev_telemLedger {d0 : Dev} {x1 : Nat} (ha : Q.allows 21528601) (h0 : Inv Q d0) : Inv Q (Dev.telemLedger d0 x1) := by
  unfold Dev.telemLedger
  try extract_lets
  repeat' first
    | with_reducible assumption | with_reducible apply keeps_Dev_putTelem

theorem keeps_telemetryPeriod {d0 : Dev} (ha : Q.allows 17201398041) (h0 : Inv Q d0) : Inv Q (telemetryPeriod d0) := by
  unfold telemetryPeriod
  try extract_lets
  repeat' first
    | with_reducible assumption | with_reducible exact ha.sub rfl | with_reducible exact still_rfl
    | (with_reducible apply Lit.mk <;> first | exact same_may rfl | with_reducible exact same_rfl)
    | with_reducible apply keeps_Dev_telemTile | with_reducible apply keeps_Dev_putTelem
    | with_reducible apply keeps_Dev_telemLedger | intro _ _ _ | extract_lets | split
    | (simp only [↓inv_mk]; with_reducible apply inv_parts ha) | with_reducible apply inv_foldl
    | dsimp +zetaDelta only

end Sys2Proof.Laws
end

