-- ==== Sys2Proof/Laws/Keeps/Reset.lean ====
section
/-!
SUPPORT. What Reset does keeps the invariant.
-/
namespace Sys2Proof.Laws
open Sys2Proof Sys2Proof.Machine
set_option linter.unusedVariables false
variable {Q : Scope}

theorem keeps_Dev_otherParts {d : Dev} {keep : Nat → Bool} (ha : Q.allows 8520225259519) (h : Inv Q d) :
    Inv Q (d.otherParts keep) :=
  ⟨Q.rfFilter _ _ h.1, Q.hbmNil, Q.steady d.saf _ (still_same rfl rfl rfl) h.3,
    by constructor <;> first | exact .inl (ha.bit rfl) | exact h.4.outs | exact h.4.log | exact h.4.otp | exact h.4.comm | exact h.4.ident | exact h.4.power⟩

theorem keeps_Dev_mainReset {d0 : Dev} (ha : Q.allows 8795153498111) (h0 : Inv Q d0) : Inv Q (Dev.mainReset d0) := by
  unfold Dev.mainReset
  try extract_lets
  repeat' first
    | with_reducible assumption | with_reducible exact ha.sub rfl | with_reducible exact still_rfl
    | (with_reducible apply Lit.mk <;> first | exact same_may rfl | with_reducible exact same_rfl)
    | with_reducible apply keeps_Dev_otherParts | with_reducible apply keeps_Dev_metMainReset
    | (simp only [↓inv_mk]; with_reducible apply inv_parts ha)

theorem keeps_mainRailFail {x0 : Nat} {d1 : Dev} (ha : Q.allows 8795153498111) (h1 : Inv Q d1) : Inv Q (mainRailFail x0 d1) := by
  unfold mainRailFail
  try extract_lets
  repeat' first
    | with_reducible assumption | with_reducible exact ha.sub rfl | with_reducible apply keeps_Dev_mainReset
    | with_reducible apply keeps_Dev_after

theorem keeps_Dev_deviceReset {d0 : Dev} {x1 : Nat} (ha : Q.allows 8520275591167) (h0 : Inv Q d0) : Inv Q (Dev.deviceReset d0 x1) := by
  unfold Dev.deviceReset
  try extract_lets
  repeat' first
    | with_reducible assumption | with_reducible exact ha.sub rfl | with_reducible exact still_rfl
    | (with_reducible apply Lit.mk <;> first | exact same_may rfl | with_reducible exact same_rfl)
    | with_reducible apply keeps_Dev_otherParts | with_reducible apply keeps_Dev_metMainReset
    | with_reducible apply keeps_Dev_wr
    | (simp only [↓inv_mk]; with_reducible apply inv_parts ha)

theorem keeps_Dev_startUp {d0 : Dev} {x1 : Nat} {x2 : Option (Nat × Nat)} (ha : Q.allows 274945015817) (h0 : Inv Q d0) : Inv Q (Dev.startUp d0 x1 x2) := by
  unfold Dev.startUp
  try extract_lets
  repeat' first
    | with_reducible assumption | with_reducible exact ha.sub rfl | with_reducible exact still_rfl
    | (with_reducible apply Lit.mk <;> first | exact same_may rfl | with_reducible exact same_rfl)
    | with_reducible apply keeps_Dev_wr | with_reducible apply keeps_Dev_set | extract_lets
    | (simp only [↓inv_mk]; with_reducible apply inv_parts ha)
    | dsimp +zetaDelta only

theorem keeps_mainPorRelease {x0 : Nat} {x1 : Option (Nat × Nat)} {x2 : Nat} {d3 : Dev} (ha : Q.allows 274945048589) (h3 : Inv Q d3) : Inv Q (mainPorRelease x0 x1 x2 d3) := by
  unfold mainPorRelease
  try extract_lets
  repeat' first
    | with_reducible assumption | with_reducible exact ha.sub rfl | with_reducible exact still_rfl
    | (with_reducible apply Lit.mk <;> first | exact same_may rfl | with_reducible exact same_rfl)
    | with_reducible apply keeps_Dev_after | with_reducible apply keeps_Dev_startUp | extract_lets | split
    | (simp only [↓inv_mk]; with_reducible apply inv_parts ha)
    | dsimp +zetaDelta only

theorem keeps_sysRstNRise {x0 : Nat} {x1 : Option (Nat × Nat)} {x2 : Nat} {d3 : Dev} (ha : Q.allows 274945048589) (h3 : Inv Q d3) : Inv Q (sysRstNRise x0 x1 x2 d3) := by
  unfold sysRstNRise
  try extract_lets
  repeat' first
    | with_reducible assumption | with_reducible exact ha.sub rfl | with_reducible exact still_rfl
    | (with_reducible apply Lit.mk <;> first | exact same_may rfl | with_reducible exact same_rfl)
    | with_reducible apply keeps_Dev_after | with_reducible apply keeps_Dev_startUp | extract_lets | split
    | (simp only [↓inv_mk]; with_reducible apply inv_parts ha)
    | dsimp +zetaDelta only

theorem keeps_deviceReset {x0 : Nat} {d1 : Dev} (ha : Q.allows 8795153498111) (h1 : Inv Q d1) : Inv Q (deviceReset x0 d1) := by
  unfold deviceReset
  try extract_lets
  repeat' first
    | with_reducible assumption | with_reducible exact ha.sub rfl | with_reducible exact still_rfl
    | (with_reducible apply Lit.mk <;> first | exact same_may rfl | with_reducible exact same_rfl)
    | with_reducible apply keeps_Dev_after | with_reducible apply keeps_Dev_deviceReset | split
    | (simp only [↓inv_mk]; with_reducible apply inv_parts ha)
    | dsimp +zetaDelta only

theorem keeps_Dev_topReset {d0 : Dev} {x1 : Nat} {x2 : Option (Nat × Nat)} (ha : Q.allows 8795153498111) (h0 : Inv Q d0) : Inv Q (Dev.topReset d0 x1 x2) := by
  unfold Dev.topReset
  try extract_lets
  repeat' first
    | with_reducible assumption | with_reducible exact ha.sub rfl | with_reducible apply keeps_Dev_startUp
    | with_reducible apply keeps_Dev_deviceReset | split

theorem keeps_topReset {x0 : Nat} {x1 : Option (Nat × Nat)} {x2 : Nat} {d3 : Dev} (ha : Q.allows 8795153498111) (h3 : Inv Q d3) : Inv Q (topReset x0 x1 x2 d3) := by
  unfold topReset
  try extract_lets
  repeat' first
    | with_reducible assumption | with_reducible exact ha.sub rfl | with_reducible apply keeps_Dev_topReset
    | with_reducible apply keeps_Dev_after

theorem keeps_Dev_dropOwn {d0 : Dev} (ha : Q.allows 1116691515448) (h0 : Inv Q d0) : Inv Q (Dev.dropOwn d0) := by
  unfold Dev.dropOwn
  try extract_lets
  repeat' first
    | with_reducible assumption | with_reducible exact still_rfl
    | (with_reducible apply Lit.mk <;> first | exact same_may rfl | with_reducible exact same_rfl) | extract_lets
    | split | (simp only [↓inv_mk]; with_reducible apply inv_parts ha)
    | dsimp +zetaDelta only

theorem keeps_Dev_resetRings {d0 : Dev} {x1 : List (Nat × Nat)} (ha : Q.allows 4518305595409) (h0 : Inv Q d0) : Inv Q (Dev.resetRings d0 x1) := by
  unfold Dev.resetRings
  try extract_lets
  repeat' first
    | with_reducible assumption | with_reducible exact ha.sub rfl | with_reducible exact still_rfl
    | (with_reducible apply Lit.mk <;> first | exact same_may rfl | with_reducible exact same_rfl)
    | with_reducible apply keeps_Dev_wr | intro _ _ _ | extract_lets
    | (simp only [↓inv_mk]; first | with_reducible apply inv_parts ha | with_reducible apply inv_filter ha)
    | with_reducible apply inv_foldl | dsimp +zetaDelta only

theorem keeps_Dev_loseEntries {d0 : Dev} (ha : Q.allows 32) (h0 : Inv Q d0) : Inv Q (Dev.loseEntries d0) := by
  unfold Dev.loseEntries
  try extract_lets
  repeat' first
    | with_reducible assumption | with_reducible exact still_rfl
    | (with_reducible apply Lit.mk <;> first | exact same_may rfl | with_reducible exact same_rfl)
    | (simp only [↓inv_mk]; with_reducible apply inv_parts ha)

theorem keeps_Dev_abortFor {d0 : Dev} {x1 : Bool} (ha : Q.allows 549755813896) (h0 : Inv Q d0) : Inv Q (Dev.abortFor d0 x1) := by
  unfold Dev.abortFor
  try extract_lets
  repeat' first
    | with_reducible assumption | with_reducible exact ha.sub rfl | exact same_may rfl | with_reducible exact same_rfl
    | with_reducible apply keeps_Dev_setTop | split

theorem keeps_Dev_hostResetWith {d0 : Dev} {x1 : List (Nat × Nat)} {x2 : Nat} {x3 : Nat} (ha : Q.allows 6168702011449) (h0 : Inv Q d0) : Inv Q (Dev.hostResetWith d0 x1 x2 x3) := by
  unfold Dev.hostResetWith
  try extract_lets
  repeat' first
    | with_reducible assumption | with_reducible exact ha.sub rfl | with_reducible apply keeps_Dev_abortFor
    | with_reducible apply keeps_Dev_engReset | with_reducible apply keeps_Dev_endSession
    | with_reducible apply keeps_Dev_loseEntries | with_reducible apply keeps_Dev_resetRings
    | with_reducible apply keeps_Dev_dropOwn | with_reducible apply keeps_Dev_wr

theorem keeps_Dev_hostReset {d0 : Dev} {x1 : Nat} {x2 : Nat} (ha : Q.allows 6168702011449) (h0 : Inv Q d0) : Inv Q (Dev.hostReset d0 x1 x2) := by
  unfold Dev.hostReset
  try extract_lets
  repeat' first
    | with_reducible assumption | with_reducible apply keeps_Dev_hostResetWith

theorem keeps_Dev_hostResetAny {d0 : Dev} {x1 : Nat} {x2 : Nat} (ha : Q.allows 6168702011449) (h0 : Inv Q d0) : Inv Q (Dev.hostResetAny d0 x1 x2) := by
  unfold Dev.hostResetAny
  try extract_lets
  repeat' first
    | with_reducible assumption | with_reducible exact ha.sub rfl | with_reducible apply keeps_Dev_wr
    | with_reducible apply keeps_Dev_hostReset | split

theorem keeps_perstNRise {x0 : Nat} {d1 : Dev} (ha : Q.allows 68719509524) (h1 : Inv Q d1) : Inv Q (perstNRise x0 d1) := by
  unfold perstNRise
  try extract_lets
  repeat' first
    | with_reducible assumption | with_reducible exact ha.sub rfl | with_reducible exact still_rfl
    | (with_reducible apply Lit.mk <;> first | exact same_may rfl | with_reducible exact same_rfl)
    | with_reducible apply keeps_Dev_after
    | (simp only [↓inv_mk]; with_reducible apply inv_parts ha)

theorem keeps_hostInterfaceReset {x0 : Nat} {x1 : Nat} {d2 : Dev} (ha : Q.allows 6168702011453) (h2 : Inv Q d2) : Inv Q (hostInterfaceReset x0 x1 d2) := by
  unfold hostInterfaceReset
  try extract_lets
  repeat' first
    | with_reducible assumption | with_reducible exact ha.sub rfl | with_reducible exact still_rfl
    | (with_reducible apply Lit.mk <;> first | exact same_may rfl | with_reducible exact same_rfl)
    | with_reducible apply keeps_Dev_after | with_reducible apply keeps_Dev_hostResetAny
    | (simp only [↓inv_mk]; with_reducible apply inv_parts ha)

theorem keeps_functionLevelReset {x0 : Nat} {d1 : Dev} (ha : Q.allows 6168702011453) (h1 : Inv Q d1) : Inv Q (functionLevelReset x0 d1) := by
  unfold functionLevelReset
  try extract_lets
  repeat' first
    | with_reducible assumption | with_reducible exact ha.sub rfl | with_reducible apply keeps_Dev_after
    | with_reducible apply keeps_Dev_hostResetAny | split

theorem keeps_d3hotTransition {x0 : Bool} {x1 : Nat} {d2 : Dev} (ha : Q.allows 6168702011453) (h2 : Inv Q d2) : Inv Q (d3hotTransition x0 x1 d2) := by
  unfold d3hotTransition
  try extract_lets
  repeat' first
    | with_reducible assumption | with_reducible exact ha.sub rfl | with_reducible exact still_rfl
    | (with_reducible apply Lit.mk <;> first | exact same_may rfl | with_reducible exact same_rfl)
    | with_reducible apply keeps_Dev_after | with_reducible apply keeps_Dev_hostResetAny | extract_lets | split
    | (simp only [↓inv_mk]; with_reducible apply inv_parts ha)

end Sys2Proof.Laws
end

