-- ==== Sys2Proof/Laws/Keeps/HostWrite.lean ====
section
/-!
SUPPORT. What HostWrite does keeps the invariant.
-/
namespace Sys2Proof.Laws
open Sys2Proof Sys2Proof.Machine
set_option linter.unusedVariables false
variable {Q : Scope}

theorem keeps_Dev_storeWord {d0 : Dev} {x1 : Nat} {x2 : Nat} (ha : Q.allows 1) (h0 : Inv Q d0) : Inv Q (Dev.storeWord d0 x1 x2) := by
  unfold Dev.storeWord
  try extract_lets
  repeat' first
    | with_reducible assumption | with_reducible apply keeps_Dev_wr | split

theorem keeps_Dev_writeTop {d0 : Dev} {x1 : Nat} {x2 : Nat} (ha : Q.allows 8795153498111) (h0 : Inv Q d0) : OptInv Q (Dev.writeTop d0 x1 x2) := by
  unfold Dev.writeTop
  try extract_lets
  repeat' first
    | with_reducible assumption | with_reducible exact ha.sub rfl | with_reducible apply keeps_Dev_topReset
    | with_reducible apply keeps_Dev_wr | split | with_reducible apply optInv_some | with_reducible exact optInv_none

theorem keeps_Dev_writeRing {d0 : Dev} {x1 : Nat} {x2 : Nat} {x3 : Nat} (ha : Q.allows 17234952249) (h0 : Inv Q d0) : OptInv Q (Dev.writeRing d0 x1 x2 x3) := by
  unfold Dev.writeRing
  try extract_lets
  repeat' first
    | with_reducible assumption | with_reducible exact ha.sub rfl | with_reducible apply keeps_Dev_ringEnable
    | with_reducible apply keeps_Dev_ringDisable | with_reducible apply keeps_Dev_set | split
    | with_reducible apply optInv_some | with_reducible exact optInv_none

theorem keeps_Dev_writeCpe {d0 : Dev} {x1 : Nat} {x2 : Nat} {x3 : Nat} (ha : Q.allows 17235083289) (h0 : Inv Q d0) : OptInv Q (Dev.writeCpe d0 x1 x2 x3) := by
  unfold Dev.writeCpe
  try extract_lets
  repeat' first
    | with_reducible assumption | with_reducible exact ha.sub rfl | with_reducible apply keeps_Dev_abortChan
    | with_reducible apply keeps_Dev_restart | with_reducible apply keeps_Dev_storeWord
    | with_reducible apply keeps_Dev_setChan | split | with_reducible apply optInv_some
    | with_reducible exact optInv_none

theorem keeps_Dev_pairAt {d : Dev} {hi v : Nat} {f : Dev → Nat → Dev} (ha : Q.allows 1) (h : Inv Q d)
    (hf : ∀ d w, Inv Q d → Inv Q (f d w)) : Inv Q (d.pairAt hi v f) := hf _ _ (keeps_Dev_storeWord (ha.sub rfl) h)

theorem keeps_Dev_writeThr {d0 : Dev} {x1 : Nat} {x2 : Nat} {x3 : Nat} (ha : Q.allows 17234952249) (h0 : Inv Q d0) : OptInv Q (Dev.writeThr d0 x1 x2 x3) := by
  unfold Dev.writeThr
  try extract_lets
  repeat' first
    | with_reducible assumption | with_reducible exact ha.sub rfl | with_reducible exact still_rfl
    | (with_reducible apply Lit.mk <;> first | exact same_may rfl | with_reducible exact same_rfl)
    | with_reducible apply keeps_Dev_storeWord | with_reducible apply keeps_Dev_thrReinstate
    | with_reducible apply keeps_Dev_thrEnable | with_reducible apply keeps_Dev_thrDisable
    | with_reducible apply keeps_Dev_pairAt | intro _ _ _ | extract_lets | split
    | (simp only [↓inv_mk]; with_reducible apply inv_parts ha) | with_reducible apply optInv_some
    | with_reducible exact optInv_none | dsimp +zetaDelta only

theorem keeps_Dev_writeTil {d0 : Dev} {x1 : Nat} {x2 : Nat} {x3 : Nat} (ha : Q.allows 55083161) (h0 : Inv Q d0) : OptInv Q (Dev.writeTil d0 x1 x2 x3) := by
  unfold Dev.writeTil
  try extract_lets
  repeat' first
    | with_reducible assumption | with_reducible exact ha.sub rfl | with_reducible exact still_rfl
    | (with_reducible apply Lit.mk <;> first | exact same_may rfl | with_reducible exact same_rfl)
    | with_reducible apply keeps_Dev_colEnable | with_reducible apply keeps_Dev_shadowWrite
    | with_reducible apply keeps_Dev_pairAt | with_reducible apply keeps_Dev_healthCommit | intro _ _ _ | extract_lets
    | split | (simp only [↓inv_mk]; with_reducible apply inv_parts ha) | with_reducible apply optInv_some
    | with_reducible exact optInv_none

theorem keeps_Dev_heatDue {d0 : Dev} {x1 : Nat} {x2 : Nat} {x3 : Nat} (ha : Q.allows 1025) (h0 : Inv Q d0) : Inv Q (Dev.heatDue d0 x1 x2 x3) := by
  unfold Dev.heatDue
  try extract_lets
  repeat' first
    | with_reducible assumption | with_reducible exact ha.sub rfl | with_reducible exact still_rfl
    | (with_reducible apply Lit.mk <;> first | exact same_may rfl | with_reducible exact same_rfl)
    | with_reducible apply keeps_Dev_storeWord | (simp only [↓inv_mk]; with_reducible apply inv_parts ha)

theorem keeps_Dev_writeHeat {d0 : Dev} {x1 : Nat} {x2 : Nat} {x3 : Nat} (ha : Q.allows 55411737) (h0 : Inv Q d0) : OptInv Q (Dev.writeHeat d0 x1 x2 x3) := by
  unfold Dev.writeHeat
  try extract_lets
  repeat' first
    | with_reducible assumption | with_reducible exact ha.sub rfl | with_reducible exact still_rfl
    | (with_reducible apply Lit.mk <;> first | exact same_may rfl | with_reducible exact same_rfl)
    | with_reducible apply keeps_Dev_storeWord | with_reducible apply keeps_Dev_set
    | with_reducible apply keeps_Dev_heatDue | with_reducible apply keeps_Dev_pairAt
    | with_reducible apply keeps_Dev_ftabCommit | intro _ _ _ | extract_lets | split
    | (simp only [↓inv_mk]; with_reducible apply inv_parts ha) | with_reducible apply optInv_some
    | with_reducible exact optInv_none

theorem keeps_Dev_writeCam {d0 : Dev} {x1 : Nat} {x2 : Nat} {x3 : Nat} (ha : Q.allows 55088153) (h0 : Inv Q d0) : OptInv Q (Dev.writeCam d0 x1 x2 x3) := by
  unfold Dev.writeCam
  try extract_lets
  repeat' first
    | with_reducible assumption | with_reducible exact ha.sub rfl | with_reducible apply keeps_Dev_set
    | with_reducible apply keeps_Dev_camEnable | with_reducible apply keeps_Dev_camDisable
    | with_reducible apply keeps_Dev_pqPush | split | with_reducible apply optInv_some
    | with_reducible exact optInv_none

theorem keeps_Dev_writeHead {d0 : Dev} {x1 : Nat} {x2 : Nat} {x3 : Nat} (ha : Q.allows 16777473) (h0 : Inv Q d0) : OptInv Q (Dev.writeHead d0 x1 x2 x3) := by
  unfold Dev.writeHead
  try extract_lets
  repeat' first
    | with_reducible assumption | with_reducible exact ha.sub rfl | with_reducible apply keeps_Dev_storeWord
    | with_reducible apply keeps_Dev_reident | with_reducible apply keeps_Dev_retrain
    | with_reducible apply keeps_Dev_eyeStart | with_reducible apply keeps_Dev_wr | extract_lets | split
    | with_reducible apply optInv_some | with_reducible exact optInv_none | dsimp +zetaDelta only

theorem keeps_Dev_writeCal {d0 : Dev} {x1 : Nat} {x2 : Nat} {x3 : Nat} (ha : Q.allows 2049) (h0 : Inv Q d0) : OptInv Q (Dev.writeCal d0 x1 x2 x3) := by
  unfold Dev.writeCal
  try extract_lets
  repeat' first
    | with_reducible assumption | with_reducible exact ha.sub rfl | with_reducible exact still_rfl
    | (with_reducible apply Lit.mk <;> first | exact same_may rfl | with_reducible exact same_rfl)
    | with_reducible apply keeps_Dev_storeWord | with_reducible apply keeps_Dev_setCalTile
    | with_reducible apply keeps_Dev_pairAt | intro _ _ _ | extract_lets | split
    | (simp only [↓inv_mk]; with_reducible apply inv_parts ha) | with_reducible apply optInv_some
    | with_reducible exact optInv_none

theorem keeps_Dev_writeStg {d0 : Dev} {x1 : Nat} {x2 : Nat} {x3 : Nat} (ha : Q.allows 513) (h0 : Inv Q d0) : OptInv Q (Dev.writeStg d0 x1 x2 x3) := by
  unfold Dev.writeStg
  try extract_lets
  repeat' first
    | with_reducible assumption | with_reducible exact ha.sub rfl | with_reducible exact same_rfl
    | with_reducible apply keeps_Dev_storeWord | with_reducible apply keeps_Dev_setStg
    | with_reducible apply keeps_Dev_set | split | with_reducible apply optInv_some

theorem keeps_Dev_writeHbm {d0 : Dev} {x1 : Nat} {x2 : Nat} (ha : Q.allows 55345181) (h0 : Inv Q d0) : OptInv Q (Dev.writeHbm d0 x1 x2) := by
  unfold Dev.writeHbm
  try extract_lets
  repeat' first
    | with_reducible assumption | with_reducible exact ha.sub rfl | with_reducible apply keeps_Dev_hbmCfg
    | with_reducible apply keeps_arbCommit | split | with_reducible apply optInv_some
    | with_reducible exact optInv_none

theorem keeps_Dev_writeEcc {d0 : Dev} {x1 : Nat} {x2 : Nat} {x3 : Nat} (ha : Q.allows 262145) (h0 : Inv Q d0) : OptInv Q (Dev.writeEcc d0 x1 x2 x3) := by
  unfold Dev.writeEcc
  try extract_lets
  repeat' first
    | with_reducible assumption | with_reducible exact ha.sub rfl | with_reducible exact still_rfl
    | (with_reducible apply Lit.mk <;> first | exact same_may rfl | with_reducible exact same_rfl)
    | with_reducible apply keeps_Dev_storeWord | extract_lets | split
    | (simp only [↓inv_mk]; with_reducible apply inv_parts ha) | with_reducible apply optInv_some
    | with_reducible exact optInv_none | dsimp +zetaDelta only

theorem keeps_Dev_writeKry {d0 : Dev} {x1 : Nat} {x2 : Nat} {x3 : Nat} (ha : Q.allows 2199086727197) (h0 : Inv Q d0) : OptInv Q (Dev.writeKry d0 x1 x2 x3) := by
  unfold Dev.writeKry
  try extract_lets
  repeat' first
    | with_reducible assumption | with_reducible exact ha.sub rfl | with_reducible apply keeps_Dev_kryCtl
    | with_reducible apply keeps_kryEyeScanStart | with_reducible apply keeps_Dev_storeWord
    | with_reducible apply keeps_kryConfirm | with_reducible apply keeps_kryReenum
    | with_reducible apply keeps_kryRouteCommit | extract_lets | split | with_reducible apply optInv_some
    | with_reducible exact optInv_none | dsimp +zetaDelta only

theorem keeps_Dev_writeTime {d0 : Dev} {x1 : Nat} {x2 : Nat} {x3 : Nat} (ha : Q.allows 56131613) (h0 : Inv Q d0) : OptInv Q (Dev.writeTime d0 x1 x2 x3) := by
  unfold Dev.writeTime
  try extract_lets
  repeat' first
    | with_reducible assumption | with_reducible exact ha.sub rfl | with_reducible apply keeps_holdoverEnter
    | with_reducible apply keeps_timeRateWrite | with_reducible apply keeps_timeSlewWrite
    | with_reducible apply keeps_timeStepArm | with_reducible apply keeps_ethTxGo
    | with_reducible apply keeps_Dev_rxFree | split | with_reducible apply optInv_some
    | with_reducible exact optInv_none

theorem keeps_Dev_writeGln {d0 : Dev} {x1 : Nat} {x2 : Nat} (ha : Q.allows 16809985) (h0 : Inv Q d0) : OptInv Q (Dev.writeGln d0 x1 x2) := by
  unfold Dev.writeGln
  try extract_lets
  repeat' first
    | with_reducible assumption | with_reducible exact ha.sub rfl | with_reducible apply keeps_Dev_glnCtl
    | with_reducible apply keeps_Dev_pmcCtl | split | with_reducible apply optInv_some
    | with_reducible exact optInv_none

theorem keeps_Dev_writeOwn {d0 : Dev} {x1 : Nat} {x2 : Nat} {x3 : Nat} {x4 : Nat} (ha : Q.allows 8795153498111) (h0 : Inv Q d0) : OptInv Q (Dev.writeOwn d0 x1 x2 x3 x4) := by
  unfold Dev.writeOwn
  try extract_lets
  repeat' first
    | with_reducible assumption | with_reducible exact ha.sub rfl | with_reducible apply keeps_Dev_writeTop
    | with_reducible apply keeps_Dev_writeRing | with_reducible apply keeps_Dev_writeCpe
    | with_reducible apply keeps_Dev_writeThr | with_reducible apply keeps_Dev_writeTil
    | with_reducible apply keeps_Dev_writeHeat | with_reducible apply keeps_Dev_writeCam
    | with_reducible apply keeps_Dev_writeHead | with_reducible apply keeps_Dev_writeCal
    | with_reducible apply keeps_Dev_writeStg | with_reducible apply keeps_Dev_writeHbm
    | with_reducible apply keeps_Dev_writeEcc | with_reducible apply keeps_Dev_writeKry
    | with_reducible apply keeps_Dev_writeTime | with_reducible apply keeps_Dev_writeGln | split
    | with_reducible exact optInv_none

theorem keeps_Dev_writeMsix {d0 : Dev} {x1 : Nat} {x2 : Nat} (ha : Q.allows 4398063288336) (h0 : Inv Q d0) : Inv Q (Dev.writeMsix d0 x1 x2) := by
  unfold Dev.writeMsix
  try extract_lets
  repeat' first
    | with_reducible assumption | with_reducible exact ha.sub rfl | with_reducible exact still_rfl
    | (with_reducible apply Lit.mk <;> first | exact same_may rfl | with_reducible exact same_rfl)
    | with_reducible apply keeps_Dev_msixRelease | extract_lets | split
    | (simp only [↓inv_mk]; with_reducible apply inv_parts ha) | dsimp +zetaDelta only

theorem keeps_Dev_writeEth {d0 : Dev} {x1 : Nat} {x2 : Nat} (ha : Q.allows 1048576) (h0 : Inv Q d0) : Inv Q (Dev.writeEth d0 x1 x2) := by
  unfold Dev.writeEth
  try extract_lets
  repeat' first
    | with_reducible assumption | with_reducible apply keeps_Dev_setTx | split

theorem keeps_Dev_writeWordAt {d0 : Dev} {x1 : Nat} {x2 : Nat} (ha : Q.allows 8795153498111) (h0 : Inv Q d0) : Inv Q (Dev.writeWordAt d0 x1 x2) := by
  unfold Dev.writeWordAt
  try extract_lets
  repeat' first
    | with_reducible assumption | with_reducible exact ha.sub rfl | with_reducible apply keeps_Dev_writeMsix
    | with_reducible apply keeps_Dev_writeEth | with_reducible apply keeps_Dev_writeOwn
    | with_reducible apply keeps_Dev_storeWord | split | with_reducible apply inv_getD

theorem keeps_registerWrite {x0 : Nat} {x1 : Nat} {x2 : Nat} {x3 : Nat} {d4 : Dev} (ha : Q.allows 8795153498111) (h4 : Inv Q d4) : Inv Q (registerWrite x0 x1 x2 x3 d4) := by
  unfold registerWrite
  try extract_lets
  repeat' first
    | with_reducible assumption | with_reducible exact ha.sub rfl | with_reducible apply keeps_Dev_after
    | with_reducible apply keeps_Dev_writeWordAt | split

end Sys2Proof.Laws
end

