-- ==== Sys2Proof/Laws/Scope.lean ====
section
/-!
SUPPORT. How the laws of what is kept are used: the scope that asks only for a frame, the scope of the canonical forms,
and what a frame says of the parts of the device.
-/
namespace Sys2Proof.Laws
open Sys2Proof Sys2Proof.Machine

/-- The scope that asks for nothing but the parts that may change. -/
def frameScope (m : Nat) (d : Dev) : Scope where
  saf := fun _ => True
  rf := fun _ => True
  hbm := fun _ => True
  may := m
  base := d
  steady := fun _ _ _ _ => trivial
  rfWr := fun _ _ _ _ => trivial
  rfFilter := fun _ _ _ => trivial
  hbmNil := trivial
  hbmDel := fun _ _ _ => trivial
  hbmIns := fun _ _ _ _ _ => trivial

theorem frame_refl (m : Nat) (d : Dev) : Frame m d d := by
  constructor <;> exact .inr rfl

theorem inv_frameScope (m : Nat) (d : Dev) : Inv (frameScope m d) d := ⟨trivial, trivial, trivial, frame_refl m d⟩

/-- The scope that asks for the canonical forms and a property of the safety partition. -/
def canonScope (P : Saf → Prop) (hP : Steady P) (d : Dev) : Scope where
  saf := P
  rf := rfOk
  hbm := hbmOk
  may := 2 ^ 43 - 1
  base := d
  steady := hP
  rfWr := fun _ a v h => rfOk_wr a v h
  rfFilter := fun _ p h => rfOk_filter p h
  hbmNil := hbmOk_nil
  hbmDel := fun _ _ h => hbmOk_del h
  hbmIns := fun _ _ _ hw h => hbmOk_ins hw h

theorem inv_canonScope {P : Saf → Prop} (hP : Steady P) {d : Dev} (h1 : rfOk d.rf) (h2 : hbmOk d.hbm) (h3 : P d.saf) :
    Inv (canonScope P hP d) d := ⟨h1, h2, h3, frame_refl _ d⟩

/-- The bit of a part in a mask. -/
def Part.bit : Part → Nat
  | .registers => 0
  | .latched => 1
  | .clock => 2
  | .top => 3
  | .hostIf => 4
  | .sheaf => 5
  | .ledger => 6
  | .runAhead => 7
  | .head => 8
  | .stage => 9
  | .heat => 10
  | .cal => 11
  | .cameras => 12
  | .safety => 13
  | .metrology => 14
  | .glean => 15
  | .hbm => 16
  | .engine => 17
  | .hbmCtl => 18
  | .krypel => 19
  | .time => 20
  | .panel => 21
  | .framesOut => 22
  | .framesIn => 23
  | .sent => 24
  | .events => 25
  | .tick => 26
  | .otp => 27
  | .commissioning => 28
  | .metIdentity => 29
  | .session => 30
  | .strokeProgress => 31
  | .stageOutputs => 32
  | .mode => 33
  | .commandQueues => 34
  | .authentication => 35
  | .link => 36
  | .nextEdge => 37
  | .power => 38
  | .causes => 39
  | .triggers => 40
  | .fabric => 41
  | .vectors => 42

/-- What a frame says of the parts outside a list that holds every part the mask lets change. -/
theorem Frame.only {m : Nat} {a b : Dev} {ps : List Part} (h : Frame m a b)
    (hm : ∀ p : Part, m.testBit (Part.bit p) = true → p ∈ ps) : OnlyChanges ps a b := by
  intro p hp
  have hb : ¬(m.testBit (Part.bit p) = true) := fun e => hp (hm p e)
  cases p
  · exact h.rf.resolve_left hb
  · exact h.latch.resolve_left hb
  · exact h.clk.resolve_left hb
  · exact h.top.resolve_left hb
  · exact h.host.resolve_left hb
  · exact h.sheaf.resolve_left hb
  · exact h.ldg.resolve_left hb
  · exact h.ra.resolve_left hb
  · exact h.head.resolve_left hb
  · exact h.stg.resolve_left hb
  · exact h.heat.resolve_left hb
  · exact h.cal.resolve_left hb
  · exact h.cams.resolve_left hb
  · exact h.saf.resolve_left hb
  · exact h.met.resolve_left hb
  · exact h.gln.resolve_left hb
  · exact h.hbm.resolve_left hb
  · exact h.eng.resolve_left hb
  · exact h.hbmc.resolve_left hb
  · exact h.kry.resolve_left hb
  · exact h.tim.resolve_left hb
  · exact h.pnl.resolve_left hb
  · exact h.kq.resolve_left hb
  · exact h.kin.resolve_left hb
  · exact h.outs.resolve_left hb
  · exact h.log.resolve_left hb
  · exact h.core.resolve_left hb
  · exact h.otp.resolve_left hb
  · exact h.comm.resolve_left hb
  · exact h.ident.resolve_left hb
  · exact h.sess.resolve_left hb
  · exact h.prog.resolve_left hb
  · exact h.stgOut.resolve_left hb
  · exact h.opMode.resolve_left hb
  · exact h.cmds.resolve_left hb
  · exact h.auth.resolve_left hb
  · exact h.lnk.resolve_left hb
  · exact h.nextE.resolve_left hb
  · exact h.power.resolve_left hb
  · exact h.causes.resolve_left hb
  · exact h.trigs.resolve_left hb
  · exact h.fabric.resolve_left hb
  · exact h.vecs.resolve_left hb

theorem allows_frame (m : Nat) (d : Dev) : (frameScope m d).allows m := Nat.and_self m

/-- Every part. -/
def allParts : List Part := [.registers, .latched, .clock, .top, .hostIf, .sheaf, .ledger, .runAhead, .head, .stage, .heat, .cal, .cameras, .safety, .metrology, .glean, .hbm, .engine, .hbmCtl, .krypel, .time, .panel, .framesOut, .framesIn, .sent, .events, .tick, .otp, .commissioning, .metIdentity, .session, .strokeProgress, .stageOutputs, .mode, .commandQueues, .authentication, .link, .nextEdge, .power, .causes, .triggers, .fabric, .vectors]

theorem mem_allParts (p : Part) : p ∈ allParts := by cases p <;> decide

/-- Whether a list holds every part that a mask lets change. -/
def covers (m : Nat) (ps : List Part) : Bool := allParts.all fun p => !m.testBit (Part.bit p) || ps.contains p

/-- What keeping a frame says of the parts outside a list. -/
theorem only_of_inv {m : Nat} {a b : Dev} {ps : List Part} (hc : covers m ps = true) (h : Inv (frameScope m a) b) :
    OnlyChanges ps a b := by
  refine h.frame.only fun p hp => ?_
  have := List.all_eq_true.mp hc p (mem_allParts p)
  have hp' : m.testBit (Part.bit p) = true := hp
  simpa [hp'] using this

end Sys2Proof.Laws
end

