-- ==== Sys2Proof/Laws/State.lean ====
section
/-!
SUPPORT. One lemma per part of the device per update: each update changes one part and leaves the others. A lemma is named
<update>_<part>.
-/
namespace Sys2Proof.Laws
open Sys2Proof Sys2Proof.Machine

/-! ### The state -/

theorem run_next (s : State) (f : Dev → Dev) : s.run f = .next { s with dev := f s.dev } := rfl

/-! ### Dev.wr -/

section
variable (d : Dev) (a v : Nat)
@[simp] theorem wr_latch : (d.wr a v).latch = d.latch := rfl
@[simp] theorem wr_clk : (d.wr a v).clk = d.clk := rfl
@[simp] theorem wr_top : (d.wr a v).top = d.top := rfl
@[simp] theorem wr_host : (d.wr a v).host = d.host := rfl
@[simp] theorem wr_sheaf : (d.wr a v).sheaf = d.sheaf := rfl
@[simp] theorem wr_ldg : (d.wr a v).ldg = d.ldg := rfl
@[simp] theorem wr_ra : (d.wr a v).ra = d.ra := rfl
@[simp] theorem wr_head : (d.wr a v).head = d.head := rfl
@[simp] theorem wr_stg : (d.wr a v).stg = d.stg := rfl
@[simp] theorem wr_heat : (d.wr a v).heat = d.heat := rfl
@[simp] theorem wr_cal : (d.wr a v).cal = d.cal := rfl
@[simp] theorem wr_cams : (d.wr a v).cams = d.cams := rfl
@[simp] theorem wr_saf : (d.wr a v).saf = d.saf := rfl
@[simp] theorem wr_met : (d.wr a v).met = d.met := rfl
@[simp] theorem wr_gln : (d.wr a v).gln = d.gln := rfl
@[simp] theorem wr_hbm : (d.wr a v).hbm = d.hbm := rfl
@[simp] theorem wr_eng : (d.wr a v).eng = d.eng := rfl
@[simp] theorem wr_hbmc : (d.wr a v).hbmc = d.hbmc := rfl
@[simp] theorem wr_kry : (d.wr a v).kry = d.kry := rfl
@[simp] theorem wr_tim : (d.wr a v).tim = d.tim := rfl
@[simp] theorem wr_pnl : (d.wr a v).pnl = d.pnl := rfl
@[simp] theorem wr_kq : (d.wr a v).kq = d.kq := rfl
@[simp] theorem wr_kin : (d.wr a v).kin = d.kin := rfl
@[simp] theorem wr_outs : (d.wr a v).outs = d.outs := rfl
@[simp] theorem wr_log : (d.wr a v).log = d.log := rfl
end

/-! ### Dev.set -/

section
variable (d : Dev) (a : Nat) (f : Fld) (v : Nat)
@[simp] theorem set_latch : (d.set a f v).latch = d.latch := rfl
@[simp] theorem set_clk : (d.set a f v).clk = d.clk := rfl
@[simp] theorem set_top : (d.set a f v).top = d.top := rfl
@[simp] theorem set_host : (d.set a f v).host = d.host := rfl
@[simp] theorem set_sheaf : (d.set a f v).sheaf = d.sheaf := rfl
@[simp] theorem set_ldg : (d.set a f v).ldg = d.ldg := rfl
@[simp] theorem set_ra : (d.set a f v).ra = d.ra := rfl
@[simp] theorem set_head : (d.set a f v).head = d.head := rfl
@[simp] theorem set_stg : (d.set a f v).stg = d.stg := rfl
@[simp] theorem set_heat : (d.set a f v).heat = d.heat := rfl
@[simp] theorem set_cal : (d.set a f v).cal = d.cal := rfl
@[simp] theorem set_cams : (d.set a f v).cams = d.cams := rfl
@[simp] theorem set_saf : (d.set a f v).saf = d.saf := rfl
@[simp] theorem set_met : (d.set a f v).met = d.met := rfl
@[simp] theorem set_gln : (d.set a f v).gln = d.gln := rfl
@[simp] theorem set_hbm : (d.set a f v).hbm = d.hbm := rfl
@[simp] theorem set_eng : (d.set a f v).eng = d.eng := rfl
@[simp] theorem set_hbmc : (d.set a f v).hbmc = d.hbmc := rfl
@[simp] theorem set_kry : (d.set a f v).kry = d.kry := rfl
@[simp] theorem set_tim : (d.set a f v).tim = d.tim := rfl
@[simp] theorem set_pnl : (d.set a f v).pnl = d.pnl := rfl
@[simp] theorem set_kq : (d.set a f v).kq = d.kq := rfl
@[simp] theorem set_kin : (d.set a f v).kin = d.kin := rfl
@[simp] theorem set_outs : (d.set a f v).outs = d.outs := rfl
@[simp] theorem set_log : (d.set a f v).log = d.log := rfl
end

/-! ### Dev.bumpBy -/

section
variable (d : Dev) (a n : Nat)
@[simp] theorem bumpBy_latch : (d.bumpBy a n).latch = d.latch := rfl
@[simp] theorem bumpBy_clk : (d.bumpBy a n).clk = d.clk := rfl
@[simp] theorem bumpBy_top : (d.bumpBy a n).top = d.top := rfl
@[simp] theorem bumpBy_host : (d.bumpBy a n).host = d.host := rfl
@[simp] theorem bumpBy_sheaf : (d.bumpBy a n).sheaf = d.sheaf := rfl
@[simp] theorem bumpBy_ldg : (d.bumpBy a n).ldg = d.ldg := rfl
@[simp] theorem bumpBy_ra : (d.bumpBy a n).ra = d.ra := rfl
@[simp] theorem bumpBy_head : (d.bumpBy a n).head = d.head := rfl
@[simp] theorem bumpBy_stg : (d.bumpBy a n).stg = d.stg := rfl
@[simp] theorem bumpBy_heat : (d.bumpBy a n).heat = d.heat := rfl
@[simp] theorem bumpBy_cal : (d.bumpBy a n).cal = d.cal := rfl
@[simp] theorem bumpBy_cams : (d.bumpBy a n).cams = d.cams := rfl
@[simp] theorem bumpBy_saf : (d.bumpBy a n).saf = d.saf := rfl
@[simp] theorem bumpBy_met : (d.bumpBy a n).met = d.met := rfl
@[simp] theorem bumpBy_gln : (d.bumpBy a n).gln = d.gln := rfl
@[simp] theorem bumpBy_hbm : (d.bumpBy a n).hbm = d.hbm := rfl
@[simp] theorem bumpBy_eng : (d.bumpBy a n).eng = d.eng := rfl
@[simp] theorem bumpBy_hbmc : (d.bumpBy a n).hbmc = d.hbmc := rfl
@[simp] theorem bumpBy_kry : (d.bumpBy a n).kry = d.kry := rfl
@[simp] theorem bumpBy_tim : (d.bumpBy a n).tim = d.tim := rfl
@[simp] theorem bumpBy_pnl : (d.bumpBy a n).pnl = d.pnl := rfl
@[simp] theorem bumpBy_kq : (d.bumpBy a n).kq = d.kq := rfl
@[simp] theorem bumpBy_kin : (d.bumpBy a n).kin = d.kin := rfl
@[simp] theorem bumpBy_outs : (d.bumpBy a n).outs = d.outs := rfl
@[simp] theorem bumpBy_log : (d.bumpBy a n).log = d.log := rfl
end

/-! ### Dev.bump -/

section
variable (d : Dev) (a : Nat)
@[simp] theorem bump_latch : (d.bump a).latch = d.latch := rfl
@[simp] theorem bump_clk : (d.bump a).clk = d.clk := rfl
@[simp] theorem bump_top : (d.bump a).top = d.top := rfl
@[simp] theorem bump_host : (d.bump a).host = d.host := rfl
@[simp] theorem bump_sheaf : (d.bump a).sheaf = d.sheaf := rfl
@[simp] theorem bump_ldg : (d.bump a).ldg = d.ldg := rfl
@[simp] theorem bump_ra : (d.bump a).ra = d.ra := rfl
@[simp] theorem bump_head : (d.bump a).head = d.head := rfl
@[simp] theorem bump_stg : (d.bump a).stg = d.stg := rfl
@[simp] theorem bump_heat : (d.bump a).heat = d.heat := rfl
@[simp] theorem bump_cal : (d.bump a).cal = d.cal := rfl
@[simp] theorem bump_cams : (d.bump a).cams = d.cams := rfl
@[simp] theorem bump_saf : (d.bump a).saf = d.saf := rfl
@[simp] theorem bump_met : (d.bump a).met = d.met := rfl
@[simp] theorem bump_gln : (d.bump a).gln = d.gln := rfl
@[simp] theorem bump_hbm : (d.bump a).hbm = d.hbm := rfl
@[simp] theorem bump_eng : (d.bump a).eng = d.eng := rfl
@[simp] theorem bump_hbmc : (d.bump a).hbmc = d.hbmc := rfl
@[simp] theorem bump_kry : (d.bump a).kry = d.kry := rfl
@[simp] theorem bump_tim : (d.bump a).tim = d.tim := rfl
@[simp] theorem bump_pnl : (d.bump a).pnl = d.pnl := rfl
@[simp] theorem bump_kq : (d.bump a).kq = d.kq := rfl
@[simp] theorem bump_kin : (d.bump a).kin = d.kin := rfl
@[simp] theorem bump_outs : (d.bump a).outs = d.outs := rfl
@[simp] theorem bump_log : (d.bump a).log = d.log := rfl
end

/-! ### Dev.bumpF -/

section
variable (d : Dev) (a : Nat) (f : Fld)
@[simp] theorem bumpF_latch : (d.bumpF a f).latch = d.latch := rfl
@[simp] theorem bumpF_clk : (d.bumpF a f).clk = d.clk := rfl
@[simp] theorem bumpF_top : (d.bumpF a f).top = d.top := rfl
@[simp] theorem bumpF_host : (d.bumpF a f).host = d.host := rfl
@[simp] theorem bumpF_sheaf : (d.bumpF a f).sheaf = d.sheaf := rfl
@[simp] theorem bumpF_ldg : (d.bumpF a f).ldg = d.ldg := rfl
@[simp] theorem bumpF_ra : (d.bumpF a f).ra = d.ra := rfl
@[simp] theorem bumpF_head : (d.bumpF a f).head = d.head := rfl
@[simp] theorem bumpF_stg : (d.bumpF a f).stg = d.stg := rfl
@[simp] theorem bumpF_heat : (d.bumpF a f).heat = d.heat := rfl
@[simp] theorem bumpF_cal : (d.bumpF a f).cal = d.cal := rfl
@[simp] theorem bumpF_cams : (d.bumpF a f).cams = d.cams := rfl
@[simp] theorem bumpF_saf : (d.bumpF a f).saf = d.saf := rfl
@[simp] theorem bumpF_met : (d.bumpF a f).met = d.met := rfl
@[simp] theorem bumpF_gln : (d.bumpF a f).gln = d.gln := rfl
@[simp] theorem bumpF_hbm : (d.bumpF a f).hbm = d.hbm := rfl
@[simp] theorem bumpF_eng : (d.bumpF a f).eng = d.eng := rfl
@[simp] theorem bumpF_hbmc : (d.bumpF a f).hbmc = d.hbmc := rfl
@[simp] theorem bumpF_kry : (d.bumpF a f).kry = d.kry := rfl
@[simp] theorem bumpF_tim : (d.bumpF a f).tim = d.tim := rfl
@[simp] theorem bumpF_pnl : (d.bumpF a f).pnl = d.pnl := rfl
@[simp] theorem bumpF_kq : (d.bumpF a f).kq = d.kq := rfl
@[simp] theorem bumpF_kin : (d.bumpF a f).kin = d.kin := rfl
@[simp] theorem bumpF_outs : (d.bumpF a f).outs = d.outs := rfl
@[simp] theorem bumpF_log : (d.bumpF a f).log = d.log := rfl
end

/-! ### Dev.unlatch -/

section
variable (d : Dev) (lo hi : Nat)
@[simp] theorem unlatch_rf : (d.unlatch lo hi).rf = d.rf := rfl
@[simp] theorem unlatch_clk : (d.unlatch lo hi).clk = d.clk := rfl
@[simp] theorem unlatch_top : (d.unlatch lo hi).top = d.top := rfl
@[simp] theorem unlatch_host : (d.unlatch lo hi).host = d.host := rfl
@[simp] theorem unlatch_sheaf : (d.unlatch lo hi).sheaf = d.sheaf := rfl
@[simp] theorem unlatch_ldg : (d.unlatch lo hi).ldg = d.ldg := rfl
@[simp] theorem unlatch_ra : (d.unlatch lo hi).ra = d.ra := rfl
@[simp] theorem unlatch_head : (d.unlatch lo hi).head = d.head := rfl
@[simp] theorem unlatch_stg : (d.unlatch lo hi).stg = d.stg := rfl
@[simp] theorem unlatch_heat : (d.unlatch lo hi).heat = d.heat := rfl
@[simp] theorem unlatch_cal : (d.unlatch lo hi).cal = d.cal := rfl
@[simp] theorem unlatch_cams : (d.unlatch lo hi).cams = d.cams := rfl
@[simp] theorem unlatch_saf : (d.unlatch lo hi).saf = d.saf := rfl
@[simp] theorem unlatch_met : (d.unlatch lo hi).met = d.met := rfl
@[simp] theorem unlatch_gln : (d.unlatch lo hi).gln = d.gln := rfl
@[simp] theorem unlatch_hbm : (d.unlatch lo hi).hbm = d.hbm := rfl
@[simp] theorem unlatch_eng : (d.unlatch lo hi).eng = d.eng := rfl
@[simp] theorem unlatch_hbmc : (d.unlatch lo hi).hbmc = d.hbmc := rfl
@[simp] theorem unlatch_kry : (d.unlatch lo hi).kry = d.kry := rfl
@[simp] theorem unlatch_tim : (d.unlatch lo hi).tim = d.tim := rfl
@[simp] theorem unlatch_pnl : (d.unlatch lo hi).pnl = d.pnl := rfl
@[simp] theorem unlatch_kq : (d.unlatch lo hi).kq = d.kq := rfl
@[simp] theorem unlatch_kin : (d.unlatch lo hi).kin = d.kin := rfl
@[simp] theorem unlatch_outs : (d.unlatch lo hi).outs = d.outs := rfl
@[simp] theorem unlatch_log : (d.unlatch lo hi).log = d.log := rfl
end

/-! ### Dev.send -/

section
variable (d : Dev) (o : Out)
@[simp] theorem send_rf : (d.send o).rf = d.rf := rfl
@[simp] theorem send_latch : (d.send o).latch = d.latch := rfl
@[simp] theorem send_clk : (d.send o).clk = d.clk := rfl
@[simp] theorem send_top : (d.send o).top = d.top := rfl
@[simp] theorem send_host : (d.send o).host = d.host := rfl
@[simp] theorem send_sheaf : (d.send o).sheaf = d.sheaf := rfl
@[simp] theorem send_ldg : (d.send o).ldg = d.ldg := rfl
@[simp] theorem send_ra : (d.send o).ra = d.ra := rfl
@[simp] theorem send_head : (d.send o).head = d.head := rfl
@[simp] theorem send_stg : (d.send o).stg = d.stg := rfl
@[simp] theorem send_heat : (d.send o).heat = d.heat := rfl
@[simp] theorem send_cal : (d.send o).cal = d.cal := rfl
@[simp] theorem send_cams : (d.send o).cams = d.cams := rfl
@[simp] theorem send_saf : (d.send o).saf = d.saf := rfl
@[simp] theorem send_met : (d.send o).met = d.met := rfl
@[simp] theorem send_gln : (d.send o).gln = d.gln := rfl
@[simp] theorem send_hbm : (d.send o).hbm = d.hbm := rfl
@[simp] theorem send_eng : (d.send o).eng = d.eng := rfl
@[simp] theorem send_hbmc : (d.send o).hbmc = d.hbmc := rfl
@[simp] theorem send_kry : (d.send o).kry = d.kry := rfl
@[simp] theorem send_tim : (d.send o).tim = d.tim := rfl
@[simp] theorem send_pnl : (d.send o).pnl = d.pnl := rfl
@[simp] theorem send_kq : (d.send o).kq = d.kq := rfl
@[simp] theorem send_kin : (d.send o).kin = d.kin := rfl
@[simp] theorem send_log : (d.send o).log = d.log := rfl
end

/-! ### Dev.putWord -/

section
variable (d : Dev) (i : Nat) (w : HWord)
@[simp] theorem putWord_rf : (d.putWord i w).rf = d.rf := rfl
@[simp] theorem putWord_latch : (d.putWord i w).latch = d.latch := rfl
@[simp] theorem putWord_clk : (d.putWord i w).clk = d.clk := rfl
@[simp] theorem putWord_top : (d.putWord i w).top = d.top := rfl
@[simp] theorem putWord_host : (d.putWord i w).host = d.host := rfl
@[simp] theorem putWord_sheaf : (d.putWord i w).sheaf = d.sheaf := rfl
@[simp] theorem putWord_ldg : (d.putWord i w).ldg = d.ldg := rfl
@[simp] theorem putWord_ra : (d.putWord i w).ra = d.ra := rfl
@[simp] theorem putWord_head : (d.putWord i w).head = d.head := rfl
@[simp] theorem putWord_stg : (d.putWord i w).stg = d.stg := rfl
@[simp] theorem putWord_heat : (d.putWord i w).heat = d.heat := rfl
@[simp] theorem putWord_cal : (d.putWord i w).cal = d.cal := rfl
@[simp] theorem putWord_cams : (d.putWord i w).cams = d.cams := rfl
@[simp] theorem putWord_saf : (d.putWord i w).saf = d.saf := rfl
@[simp] theorem putWord_met : (d.putWord i w).met = d.met := rfl
@[simp] theorem putWord_gln : (d.putWord i w).gln = d.gln := rfl
@[simp] theorem putWord_eng : (d.putWord i w).eng = d.eng := rfl
@[simp] theorem putWord_hbmc : (d.putWord i w).hbmc = d.hbmc := rfl
@[simp] theorem putWord_kry : (d.putWord i w).kry = d.kry := rfl
@[simp] theorem putWord_tim : (d.putWord i w).tim = d.tim := rfl
@[simp] theorem putWord_pnl : (d.putWord i w).pnl = d.pnl := rfl
@[simp] theorem putWord_kq : (d.putWord i w).kq = d.kq := rfl
@[simp] theorem putWord_kin : (d.putWord i w).kin = d.kin := rfl
@[simp] theorem putWord_outs : (d.putWord i w).outs = d.outs := rfl
@[simp] theorem putWord_log : (d.putWord i w).log = d.log := rfl
end

/-! ### Dev.setRing -/

section
variable (d : Dev) (n : Nat) (f : RingSt → RingSt)
@[simp] theorem setRing_rf : (d.setRing n f).rf = d.rf := rfl
@[simp] theorem setRing_latch : (d.setRing n f).latch = d.latch := rfl
@[simp] theorem setRing_clk : (d.setRing n f).clk = d.clk := rfl
@[simp] theorem setRing_top : (d.setRing n f).top = d.top := rfl
@[simp] theorem setRing_sheaf : (d.setRing n f).sheaf = d.sheaf := rfl
@[simp] theorem setRing_ldg : (d.setRing n f).ldg = d.ldg := rfl
@[simp] theorem setRing_ra : (d.setRing n f).ra = d.ra := rfl
@[simp] theorem setRing_head : (d.setRing n f).head = d.head := rfl
@[simp] theorem setRing_stg : (d.setRing n f).stg = d.stg := rfl
@[simp] theorem setRing_heat : (d.setRing n f).heat = d.heat := rfl
@[simp] theorem setRing_cal : (d.setRing n f).cal = d.cal := rfl
@[simp] theorem setRing_cams : (d.setRing n f).cams = d.cams := rfl
@[simp] theorem setRing_saf : (d.setRing n f).saf = d.saf := rfl
@[simp] theorem setRing_met : (d.setRing n f).met = d.met := rfl
@[simp] theorem setRing_gln : (d.setRing n f).gln = d.gln := rfl
@[simp] theorem setRing_hbm : (d.setRing n f).hbm = d.hbm := rfl
@[simp] theorem setRing_eng : (d.setRing n f).eng = d.eng := rfl
@[simp] theorem setRing_hbmc : (d.setRing n f).hbmc = d.hbmc := rfl
@[simp] theorem setRing_kry : (d.setRing n f).kry = d.kry := rfl
@[simp] theorem setRing_tim : (d.setRing n f).tim = d.tim := rfl
@[simp] theorem setRing_pnl : (d.setRing n f).pnl = d.pnl := rfl
@[simp] theorem setRing_kq : (d.setRing n f).kq = d.kq := rfl
@[simp] theorem setRing_kin : (d.setRing n f).kin = d.kin := rfl
@[simp] theorem setRing_outs : (d.setRing n f).outs = d.outs := rfl
@[simp] theorem setRing_log : (d.setRing n f).log = d.log := rfl
end

/-! ### Dev.setTop -/

section
variable (d : Dev) (f : Top → Top)
@[simp] theorem setTop_rf : (d.setTop f).rf = d.rf := rfl
@[simp] theorem setTop_latch : (d.setTop f).latch = d.latch := rfl
@[simp] theorem setTop_clk : (d.setTop f).clk = d.clk := rfl
@[simp] theorem setTop_host : (d.setTop f).host = d.host := rfl
@[simp] theorem setTop_sheaf : (d.setTop f).sheaf = d.sheaf := rfl
@[simp] theorem setTop_ldg : (d.setTop f).ldg = d.ldg := rfl
@[simp] theorem setTop_ra : (d.setTop f).ra = d.ra := rfl
@[simp] theorem setTop_head : (d.setTop f).head = d.head := rfl
@[simp] theorem setTop_stg : (d.setTop f).stg = d.stg := rfl
@[simp] theorem setTop_heat : (d.setTop f).heat = d.heat := rfl
@[simp] theorem setTop_cal : (d.setTop f).cal = d.cal := rfl
@[simp] theorem setTop_cams : (d.setTop f).cams = d.cams := rfl
@[simp] theorem setTop_saf : (d.setTop f).saf = d.saf := rfl
@[simp] theorem setTop_met : (d.setTop f).met = d.met := rfl
@[simp] theorem setTop_gln : (d.setTop f).gln = d.gln := rfl
@[simp] theorem setTop_hbm : (d.setTop f).hbm = d.hbm := rfl
@[simp] theorem setTop_eng : (d.setTop f).eng = d.eng := rfl
@[simp] theorem setTop_hbmc : (d.setTop f).hbmc = d.hbmc := rfl
@[simp] theorem setTop_kry : (d.setTop f).kry = d.kry := rfl
@[simp] theorem setTop_tim : (d.setTop f).tim = d.tim := rfl
@[simp] theorem setTop_pnl : (d.setTop f).pnl = d.pnl := rfl
@[simp] theorem setTop_kq : (d.setTop f).kq = d.kq := rfl
@[simp] theorem setTop_kin : (d.setTop f).kin = d.kin := rfl
@[simp] theorem setTop_outs : (d.setTop f).outs = d.outs := rfl
@[simp] theorem setTop_log : (d.setTop f).log = d.log := rfl
end

/-! ### Dev.setRa -/

section
variable (d : Dev) (f : RunAhead → RunAhead)
@[simp] theorem setRa_rf : (d.setRa f).rf = d.rf := rfl
@[simp] theorem setRa_latch : (d.setRa f).latch = d.latch := rfl
@[simp] theorem setRa_clk : (d.setRa f).clk = d.clk := rfl
@[simp] theorem setRa_top : (d.setRa f).top = d.top := rfl
@[simp] theorem setRa_host : (d.setRa f).host = d.host := rfl
@[simp] theorem setRa_sheaf : (d.setRa f).sheaf = d.sheaf := rfl
@[simp] theorem setRa_ldg : (d.setRa f).ldg = d.ldg := rfl
@[simp] theorem setRa_head : (d.setRa f).head = d.head := rfl
@[simp] theorem setRa_stg : (d.setRa f).stg = d.stg := rfl
@[simp] theorem setRa_heat : (d.setRa f).heat = d.heat := rfl
@[simp] theorem setRa_cal : (d.setRa f).cal = d.cal := rfl
@[simp] theorem setRa_cams : (d.setRa f).cams = d.cams := rfl
@[simp] theorem setRa_saf : (d.setRa f).saf = d.saf := rfl
@[simp] theorem setRa_met : (d.setRa f).met = d.met := rfl
@[simp] theorem setRa_gln : (d.setRa f).gln = d.gln := rfl
@[simp] theorem setRa_hbm : (d.setRa f).hbm = d.hbm := rfl
@[simp] theorem setRa_eng : (d.setRa f).eng = d.eng := rfl
@[simp] theorem setRa_hbmc : (d.setRa f).hbmc = d.hbmc := rfl
@[simp] theorem setRa_kry : (d.setRa f).kry = d.kry := rfl
@[simp] theorem setRa_tim : (d.setRa f).tim = d.tim := rfl
@[simp] theorem setRa_pnl : (d.setRa f).pnl = d.pnl := rfl
@[simp] theorem setRa_kq : (d.setRa f).kq = d.kq := rfl
@[simp] theorem setRa_kin : (d.setRa f).kin = d.kin := rfl
@[simp] theorem setRa_outs : (d.setRa f).outs = d.outs := rfl
@[simp] theorem setRa_log : (d.setRa f).log = d.log := rfl
end

/-! ### Dev.setSaf -/

section
variable (d : Dev) (f : Saf → Saf)
@[simp] theorem setSaf_rf : (d.setSaf f).rf = d.rf := rfl
@[simp] theorem setSaf_latch : (d.setSaf f).latch = d.latch := rfl
@[simp] theorem setSaf_clk : (d.setSaf f).clk = d.clk := rfl
@[simp] theorem setSaf_top : (d.setSaf f).top = d.top := rfl
@[simp] theorem setSaf_host : (d.setSaf f).host = d.host := rfl
@[simp] theorem setSaf_sheaf : (d.setSaf f).sheaf = d.sheaf := rfl
@[simp] theorem setSaf_ldg : (d.setSaf f).ldg = d.ldg := rfl
@[simp] theorem setSaf_ra : (d.setSaf f).ra = d.ra := rfl
@[simp] theorem setSaf_head : (d.setSaf f).head = d.head := rfl
@[simp] theorem setSaf_stg : (d.setSaf f).stg = d.stg := rfl
@[simp] theorem setSaf_heat : (d.setSaf f).heat = d.heat := rfl
@[simp] theorem setSaf_cal : (d.setSaf f).cal = d.cal := rfl
@[simp] theorem setSaf_cams : (d.setSaf f).cams = d.cams := rfl
@[simp] theorem setSaf_met : (d.setSaf f).met = d.met := rfl
@[simp] theorem setSaf_gln : (d.setSaf f).gln = d.gln := rfl
@[simp] theorem setSaf_hbm : (d.setSaf f).hbm = d.hbm := rfl
@[simp] theorem setSaf_eng : (d.setSaf f).eng = d.eng := rfl
@[simp] theorem setSaf_hbmc : (d.setSaf f).hbmc = d.hbmc := rfl
@[simp] theorem setSaf_kry : (d.setSaf f).kry = d.kry := rfl
@[simp] theorem setSaf_tim : (d.setSaf f).tim = d.tim := rfl
@[simp] theorem setSaf_pnl : (d.setSaf f).pnl = d.pnl := rfl
@[simp] theorem setSaf_kq : (d.setSaf f).kq = d.kq := rfl
@[simp] theorem setSaf_kin : (d.setSaf f).kin = d.kin := rfl
@[simp] theorem setSaf_outs : (d.setSaf f).outs = d.outs := rfl
@[simp] theorem setSaf_log : (d.setSaf f).log = d.log := rfl
end

/-! ### Dev.setMet -/

section
variable (d : Dev) (f : Met → Met)
@[simp] theorem setMet_rf : (d.setMet f).rf = d.rf := rfl
@[simp] theorem setMet_latch : (d.setMet f).latch = d.latch := rfl
@[simp] theorem setMet_clk : (d.setMet f).clk = d.clk := rfl
@[simp] theorem setMet_top : (d.setMet f).top = d.top := rfl
@[simp] theorem setMet_host : (d.setMet f).host = d.host := rfl
@[simp] theorem setMet_sheaf : (d.setMet f).sheaf = d.sheaf := rfl
@[simp] theorem setMet_ldg : (d.setMet f).ldg = d.ldg := rfl
@[simp] theorem setMet_ra : (d.setMet f).ra = d.ra := rfl
@[simp] theorem setMet_head : (d.setMet f).head = d.head := rfl
@[simp] theorem setMet_stg : (d.setMet f).stg = d.stg := rfl
@[simp] theorem setMet_heat : (d.setMet f).heat = d.heat := rfl
@[simp] theorem setMet_cal : (d.setMet f).cal = d.cal := rfl
@[simp] theorem setMet_cams : (d.setMet f).cams = d.cams := rfl
@[simp] theorem setMet_saf : (d.setMet f).saf = d.saf := rfl
@[simp] theorem setMet_gln : (d.setMet f).gln = d.gln := rfl
@[simp] theorem setMet_hbm : (d.setMet f).hbm = d.hbm := rfl
@[simp] theorem setMet_eng : (d.setMet f).eng = d.eng := rfl
@[simp] theorem setMet_hbmc : (d.setMet f).hbmc = d.hbmc := rfl
@[simp] theorem setMet_kry : (d.setMet f).kry = d.kry := rfl
@[simp] theorem setMet_tim : (d.setMet f).tim = d.tim := rfl
@[simp] theorem setMet_pnl : (d.setMet f).pnl = d.pnl := rfl
@[simp] theorem setMet_kq : (d.setMet f).kq = d.kq := rfl
@[simp] theorem setMet_kin : (d.setMet f).kin = d.kin := rfl
@[simp] theorem setMet_outs : (d.setMet f).outs = d.outs := rfl
@[simp] theorem setMet_log : (d.setMet f).log = d.log := rfl
end

/-! ### Dev.setTim -/

section
variable (d : Dev) (f : Tim → Tim)
@[simp] theorem setTim_rf : (d.setTim f).rf = d.rf := rfl
@[simp] theorem setTim_latch : (d.setTim f).latch = d.latch := rfl
@[simp] theorem setTim_clk : (d.setTim f).clk = d.clk := rfl
@[simp] theorem setTim_top : (d.setTim f).top = d.top := rfl
@[simp] theorem setTim_host : (d.setTim f).host = d.host := rfl
@[simp] theorem setTim_sheaf : (d.setTim f).sheaf = d.sheaf := rfl
@[simp] theorem setTim_ldg : (d.setTim f).ldg = d.ldg := rfl
@[simp] theorem setTim_ra : (d.setTim f).ra = d.ra := rfl
@[simp] theorem setTim_head : (d.setTim f).head = d.head := rfl
@[simp] theorem setTim_stg : (d.setTim f).stg = d.stg := rfl
@[simp] theorem setTim_heat : (d.setTim f).heat = d.heat := rfl
@[simp] theorem setTim_cal : (d.setTim f).cal = d.cal := rfl
@[simp] theorem setTim_cams : (d.setTim f).cams = d.cams := rfl
@[simp] theorem setTim_saf : (d.setTim f).saf = d.saf := rfl
@[simp] theorem setTim_met : (d.setTim f).met = d.met := rfl
@[simp] theorem setTim_gln : (d.setTim f).gln = d.gln := rfl
@[simp] theorem setTim_hbm : (d.setTim f).hbm = d.hbm := rfl
@[simp] theorem setTim_eng : (d.setTim f).eng = d.eng := rfl
@[simp] theorem setTim_hbmc : (d.setTim f).hbmc = d.hbmc := rfl
@[simp] theorem setTim_kry : (d.setTim f).kry = d.kry := rfl
@[simp] theorem setTim_pnl : (d.setTim f).pnl = d.pnl := rfl
@[simp] theorem setTim_kq : (d.setTim f).kq = d.kq := rfl
@[simp] theorem setTim_kin : (d.setTim f).kin = d.kin := rfl
@[simp] theorem setTim_outs : (d.setTim f).outs = d.outs := rfl
@[simp] theorem setTim_log : (d.setTim f).log = d.log := rfl
end

/-! ### Dev.setStg -/

section
variable (d : Dev) (f : Stage → Stage)
@[simp] theorem setStg_rf : (d.setStg f).rf = d.rf := rfl
@[simp] theorem setStg_latch : (d.setStg f).latch = d.latch := rfl
@[simp] theorem setStg_clk : (d.setStg f).clk = d.clk := rfl
@[simp] theorem setStg_top : (d.setStg f).top = d.top := rfl
@[simp] theorem setStg_host : (d.setStg f).host = d.host := rfl
@[simp] theorem setStg_sheaf : (d.setStg f).sheaf = d.sheaf := rfl
@[simp] theorem setStg_ldg : (d.setStg f).ldg = d.ldg := rfl
@[simp] theorem setStg_ra : (d.setStg f).ra = d.ra := rfl
@[simp] theorem setStg_head : (d.setStg f).head = d.head := rfl
@[simp] theorem setStg_heat : (d.setStg f).heat = d.heat := rfl
@[simp] theorem setStg_cal : (d.setStg f).cal = d.cal := rfl
@[simp] theorem setStg_cams : (d.setStg f).cams = d.cams := rfl
@[simp] theorem setStg_saf : (d.setStg f).saf = d.saf := rfl
@[simp] theorem setStg_met : (d.setStg f).met = d.met := rfl
@[simp] theorem setStg_gln : (d.setStg f).gln = d.gln := rfl
@[simp] theorem setStg_hbm : (d.setStg f).hbm = d.hbm := rfl
@[simp] theorem setStg_eng : (d.setStg f).eng = d.eng := rfl
@[simp] theorem setStg_hbmc : (d.setStg f).hbmc = d.hbmc := rfl
@[simp] theorem setStg_kry : (d.setStg f).kry = d.kry := rfl
@[simp] theorem setStg_tim : (d.setStg f).tim = d.tim := rfl
@[simp] theorem setStg_pnl : (d.setStg f).pnl = d.pnl := rfl
@[simp] theorem setStg_kq : (d.setStg f).kq = d.kq := rfl
@[simp] theorem setStg_kin : (d.setStg f).kin = d.kin := rfl
@[simp] theorem setStg_outs : (d.setStg f).outs = d.outs := rfl
@[simp] theorem setStg_log : (d.setStg f).log = d.log := rfl
end

/-! ### Dev.setCol -/

section
variable (d : Dev) (c : Nat) (f : Column → Column)
@[simp] theorem setCol_rf : (d.setCol c f).rf = d.rf := rfl
@[simp] theorem setCol_latch : (d.setCol c f).latch = d.latch := rfl
@[simp] theorem setCol_clk : (d.setCol c f).clk = d.clk := rfl
@[simp] theorem setCol_top : (d.setCol c f).top = d.top := rfl
@[simp] theorem setCol_host : (d.setCol c f).host = d.host := rfl
@[simp] theorem setCol_sheaf : (d.setCol c f).sheaf = d.sheaf := rfl
@[simp] theorem setCol_ldg : (d.setCol c f).ldg = d.ldg := rfl
@[simp] theorem setCol_head : (d.setCol c f).head = d.head := rfl
@[simp] theorem setCol_stg : (d.setCol c f).stg = d.stg := rfl
@[simp] theorem setCol_heat : (d.setCol c f).heat = d.heat := rfl
@[simp] theorem setCol_cal : (d.setCol c f).cal = d.cal := rfl
@[simp] theorem setCol_cams : (d.setCol c f).cams = d.cams := rfl
@[simp] theorem setCol_saf : (d.setCol c f).saf = d.saf := rfl
@[simp] theorem setCol_met : (d.setCol c f).met = d.met := rfl
@[simp] theorem setCol_gln : (d.setCol c f).gln = d.gln := rfl
@[simp] theorem setCol_hbm : (d.setCol c f).hbm = d.hbm := rfl
@[simp] theorem setCol_eng : (d.setCol c f).eng = d.eng := rfl
@[simp] theorem setCol_hbmc : (d.setCol c f).hbmc = d.hbmc := rfl
@[simp] theorem setCol_kry : (d.setCol c f).kry = d.kry := rfl
@[simp] theorem setCol_tim : (d.setCol c f).tim = d.tim := rfl
@[simp] theorem setCol_pnl : (d.setCol c f).pnl = d.pnl := rfl
@[simp] theorem setCol_kq : (d.setCol c f).kq = d.kq := rfl
@[simp] theorem setCol_kin : (d.setCol c f).kin = d.kin := rfl
@[simp] theorem setCol_outs : (d.setCol c f).outs = d.outs := rfl
@[simp] theorem setCol_log : (d.setCol c f).log = d.log := rfl
end

/-! ### Dev.setTile -/

section
variable (d : Dev) (t : Nat) (f : Tile → Tile)
@[simp] theorem setTile_rf : (d.setTile t f).rf = d.rf := rfl
@[simp] theorem setTile_latch : (d.setTile t f).latch = d.latch := rfl
@[simp] theorem setTile_clk : (d.setTile t f).clk = d.clk := rfl
@[simp] theorem setTile_top : (d.setTile t f).top = d.top := rfl
@[simp] theorem setTile_host : (d.setTile t f).host = d.host := rfl
@[simp] theorem setTile_sheaf : (d.setTile t f).sheaf = d.sheaf := rfl
@[simp] theorem setTile_ldg : (d.setTile t f).ldg = d.ldg := rfl
@[simp] theorem setTile_ra : (d.setTile t f).ra = d.ra := rfl
@[simp] theorem setTile_stg : (d.setTile t f).stg = d.stg := rfl
@[simp] theorem setTile_heat : (d.setTile t f).heat = d.heat := rfl
@[simp] theorem setTile_cal : (d.setTile t f).cal = d.cal := rfl
@[simp] theorem setTile_cams : (d.setTile t f).cams = d.cams := rfl
@[simp] theorem setTile_saf : (d.setTile t f).saf = d.saf := rfl
@[simp] theorem setTile_met : (d.setTile t f).met = d.met := rfl
@[simp] theorem setTile_gln : (d.setTile t f).gln = d.gln := rfl
@[simp] theorem setTile_hbm : (d.setTile t f).hbm = d.hbm := rfl
@[simp] theorem setTile_eng : (d.setTile t f).eng = d.eng := rfl
@[simp] theorem setTile_hbmc : (d.setTile t f).hbmc = d.hbmc := rfl
@[simp] theorem setTile_kry : (d.setTile t f).kry = d.kry := rfl
@[simp] theorem setTile_tim : (d.setTile t f).tim = d.tim := rfl
@[simp] theorem setTile_pnl : (d.setTile t f).pnl = d.pnl := rfl
@[simp] theorem setTile_kq : (d.setTile t f).kq = d.kq := rfl
@[simp] theorem setTile_kin : (d.setTile t f).kin = d.kin := rfl
@[simp] theorem setTile_outs : (d.setTile t f).outs = d.outs := rfl
@[simp] theorem setTile_log : (d.setTile t f).log = d.log := rfl
end

/-! ### Dev.setArb -/

section
variable (d : Dev) (a : Nat) (f : Arb → Arb)
@[simp] theorem setArb_rf : (d.setArb a f).rf = d.rf := rfl
@[simp] theorem setArb_latch : (d.setArb a f).latch = d.latch := rfl
@[simp] theorem setArb_clk : (d.setArb a f).clk = d.clk := rfl
@[simp] theorem setArb_top : (d.setArb a f).top = d.top := rfl
@[simp] theorem setArb_host : (d.setArb a f).host = d.host := rfl
@[simp] theorem setArb_sheaf : (d.setArb a f).sheaf = d.sheaf := rfl
@[simp] theorem setArb_ldg : (d.setArb a f).ldg = d.ldg := rfl
@[simp] theorem setArb_ra : (d.setArb a f).ra = d.ra := rfl
@[simp] theorem setArb_head : (d.setArb a f).head = d.head := rfl
@[simp] theorem setArb_stg : (d.setArb a f).stg = d.stg := rfl
@[simp] theorem setArb_heat : (d.setArb a f).heat = d.heat := rfl
@[simp] theorem setArb_cal : (d.setArb a f).cal = d.cal := rfl
@[simp] theorem setArb_cams : (d.setArb a f).cams = d.cams := rfl
@[simp] theorem setArb_saf : (d.setArb a f).saf = d.saf := rfl
@[simp] theorem setArb_met : (d.setArb a f).met = d.met := rfl
@[simp] theorem setArb_gln : (d.setArb a f).gln = d.gln := rfl
@[simp] theorem setArb_hbm : (d.setArb a f).hbm = d.hbm := rfl
@[simp] theorem setArb_eng : (d.setArb a f).eng = d.eng := rfl
@[simp] theorem setArb_kry : (d.setArb a f).kry = d.kry := rfl
@[simp] theorem setArb_tim : (d.setArb a f).tim = d.tim := rfl
@[simp] theorem setArb_pnl : (d.setArb a f).pnl = d.pnl := rfl
@[simp] theorem setArb_kq : (d.setArb a f).kq = d.kq := rfl
@[simp] theorem setArb_kin : (d.setArb a f).kin = d.kin := rfl
@[simp] theorem setArb_outs : (d.setArb a f).outs = d.outs := rfl
@[simp] theorem setArb_log : (d.setArb a f).log = d.log := rfl
end

/-! ### Dev.setChan -/

section
variable (d : Dev) (c : Nat) (f : Chan → Chan)
@[simp] theorem setChan_rf : (d.setChan c f).rf = d.rf := rfl
@[simp] theorem setChan_latch : (d.setChan c f).latch = d.latch := rfl
@[simp] theorem setChan_clk : (d.setChan c f).clk = d.clk := rfl
@[simp] theorem setChan_top : (d.setChan c f).top = d.top := rfl
@[simp] theorem setChan_host : (d.setChan c f).host = d.host := rfl
@[simp] theorem setChan_sheaf : (d.setChan c f).sheaf = d.sheaf := rfl
@[simp] theorem setChan_ldg : (d.setChan c f).ldg = d.ldg := rfl
@[simp] theorem setChan_ra : (d.setChan c f).ra = d.ra := rfl
@[simp] theorem setChan_head : (d.setChan c f).head = d.head := rfl
@[simp] theorem setChan_stg : (d.setChan c f).stg = d.stg := rfl
@[simp] theorem setChan_heat : (d.setChan c f).heat = d.heat := rfl
@[simp] theorem setChan_cal : (d.setChan c f).cal = d.cal := rfl
@[simp] theorem setChan_cams : (d.setChan c f).cams = d.cams := rfl
@[simp] theorem setChan_saf : (d.setChan c f).saf = d.saf := rfl
@[simp] theorem setChan_met : (d.setChan c f).met = d.met := rfl
@[simp] theorem setChan_gln : (d.setChan c f).gln = d.gln := rfl
@[simp] theorem setChan_hbm : (d.setChan c f).hbm = d.hbm := rfl
@[simp] theorem setChan_hbmc : (d.setChan c f).hbmc = d.hbmc := rfl
@[simp] theorem setChan_kry : (d.setChan c f).kry = d.kry := rfl
@[simp] theorem setChan_tim : (d.setChan c f).tim = d.tim := rfl
@[simp] theorem setChan_pnl : (d.setChan c f).pnl = d.pnl := rfl
@[simp] theorem setChan_kq : (d.setChan c f).kq = d.kq := rfl
@[simp] theorem setChan_kin : (d.setChan c f).kin = d.kin := rfl
@[simp] theorem setChan_outs : (d.setChan c f).outs = d.outs := rfl
@[simp] theorem setChan_log : (d.setChan c f).log = d.log := rfl
end

/-! ### Dev.setUnit -/

section
variable (d : Dev) (u : Nat) (f : ChkUnit → ChkUnit)
@[simp] theorem setUnit_rf : (d.setUnit u f).rf = d.rf := rfl
@[simp] theorem setUnit_latch : (d.setUnit u f).latch = d.latch := rfl
@[simp] theorem setUnit_clk : (d.setUnit u f).clk = d.clk := rfl
@[simp] theorem setUnit_top : (d.setUnit u f).top = d.top := rfl
@[simp] theorem setUnit_host : (d.setUnit u f).host = d.host := rfl
@[simp] theorem setUnit_sheaf : (d.setUnit u f).sheaf = d.sheaf := rfl
@[simp] theorem setUnit_ldg : (d.setUnit u f).ldg = d.ldg := rfl
@[simp] theorem setUnit_ra : (d.setUnit u f).ra = d.ra := rfl
@[simp] theorem setUnit_head : (d.setUnit u f).head = d.head := rfl
@[simp] theorem setUnit_stg : (d.setUnit u f).stg = d.stg := rfl
@[simp] theorem setUnit_heat : (d.setUnit u f).heat = d.heat := rfl
@[simp] theorem setUnit_cal : (d.setUnit u f).cal = d.cal := rfl
@[simp] theorem setUnit_cams : (d.setUnit u f).cams = d.cams := rfl
@[simp] theorem setUnit_saf : (d.setUnit u f).saf = d.saf := rfl
@[simp] theorem setUnit_met : (d.setUnit u f).met = d.met := rfl
@[simp] theorem setUnit_gln : (d.setUnit u f).gln = d.gln := rfl
@[simp] theorem setUnit_hbm : (d.setUnit u f).hbm = d.hbm := rfl
@[simp] theorem setUnit_hbmc : (d.setUnit u f).hbmc = d.hbmc := rfl
@[simp] theorem setUnit_kry : (d.setUnit u f).kry = d.kry := rfl
@[simp] theorem setUnit_tim : (d.setUnit u f).tim = d.tim := rfl
@[simp] theorem setUnit_pnl : (d.setUnit u f).pnl = d.pnl := rfl
@[simp] theorem setUnit_kq : (d.setUnit u f).kq = d.kq := rfl
@[simp] theorem setUnit_kin : (d.setUnit u f).kin = d.kin := rfl
@[simp] theorem setUnit_outs : (d.setUnit u f).outs = d.outs := rfl
@[simp] theorem setUnit_log : (d.setUnit u f).log = d.log := rfl
end

/-! ### Dev.setPort -/

section
variable (d : Dev) (p : Nat) (f : KPort → KPort)
@[simp] theorem setPort_rf : (d.setPort p f).rf = d.rf := rfl
@[simp] theorem setPort_latch : (d.setPort p f).latch = d.latch := rfl
@[simp] theorem setPort_clk : (d.setPort p f).clk = d.clk := rfl
@[simp] theorem setPort_top : (d.setPort p f).top = d.top := rfl
@[simp] theorem setPort_host : (d.setPort p f).host = d.host := rfl
@[simp] theorem setPort_sheaf : (d.setPort p f).sheaf = d.sheaf := rfl
@[simp] theorem setPort_ldg : (d.setPort p f).ldg = d.ldg := rfl
@[simp] theorem setPort_ra : (d.setPort p f).ra = d.ra := rfl
@[simp] theorem setPort_head : (d.setPort p f).head = d.head := rfl
@[simp] theorem setPort_stg : (d.setPort p f).stg = d.stg := rfl
@[simp] theorem setPort_heat : (d.setPort p f).heat = d.heat := rfl
@[simp] theorem setPort_cal : (d.setPort p f).cal = d.cal := rfl
@[simp] theorem setPort_cams : (d.setPort p f).cams = d.cams := rfl
@[simp] theorem setPort_saf : (d.setPort p f).saf = d.saf := rfl
@[simp] theorem setPort_met : (d.setPort p f).met = d.met := rfl
@[simp] theorem setPort_gln : (d.setPort p f).gln = d.gln := rfl
@[simp] theorem setPort_hbm : (d.setPort p f).hbm = d.hbm := rfl
@[simp] theorem setPort_eng : (d.setPort p f).eng = d.eng := rfl
@[simp] theorem setPort_hbmc : (d.setPort p f).hbmc = d.hbmc := rfl
@[simp] theorem setPort_tim : (d.setPort p f).tim = d.tim := rfl
@[simp] theorem setPort_pnl : (d.setPort p f).pnl = d.pnl := rfl
@[simp] theorem setPort_kq : (d.setPort p f).kq = d.kq := rfl
@[simp] theorem setPort_kin : (d.setPort p f).kin = d.kin := rfl
@[simp] theorem setPort_outs : (d.setPort p f).outs = d.outs := rfl
@[simp] theorem setPort_log : (d.setPort p f).log = d.log := rfl
end

/-! ### Dev.setCam -/

section
variable (d : Dev) (c : Nat) (f : Camera → Camera)
@[simp] theorem setCam_rf : (d.setCam c f).rf = d.rf := rfl
@[simp] theorem setCam_latch : (d.setCam c f).latch = d.latch := rfl
@[simp] theorem setCam_clk : (d.setCam c f).clk = d.clk := rfl
@[simp] theorem setCam_top : (d.setCam c f).top = d.top := rfl
@[simp] theorem setCam_host : (d.setCam c f).host = d.host := rfl
@[simp] theorem setCam_sheaf : (d.setCam c f).sheaf = d.sheaf := rfl
@[simp] theorem setCam_ldg : (d.setCam c f).ldg = d.ldg := rfl
@[simp] theorem setCam_ra : (d.setCam c f).ra = d.ra := rfl
@[simp] theorem setCam_head : (d.setCam c f).head = d.head := rfl
@[simp] theorem setCam_stg : (d.setCam c f).stg = d.stg := rfl
@[simp] theorem setCam_heat : (d.setCam c f).heat = d.heat := rfl
@[simp] theorem setCam_cal : (d.setCam c f).cal = d.cal := rfl
@[simp] theorem setCam_saf : (d.setCam c f).saf = d.saf := rfl
@[simp] theorem setCam_met : (d.setCam c f).met = d.met := rfl
@[simp] theorem setCam_gln : (d.setCam c f).gln = d.gln := rfl
@[simp] theorem setCam_hbm : (d.setCam c f).hbm = d.hbm := rfl
@[simp] theorem setCam_eng : (d.setCam c f).eng = d.eng := rfl
@[simp] theorem setCam_hbmc : (d.setCam c f).hbmc = d.hbmc := rfl
@[simp] theorem setCam_kry : (d.setCam c f).kry = d.kry := rfl
@[simp] theorem setCam_tim : (d.setCam c f).tim = d.tim := rfl
@[simp] theorem setCam_pnl : (d.setCam c f).pnl = d.pnl := rfl
@[simp] theorem setCam_kq : (d.setCam c f).kq = d.kq := rfl
@[simp] theorem setCam_kin : (d.setCam c f).kin = d.kin := rfl
@[simp] theorem setCam_outs : (d.setCam c f).outs = d.outs := rfl
@[simp] theorem setCam_log : (d.setCam c f).log = d.log := rfl
end

/-! ### Dev.setThr -/

section
variable (d : Dev) (t : Nat) (f : Thresher → Thresher)
@[simp] theorem setThr_rf : (d.setThr t f).rf = d.rf := rfl
@[simp] theorem setThr_latch : (d.setThr t f).latch = d.latch := rfl
@[simp] theorem setThr_clk : (d.setThr t f).clk = d.clk := rfl
@[simp] theorem setThr_top : (d.setThr t f).top = d.top := rfl
@[simp] theorem setThr_host : (d.setThr t f).host = d.host := rfl
@[simp] theorem setThr_ldg : (d.setThr t f).ldg = d.ldg := rfl
@[simp] theorem setThr_ra : (d.setThr t f).ra = d.ra := rfl
@[simp] theorem setThr_head : (d.setThr t f).head = d.head := rfl
@[simp] theorem setThr_stg : (d.setThr t f).stg = d.stg := rfl
@[simp] theorem setThr_heat : (d.setThr t f).heat = d.heat := rfl
@[simp] theorem setThr_cal : (d.setThr t f).cal = d.cal := rfl
@[simp] theorem setThr_cams : (d.setThr t f).cams = d.cams := rfl
@[simp] theorem setThr_saf : (d.setThr t f).saf = d.saf := rfl
@[simp] theorem setThr_met : (d.setThr t f).met = d.met := rfl
@[simp] theorem setThr_gln : (d.setThr t f).gln = d.gln := rfl
@[simp] theorem setThr_hbm : (d.setThr t f).hbm = d.hbm := rfl
@[simp] theorem setThr_eng : (d.setThr t f).eng = d.eng := rfl
@[simp] theorem setThr_hbmc : (d.setThr t f).hbmc = d.hbmc := rfl
@[simp] theorem setThr_kry : (d.setThr t f).kry = d.kry := rfl
@[simp] theorem setThr_tim : (d.setThr t f).tim = d.tim := rfl
@[simp] theorem setThr_pnl : (d.setThr t f).pnl = d.pnl := rfl
@[simp] theorem setThr_kq : (d.setThr t f).kq = d.kq := rfl
@[simp] theorem setThr_kin : (d.setThr t f).kin = d.kin := rfl
@[simp] theorem setThr_outs : (d.setThr t f).outs = d.outs := rfl
@[simp] theorem setThr_log : (d.setThr t f).log = d.log := rfl
end

/-! ### Dev.setCalTile -/

section
variable (d : Dev) (t : Nat) (f : CalTile → CalTile)
@[simp] theorem setCalTile_rf : (d.setCalTile t f).rf = d.rf := rfl
@[simp] theorem setCalTile_latch : (d.setCalTile t f).latch = d.latch := rfl
@[simp] theorem setCalTile_clk : (d.setCalTile t f).clk = d.clk := rfl
@[simp] theorem setCalTile_top : (d.setCalTile t f).top = d.top := rfl
@[simp] theorem setCalTile_host : (d.setCalTile t f).host = d.host := rfl
@[simp] theorem setCalTile_sheaf : (d.setCalTile t f).sheaf = d.sheaf := rfl
@[simp] theorem setCalTile_ldg : (d.setCalTile t f).ldg = d.ldg := rfl
@[simp] theorem setCalTile_ra : (d.setCalTile t f).ra = d.ra := rfl
@[simp] theorem setCalTile_head : (d.setCalTile t f).head = d.head := rfl
@[simp] theorem setCalTile_stg : (d.setCalTile t f).stg = d.stg := rfl
@[simp] theorem setCalTile_heat : (d.setCalTile t f).heat = d.heat := rfl
@[simp] theorem setCalTile_cams : (d.setCalTile t f).cams = d.cams := rfl
@[simp] theorem setCalTile_saf : (d.setCalTile t f).saf = d.saf := rfl
@[simp] theorem setCalTile_met : (d.setCalTile t f).met = d.met := rfl
@[simp] theorem setCalTile_gln : (d.setCalTile t f).gln = d.gln := rfl
@[simp] theorem setCalTile_hbm : (d.setCalTile t f).hbm = d.hbm := rfl
@[simp] theorem setCalTile_eng : (d.setCalTile t f).eng = d.eng := rfl
@[simp] theorem setCalTile_hbmc : (d.setCalTile t f).hbmc = d.hbmc := rfl
@[simp] theorem setCalTile_kry : (d.setCalTile t f).kry = d.kry := rfl
@[simp] theorem setCalTile_tim : (d.setCalTile t f).tim = d.tim := rfl
@[simp] theorem setCalTile_pnl : (d.setCalTile t f).pnl = d.pnl := rfl
@[simp] theorem setCalTile_kq : (d.setCalTile t f).kq = d.kq := rfl
@[simp] theorem setCalTile_kin : (d.setCalTile t f).kin = d.kin := rfl
@[simp] theorem setCalTile_outs : (d.setCalTile t f).outs = d.outs := rfl
@[simp] theorem setCalTile_log : (d.setCalTile t f).log = d.log := rfl
end

/-! ### Dev.setSlot -/

section
variable (d : Dev) (k : Nat) (f : Slot → Slot)
@[simp] theorem setSlot_rf : (d.setSlot k f).rf = d.rf := rfl
@[simp] theorem setSlot_latch : (d.setSlot k f).latch = d.latch := rfl
@[simp] theorem setSlot_clk : (d.setSlot k f).clk = d.clk := rfl
@[simp] theorem setSlot_top : (d.setSlot k f).top = d.top := rfl
@[simp] theorem setSlot_host : (d.setSlot k f).host = d.host := rfl
@[simp] theorem setSlot_sheaf : (d.setSlot k f).sheaf = d.sheaf := rfl
@[simp] theorem setSlot_ra : (d.setSlot k f).ra = d.ra := rfl
@[simp] theorem setSlot_head : (d.setSlot k f).head = d.head := rfl
@[simp] theorem setSlot_stg : (d.setSlot k f).stg = d.stg := rfl
@[simp] theorem setSlot_heat : (d.setSlot k f).heat = d.heat := rfl
@[simp] theorem setSlot_cal : (d.setSlot k f).cal = d.cal := rfl
@[simp] theorem setSlot_cams : (d.setSlot k f).cams = d.cams := rfl
@[simp] theorem setSlot_saf : (d.setSlot k f).saf = d.saf := rfl
@[simp] theorem setSlot_met : (d.setSlot k f).met = d.met := rfl
@[simp] theorem setSlot_gln : (d.setSlot k f).gln = d.gln := rfl
@[simp] theorem setSlot_hbm : (d.setSlot k f).hbm = d.hbm := rfl
@[simp] theorem setSlot_eng : (d.setSlot k f).eng = d.eng := rfl
@[simp] theorem setSlot_hbmc : (d.setSlot k f).hbmc = d.hbmc := rfl
@[simp] theorem setSlot_kry : (d.setSlot k f).kry = d.kry := rfl
@[simp] theorem setSlot_tim : (d.setSlot k f).tim = d.tim := rfl
@[simp] theorem setSlot_pnl : (d.setSlot k f).pnl = d.pnl := rfl
@[simp] theorem setSlot_kq : (d.setSlot k f).kq = d.kq := rfl
@[simp] theorem setSlot_kin : (d.setSlot k f).kin = d.kin := rfl
@[simp] theorem setSlot_outs : (d.setSlot k f).outs = d.outs := rfl
@[simp] theorem setSlot_log : (d.setSlot k f).log = d.log := rfl
end

/-! ### Dev.updPortion -/

section
variable (d : Dev) (n : Nat) (f : Portion → Portion)
@[simp] theorem updPortion_rf : (d.updPortion n f).rf = d.rf := rfl
@[simp] theorem updPortion_latch : (d.updPortion n f).latch = d.latch := rfl
@[simp] theorem updPortion_clk : (d.updPortion n f).clk = d.clk := rfl
@[simp] theorem updPortion_top : (d.updPortion n f).top = d.top := rfl
@[simp] theorem updPortion_host : (d.updPortion n f).host = d.host := rfl
@[simp] theorem updPortion_ldg : (d.updPortion n f).ldg = d.ldg := rfl
@[simp] theorem updPortion_ra : (d.updPortion n f).ra = d.ra := rfl
@[simp] theorem updPortion_head : (d.updPortion n f).head = d.head := rfl
@[simp] theorem updPortion_stg : (d.updPortion n f).stg = d.stg := rfl
@[simp] theorem updPortion_heat : (d.updPortion n f).heat = d.heat := rfl
@[simp] theorem updPortion_cal : (d.updPortion n f).cal = d.cal := rfl
@[simp] theorem updPortion_cams : (d.updPortion n f).cams = d.cams := rfl
@[simp] theorem updPortion_saf : (d.updPortion n f).saf = d.saf := rfl
@[simp] theorem updPortion_met : (d.updPortion n f).met = d.met := rfl
@[simp] theorem updPortion_gln : (d.updPortion n f).gln = d.gln := rfl
@[simp] theorem updPortion_hbm : (d.updPortion n f).hbm = d.hbm := rfl
@[simp] theorem updPortion_eng : (d.updPortion n f).eng = d.eng := rfl
@[simp] theorem updPortion_hbmc : (d.updPortion n f).hbmc = d.hbmc := rfl
@[simp] theorem updPortion_kry : (d.updPortion n f).kry = d.kry := rfl
@[simp] theorem updPortion_tim : (d.updPortion n f).tim = d.tim := rfl
@[simp] theorem updPortion_pnl : (d.updPortion n f).pnl = d.pnl := rfl
@[simp] theorem updPortion_kq : (d.updPortion n f).kq = d.kq := rfl
@[simp] theorem updPortion_kin : (d.updPortion n f).kin = d.kin := rfl
@[simp] theorem updPortion_outs : (d.updPortion n f).outs = d.outs := rfl
@[simp] theorem updPortion_log : (d.updPortion n f).log = d.log := rfl
end

/-! ### Dev.updLayer -/

section
variable (d : Dev) (n : Nat) (f : Layer → Layer)
@[simp] theorem updLayer_rf : (d.updLayer n f).rf = d.rf := rfl
@[simp] theorem updLayer_latch : (d.updLayer n f).latch = d.latch := rfl
@[simp] theorem updLayer_clk : (d.updLayer n f).clk = d.clk := rfl
@[simp] theorem updLayer_top : (d.updLayer n f).top = d.top := rfl
@[simp] theorem updLayer_host : (d.updLayer n f).host = d.host := rfl
@[simp] theorem updLayer_ldg : (d.updLayer n f).ldg = d.ldg := rfl
@[simp] theorem updLayer_ra : (d.updLayer n f).ra = d.ra := rfl
@[simp] theorem updLayer_head : (d.updLayer n f).head = d.head := rfl
@[simp] theorem updLayer_stg : (d.updLayer n f).stg = d.stg := rfl
@[simp] theorem updLayer_heat : (d.updLayer n f).heat = d.heat := rfl
@[simp] theorem updLayer_cal : (d.updLayer n f).cal = d.cal := rfl
@[simp] theorem updLayer_cams : (d.updLayer n f).cams = d.cams := rfl
@[simp] theorem updLayer_saf : (d.updLayer n f).saf = d.saf := rfl
@[simp] theorem updLayer_met : (d.updLayer n f).met = d.met := rfl
@[simp] theorem updLayer_gln : (d.updLayer n f).gln = d.gln := rfl
@[simp] theorem updLayer_hbm : (d.updLayer n f).hbm = d.hbm := rfl
@[simp] theorem updLayer_eng : (d.updLayer n f).eng = d.eng := rfl
@[simp] theorem updLayer_hbmc : (d.updLayer n f).hbmc = d.hbmc := rfl
@[simp] theorem updLayer_kry : (d.updLayer n f).kry = d.kry := rfl
@[simp] theorem updLayer_tim : (d.updLayer n f).tim = d.tim := rfl
@[simp] theorem updLayer_pnl : (d.updLayer n f).pnl = d.pnl := rfl
@[simp] theorem updLayer_kq : (d.updLayer n f).kq = d.kq := rfl
@[simp] theorem updLayer_kin : (d.updLayer n f).kin = d.kin := rfl
@[simp] theorem updLayer_outs : (d.updLayer n f).outs = d.outs := rfl
@[simp] theorem updLayer_log : (d.updLayer n f).log = d.log := rfl
end

/-! ### Dev.updStroke -/

section
variable (d : Dev) (n : Nat) (f : Stroke → Stroke)
@[simp] theorem updStroke_rf : (d.updStroke n f).rf = d.rf := rfl
@[simp] theorem updStroke_latch : (d.updStroke n f).latch = d.latch := rfl
@[simp] theorem updStroke_clk : (d.updStroke n f).clk = d.clk := rfl
@[simp] theorem updStroke_top : (d.updStroke n f).top = d.top := rfl
@[simp] theorem updStroke_host : (d.updStroke n f).host = d.host := rfl
@[simp] theorem updStroke_ldg : (d.updStroke n f).ldg = d.ldg := rfl
@[simp] theorem updStroke_ra : (d.updStroke n f).ra = d.ra := rfl
@[simp] theorem updStroke_head : (d.updStroke n f).head = d.head := rfl
@[simp] theorem updStroke_stg : (d.updStroke n f).stg = d.stg := rfl
@[simp] theorem updStroke_heat : (d.updStroke n f).heat = d.heat := rfl
@[simp] theorem updStroke_cal : (d.updStroke n f).cal = d.cal := rfl
@[simp] theorem updStroke_cams : (d.updStroke n f).cams = d.cams := rfl
@[simp] theorem updStroke_saf : (d.updStroke n f).saf = d.saf := rfl
@[simp] theorem updStroke_met : (d.updStroke n f).met = d.met := rfl
@[simp] theorem updStroke_gln : (d.updStroke n f).gln = d.gln := rfl
@[simp] theorem updStroke_hbm : (d.updStroke n f).hbm = d.hbm := rfl
@[simp] theorem updStroke_eng : (d.updStroke n f).eng = d.eng := rfl
@[simp] theorem updStroke_hbmc : (d.updStroke n f).hbmc = d.hbmc := rfl
@[simp] theorem updStroke_kry : (d.updStroke n f).kry = d.kry := rfl
@[simp] theorem updStroke_tim : (d.updStroke n f).tim = d.tim := rfl
@[simp] theorem updStroke_pnl : (d.updStroke n f).pnl = d.pnl := rfl
@[simp] theorem updStroke_kq : (d.updStroke n f).kq = d.kq := rfl
@[simp] theorem updStroke_kin : (d.updStroke n f).kin = d.kin := rfl
@[simp] theorem updStroke_outs : (d.updStroke n f).outs = d.outs := rfl
@[simp] theorem updStroke_log : (d.updStroke n f).log = d.log := rfl
end

/-! ### The element an update of a table changes, and the others -/

theorem col_setCol (d : Dev) (i j : Nat) (f : Column → Column) :
    (d.setCol i f).col j = if j = i ∧ i < 128 then f (d.col i) else d.col j := nth_put 128 _ _ i j f

theorem tile_setTile (d : Dev) (i j : Nat) (f : Tile → Tile) :
    (d.setTile i f).tile j = if j = i ∧ i < 16 then f (d.tile i) else d.tile j := nth_put 16 _ _ i j f

theorem arb_setArb (d : Dev) (i j : Nat) (f : Arb → Arb) :
    (d.setArb i f).arb j = if j = i ∧ i < 20 then f (d.arb i) else d.arb j := nth_put 20 _ _ i j f

theorem chan_setChan (d : Dev) (i j : Nat) (f : Chan → Chan) :
    (d.setChan i f).chan j = if j = i ∧ i < 32 then f (d.chan i) else d.chan j := nth_put 32 _ _ i j f

theorem unit_setUnit (d : Dev) (i j : Nat) (f : ChkUnit → ChkUnit) :
    (d.setUnit i f).unit j = if j = i ∧ i < 8 then f (d.unit i) else d.unit j := nth_put 8 _ _ i j f

theorem port_setPort (d : Dev) (i j : Nat) (f : KPort → KPort) :
    (d.setPort i f).port j = if j = i ∧ i < 4 then f (d.port i) else d.port j := nth_put 4 _ _ i j f

theorem cam_setCam (d : Dev) (i j : Nat) (f : Camera → Camera) :
    (d.setCam i f).cam j = if j = i ∧ i < 4 then f (d.cam i) else d.cam j := nth_put 4 _ _ i j f

theorem thr_setThr (d : Dev) (i j : Nat) (f : Thresher → Thresher) :
    (d.setThr i f).thr j = if j = i ∧ i < 17 then f (d.thr i) else d.thr j := nth_put 17 _ _ i j f

theorem slot_setSlot (d : Dev) (i j : Nat) (f : Slot → Slot) :
    (d.setSlot i f).slot j = if j = i ∧ i < 4 then f (d.slot i) else d.slot j := nth_put 4 _ _ i j f

theorem portion_updPortion (d : Dev) (i j : Nat) (f : Portion → Portion) :
    (d.updPortion i f).portion j = if j = i ∧ i < 8 then f (d.portion i) else d.portion j := nth_put 8 _ _ i j f

theorem ringSt_setRing (d : Dev) (i j : Nat) (f : RingSt → RingSt) :
    (d.setRing i f).ringSt j = if j = i ∧ i < 16 then f (d.ringSt i) else d.ringSt j := nth_put 16 _ _ i j f

@[simp] theorem top_setTop (d : Dev) (f : Top → Top) : (d.setTop f).top = f d.top := rfl
@[simp] theorem ra_setRa (d : Dev) (f : RunAhead → RunAhead) : (d.setRa f).ra = f d.ra := rfl
@[simp] theorem saf_setSaf (d : Dev) (f : Saf → Saf) : (d.setSaf f).saf = f d.saf := rfl
@[simp] theorem met_setMet (d : Dev) (f : Met → Met) : (d.setMet f).met = f d.met := rfl
@[simp] theorem tim_setTim (d : Dev) (f : Tim → Tim) : (d.setTim f).tim = f d.tim := rfl
@[simp] theorem stg_setStg (d : Dev) (f : Stage → Stage) : (d.setStg f).stg = f d.stg := rfl

end Sys2Proof.Laws
end

