-- ==== Sys2Proof/WellFormed.lean ====
section
/-!
DEFINITION. Well-formed commands: every operand lies in the range that the manual gives it. A command outside its ranges
names nothing the device has, and its meaning has no effect.
-/
namespace Sys2Proof

open Sys2Proof.Machine

/-- A portion, or layout ring (R82). -/
def isPortion (x : Nat) : Bool := decide (x < 8)

/-- A ring; ring 15 is reserved (R368). -/
def isRing (x : Nat) : Bool := decide (x < 15)

/-- A Thresher (R133). -/
def isThresher (x : Nat) : Bool := decide (x < 17)

/-- A column (R14). -/
def isColumn (x : Nat) : Bool := decide (x < 128)

/-- A head tile (R14). -/
def isTile (x : Nat) : Bool := decide (x < 16)

/-- A channel of the program engine (R408). -/
def isChannel (x : Nat) : Bool := decide (x < 32)

/-- A camera pipeline or port (R260). -/
def isCamera (x : Nat) : Bool := decide (x < 4)

/-- A CSI-2 virtual channel (R260). -/
def isVc (x : Nat) : Bool := decide (x < 16)

/-- A bank of a two-bank table (R207, R244). -/
def isBank (x : Nat) : Bool := decide (x < 2)

/-- A lane of a tile (R307). -/
def isLane (x : Nat) : Bool := decide (x < 4)

/-- A dwell of an eye scan (R307). -/
def isDwell (x : Nat) : Bool := decide (x < 8)

/-- A quadrature axis (R342). -/
def isAxis (x : Nat) : Bool := decide (x < 2)

/-- A level-1 arbiter (R452). -/
def isArbiter (x : Nat) : Bool := decide (x < 20)

/-- A requester of an arbiter (R452). -/
def isRequester (x : Nat) : Bool := decide (x < 32)

/-- An Ethernet receive slot (R537). -/
def isRxSlot (x : Nat) : Bool := decide (x < 16)

/-- An Ethernet transmit slot (R535). -/
def isTxSlot (x : Nat) : Bool := decide (x < 8)

/-- A pseudo-channel of the HBM3E (R441). -/
def isPseudoChannel (x : Nat) : Bool := decide (x < 32)

/-- A fabric port (R488). -/
def isPort (x : Nat) : Bool := decide (x < 4)

/-- An interlock input (R560). -/
def isInput (x : Nat) : Bool := decide (x < 5)

/-- A panel key (R622). -/
def isKey (x : Nat) : Bool := decide (x < 8)

/-- A ledger slot (R605). -/
def isSlot (x : Nat) : Bool := decide (x < 4)

/-- A reason of FAST_RETRAIN: block lock lost, or excess errors (R493). -/
def isReason (x : Nat) : Bool := decide (x < 2)

/-- A source of the host-interface reset (R71). -/
def isCause (x : Nat) : Bool := decide (x < 3)

/-- A kind of bus error (R427). -/
def isKind (x : Nat) : Bool := decide (x < 5)

/-- The strap balls (R65, R80). -/
def isStraps (x : Nat) : Bool := decide (x < 32)

/-- A 32-bit register or doorbell value (R10). -/
def isWord (x : Nat) : Bool := decide (x < 2 ^ 32)

/-- The value of a 32-bit or 64-bit write (R646). -/
def isPairWord (x : Nat) : Bool := decide (x < 2 ^ 64)

/-- A 128-bit flit or instruction word (R409, R488). -/
def isFlit (x : Nat) : Bool := decide (x < 2 ^ 128)

/-- An offset of BAR0 (R364). -/
def isBar0 (x : Nat) : Bool := decide (x < 2 ^ 25)

/-- An offset of BAR2 (R364). -/
def isBar2 (x : Nat) : Bool := decide (x < 2 ^ 16)

/-- A channel mask (R427). -/
def isMask (x : Nat) : Bool := decide (x < 2 ^ 32)

/-- The length of a BAR0 access in bytes (R646). -/
def isLen (x : Nat) : Bool := x == 1 || x == 2 || x == 4 || x == 8

/-- The four margins of an eye scan, a byte each (R307, R495). -/
def isMargins (m : List Nat) : Bool := m.length == 4 && m.all fun x => decide (x < 256)

/-- A SAF_SPI request: 52 bytes (R550). -/
def isRequest (b : List Byte) : Bool := b.length == 52

/-- Whether every operand of a command lies in its range. -/
def Instr.wf : Instr → Bool
  | .tickEdge ups => ups.all fun u => decide (u.syn < 2 ^ 24)
  | .commitPoint _ => true
  | .stallTimeout => true
  | .sealWindowOpen => true
  | .strikeCriticalWindowEnd => true
  | .mainRailFail _ => true
  | .mainPorRelease straps _ _ => isStraps straps
  | .sysRstNRise straps _ _ => isStraps straps
  | .deviceReset _ => true
  | .topReset v _ _ => isWord v
  | .perstNRise _ => true
  | .hostInterfaceReset why _ => isCause why
  | .functionLevelReset _ => true
  | .busMasterEnable _ _ _ _ => true
  | .safPowerOn _ => true
  | .vddSafLoss _ => true
  | .metPowerOn _ _ _ _ => true
  | .vddMetLoss _ => true
  | .sessionOpen _ => true
  | .sessionAuth _ => true
  | .sessionClose _ => true
  | .sessionKeepalive _ => true
  | .nop _ => true
  | .modeSet _ => true
  | .resume _ => true
  | .libValidate _ => true
  | .libValidateDone _ => true
  | .calRun _ => true
  | .selfTest _ => true
  | .segment n _ _ => isPortion n
  | .segmentComplete n _ => isPortion n
  | .channelStart _ => true
  | .metBuildBegin _ => true
  | .metBuildEnd _ => true
  | .metExport _ => true
  | .sessionTimeout => true
  | .challengeExpiry => true
  | .sessionLockoutEnd => true
  | .relayTimeout => true
  | .doorbell o len v _ => isBar2 o && isLen len && isPairWord v
  | .descriptorFetch n _ _ => isRing n
  | .ringEnable n v _ => isRing n && isWord v
  | .ringDisable n v _ => isRing n && isWord v
  | .fetchErrClear n _ => isRing n
  | .irqDelayExpiry n => isRing n
  | .telemetryPeriod => true
  | .layerCompletion _ => true
  | .metRecordExport _ => true
  | .layerBegin n _ => isPortion n
  | .classTable n _ => isPortion n
  | .stripeBegin n _ => isPortion n
  | .layerEnd n _ => isPortion n
  | .rect n _ => isPortion n
  | .trap n _ => isPortion n
  | .ref_ n _ => isPortion n
  | .aref n _ => isPortion n
  | .rawBlock n _ => isPortion n
  | .sheafCheck n _ => isPortion n
  | .fence n _ => isPortion n
  | .layerAccept _ => true
  | .strokeAccept _ => true
  | .fenceReached n _ _ => isPortion n
  | .blockRowBegin t _ => isThresher t
  | .blockExpanded t _ _ _ => isThresher t
  | .rebuildStart t _ => isThresher t
  | .rebuildComplete t _ _ _ _ => isThresher t
  | .thresherDisable n _ => isThresher n
  | .thresherEnable n _ => isThresher n
  | .thresherReinstate n _ => isThresher n
  | .tillerEntryCompute c _ _ _ => isColumn c
  | .correctionReplay c _ _ _ => isColumn c
  | .columnDisable n _ => isColumn n
  | .columnEnable n _ => isColumn n
  | .shadowWrite n which v _ => isColumn n && decide (which < 3) && isWord v
  | .shareConfigApply t _ => isTile t
  | .healthCommit bank _ => isBank bank
  | .tempLatch _ => true
  | .rampComplete t _ => isTile t
  | .arm _ => true
  | .retreatReqFall _ => true
  | .strikeOkRise _ => true
  | .layerClose _ => true
  | .ageSweepVisit _ => true
  | .assimilation _ => true
  | .seamMessage _ => true
  | .seamMessageDeadline _ _ => true
  | .heatParamApply _ => true
  | .ftabCommit bank _ => isBank bank
  | .frameStart port vc _ => isCamera port && isVc vc
  | .frameEnd port vc _ => isCamera port && isVc vc
  | .lineStart port vc _ => isCamera port && isVc vc
  | .lineEnd port vc _ => isCamera port && isVc vc
  | .csiLongPacket port _ _ => isCamera port
  | .mapComplete c _ => isCamera c
  | .pqPush c v _ => isCamera c && isWord v
  | .paramStaging c _ => isCamera c
  | .cameraTimeout c => isCamera c
  | .cameraDisable c _ => isCamera c
  | .cameraEnable c _ => isCamera c
  | .cameraPlug port _ => isCamera port
  | .cameraUnplug port _ => isCamera port
  | .strikeRecord t _ _ _ => isTile t
  | .statusRecord t _ _ => isTile t
  | .linkRecord t _ _ => isTile t
  | .eyeRecord t _ _ => isTile t
  | .ackExpectTimeout t => isTile t
  | .ackLateTimeout t => isTile t
  | .tilePlug t _ => isTile t
  | .tileUnplug t _ => isTile t
  | .tileBringup t _ => isTile t
  | .bringupStepTimeout t _ => isTile t
  | .factoryCalCopyDone t _ _ => isTile t
  | .retrain t _ => isTile t
  | .reident t _ => isTile t
  | .tileEyeScanStart t lane dwell _ => isTile t && isLane lane && isDwell dwell
  | .tileEyeScanTimeout t => isTile t
  | .returnLaneScanDone t margins _ => isTile t && isMargins margins
  | .tileLinkFault t _ _ _ => isTile t
  | .calRunStart _ => true
  | .calibrationStrike => true
  | .calRunEnd _ => true
  | .calBankIntoForce _ => true
  | .stageSample _ _ _ _ => true
  | .stageSampleRecord _ => true
  | .quadIndex q _ _ => isAxis q
  | .holdReqAssert _ => true
  | .holdReqDeassert _ => true
  | .layerSync _ => true
  | .end_ c word _ => isChannel c && isFlit word
  | .move c word _ _ => isChannel c && isFlit word
  | .fill c word _ => isChannel c && isFlit word
  | .check c word _ _ => isChannel c && isFlit word
  | .loop c word _ => isChannel c && isFlit word
  | .wait c word _ => isChannel c && isFlit word
  | .waitSatisfied c _ => isChannel c
  | .waitTimeout c => isChannel c
  | .signal c word _ => isChannel c && isFlit word
  | .link c word _ => isChannel c && isFlit word
  | .channelDoorbell o len _ => isBar2 o && isLen len
  | .cpeBusError kind _ mask _ _ => isKind kind && isMask mask
  | .restart c _ => isChannel c
  | .abort c _ => isChannel c
  | .hbmRequest _ _ => true
  | .hbmAgePromotion a r => isArbiter a && isRequester r
  | .arbWithdraw a r _ => isArbiter a && isRequester r
  | .arbCutoff a r _ => isArbiter a && isRequester r
  | .arbCommit _ => true
  | .hbmOrderWrite v _ => isWord v
  | .hbmRemapDone _ => true
  | .hbmRefreshDue p _ => isPseudoChannel p
  | .hbmTempCrossing _ _ _ => true
  | .scrubRead => true
  | .kryPortEnable p _ => isPort p
  | .kryPortDisable p v _ => isPort p && isWord v
  | .kryBringupStepTimeout p => isPort p
  | .train p w _ _ => isPort p && isFlit w
  | .hello p w _ => isPort p && isFlit w
  | .enum p w _ => isPort p && isFlit w
  | .idle p w _ => isPort p && isFlit w
  | .dly p w _ _ => isPort p && isFlit w
  | .dlyPeriod _ => true
  | .fastRetrain p reason _ => isPort p && isReason reason
  | .kryIdleTimeout p => isPort p
  | .kryRetrain p v _ => isPort p && isWord v
  | .kryAckTimeout p => isPort p
  | .rootEnumStart _ => true
  | .kryConfirm v _ => isWord v
  | .kryReenum v _ => isWord v
  | .kryRouteCommit _ => true
  | .kryEyeScanStart p v _ => isPort p && isWord v
  | .kryEyeScanDone p margins _ => isPort p && isMargins margins
  | .mapReport _ => true
  | .relayCmd _ => true
  | .relayCpl _ => true
  | .relayedEvent _ => true
  | .relayedTelemetry _ => true
  | .timeMessage _ => true
  | .timeMessageSend => true
  | .servoIntervalExpiry => true
  | .timeStepArm v _ => isWord v
  | .timeRateWrite v _ => isWord v
  | .timeSlewWrite v _ => isWord v
  | .holdoverEnter v _ => isWord v
  | .holdoverTimeout => true
  | .ethTxGo s v _ => isTxSlot s && isWord v
  | .ethLaunch s => isTxSlot s
  | .txqPop _ => true
  | .ptpFrameReceive _ _ => true
  | .rxSlotFree r _ => isRxSlot r
  | .heartbeat req _ => isRequest req
  | .safRead req _ => isRequest req
  | .safWrite req _ => isRequest req
  | .ceilWrite req _ => isRequest req
  | .safCommit req _ _ => isRequest req
  | .release req _ => isRequest req
  | .trip req _ => isRequest req
  | .lock req _ _ => isRequest req
  | .keySet req _ _ => isRequest req
  | .safHeartbeatTimeout => true
  | .safLockoutEnd => true
  | .interlockFall i _ => isInput i
  | .interlockOk i _ => isInput i
  | .estopDiscrepancy => true
  | .safClockFault _ _ => true
  | .safCrcCheck _ _ => true
  | .benReadbackFault t _ => isTile t
  | .safTempRecord t _ _ => isTile t
  | .safStaleTimeout t => isTile t
  | .strobeWatchdog => true
  | .safFrameCheck t _ _ _ _ _ => isTile t
  | .safPlugChange t _ _ => isTile t
  | .metSealChange _ _ => true
  | .metServicePoll _ _ _ => true
  | .metDisplayUpdate _ _ => true
  | .metXtalStop _ => true
  | .metXtalRestored _ => true
  | .metNvRetry _ _ => true
  | .keyPress k _ => isKey k
  | .keyRelease k _ => isKey k
  | .gleanEnable v _ => isWord v
  | .gleanDisable v _ => isWord v
  | .gleanPeriodicSample => true
  | .pmcSnap v _ => isWord v
  | .pmcClear v _ => isWord v
  | .latchingRead a len _ => isBar0 a && isLen len
  | .clearOnRead a len _ => isBar0 a && isLen len
  | .ldgLayerRead k _ => k.all isSlot
  | .registerWrite a len v _ => isBar0 a && isLen len && isPairWord v
  | .quadCountError q _ => isAxis q
  | .safSpiBadTransaction _ _ => true
  | .frameForward p _ _ => isPort p
  | .returnLaneWordLock t _ => isTile t
  | .idHeaderRead t _ _ => isTile t
  | .slewComplete => true
  | .d3hotTransition _ _ => true

end Sys2Proof
end

