-- ==== Sys2Proof/Tests/Slice0.lean ====
section
/-!
SUPPORT. The model's own tests: the ill-formed terms that each check refuses, the worked examples of the manual, and for every
statement with hypotheses concrete values that meet them, clause by clause.
-/
set_option Elab.async false

namespace Sys2Proof.Tests

open Sys2Proof Sys2Proof.Machine

/-! ### Building small devices -/

/-- A device past start-up in a mode, with its link up and no session. -/
def bare (m : Mode) : Dev :=
  { top := { phase := .running, mode := m, railsGood := true, sysRst := true }, host := { perst := true, bme := true } }

/-- The same with a session open. -/
def upIn (m : Mode) : Dev :=
  { bare m with host := { perst := true, bme := true, session := some { rings := 0xFFFF, keepAt := 0 } } }

/-- A device with no command waiting. -/
def ofD (d : Dev) : State := { dev := d, pending := [] }

/-- Set registers. -/
def regs (d : Dev) (l : List (Nat × Nat)) : Dev := l.foldl (fun d e => d.wr e.1 e.2) d

/-- Change one block of a device. -/
def onTop (d : Dev) (f : Top → Top) : Dev := { d with top := f d.top }
def onHost (d : Dev) (f : HostIf → HostIf) : Dev := { d with host := f d.host }
def onSheaf (d : Dev) (f : Sheaf → Sheaf) : Dev := { d with sheaf := f d.sheaf }
def onRa (d : Dev) (f : RunAhead → RunAhead) : Dev := { d with ra := f d.ra }
def onHead (d : Dev) (f : Head → Head) : Dev := { d with head := f d.head }
def onStg (d : Dev) (f : Stage → Stage) : Dev := { d with stg := f d.stg }
def onHeat (d : Dev) (f : Heat → Heat) : Dev := { d with heat := f d.heat }
def onCal (d : Dev) (f : Cal → Cal) : Dev := { d with cal := f d.cal }
def onSaf (d : Dev) (f : Saf → Saf) : Dev := { d with saf := f d.saf }
def onMet (d : Dev) (f : Met → Met) : Dev := { d with met := f d.met }
def onEng (d : Dev) (f : Eng → Eng) : Dev := { d with eng := f d.eng }
def onHbmc (d : Dev) (f : HbmC → HbmC) : Dev := { d with hbmc := f d.hbmc }
def onKry (d : Dev) (f : Kry → Kry) : Dev := { d with kry := f d.kry }
def onTim (d : Dev) (f : Tim → Tim) : Dev := { d with tim := f d.tim }
def onPnl (d : Dev) (f : Pnl → Pnl) : Dev := { d with pnl := f d.pnl }
def onCam (d : Dev) (c : Nat) (f : Camera → Camera) : Dev := { d with cams := put 4 {} d.cams c f }
def onTile (d : Dev) (k : Nat) (f : Tile → Tile) : Dev := onHead d fun h => { h with tiles := put 16 {} h.tiles k f }
def onChan (d : Dev) (c : Nat) (f : Chan → Chan) : Dev := onEng d fun e => { e with chans := put 32 {} e.chans c f }
def onPort (d : Dev) (p : Nat) (f : KPort → KPort) : Dev := onKry d fun k => { k with ports := put 4 {} k.ports p f }
def onCol (d : Dev) (c : Nat) (f : Column → Column) : Dev := onRa d fun r => { r with cols := put 128 {} r.cols c f }

/-- A descriptor of ring 0 with this opcode; the arguments start at byte 12. -/
def desc (op : Nat) (args : List Byte) : Desc :=
  { ring := 0, count := 0, body := padTo 64 (toLE 2 op ++ List.replicate 10 0 ++ args) }

/-- The device with this command at the front of ring 0. -/
def queued (d : Dev) (x : Desc) : Dev := onHost d fun h => { h with q0 := [x] }

/-- A device whose safety partition is powered. -/
def safUp : Dev := onSaf (upIn .configure) fun s => { s with on := true }

/-- The safety partition powered, SAFE_STATE released. -/
def safGo (m : Mode) : Dev := onSaf (upIn m) fun s => { s with on := true, safe := false, cause := 0, plug := 0xFFFF }

/-- Staged settings that a commit accepts: MINPER 5,000 and a watchdog of 4,000. -/
def safCommitDev : Dev :=
  onSaf safUp fun s => { s with staged := [(Reg.SAF_MINPER, 5000), (Reg.SAF_WDOG, 4000)] }

/-- The beam-enable output of tile 15 on. -/
def benOn : Dev :=
  regs (onSaf (safGo .expose) fun s => { s with spacing := List.replicate 16 (some 5) })
    [(Reg.SAF_TILE_EN, 0xFFFF), (Reg.SAF_TILE_t 15, 5 * 65536)]

/-- A request of SAF_SPI: command, flags, address, count, payload, with its tag and CRC (R551, R552). -/
def mkReq (cmd flags addr cnt : Nat) (pay : List Byte) : List Byte :=
  let a := toLE 1 cmd ++ toLE 1 flags ++ toLE 2 addr ++ toLE 4 cnt ++ padTo 32 pay
  let b := a ++ (cmac128 safUp.saf.macKey (a ++ toLE 4 0)).take 8
  b ++ toLE 4 (crc32 b)

/-- The stage at line 0 at 1 ms, moving one line in 10 us; the last edge was 1 us ago. -/
def moving (d : Dev) : Dev :=
  let s0 : Sample := { t := 980000, y := -131072, seq := 0, flags := 1, vwin := 1, period := 10000, useDelay := 0 }
  let s1 : Sample := { t := 990000, y := -65536, seq := 1, flags := 1, vwin := 1, period := 10000, useDelay := 0 }
  let t := { d.top with edgeAt := nsT 999000, tPrev := nsT 999000 }
  { d with clk := { v := nsT 1000000 }, top := t, stg := { d.stg with recs := [s1, s0] } }

/-- A stroke of 64 lines. -/
def stroke0 : Stroke :=
  { sseq := 0, lseq := 0, layer := 0, stroke := 0, n := 64, x0 := 0, y0 := 0, blendE := false, blendW := false,
    winnow := false, q0 := 0 }

/-- The device with that stroke accepted. -/
def struck (m : Mode) : Dev := onSheaf (upIn m) fun s => { s with strokes := [stroke0], nextSseq := 1, nextQ := 64 }

/-- Change one portion. -/
def onPortion (d : Dev) (n : Nat) (f : Portion → Portion) : Dev := d.updPortion n f

/-- A record: TYPE, more bits of its first word, the words after it. -/
def rcd (typ more : Nat) (rest : List Nat) : List (BitVec 64) :=
  BitVec.ofNat 64 (typ + 256 * (rest.length + 1) + more) :: rest.map (BitVec.ofNat 64)

/-- A segment that holds these words. -/
def seg (w : List (BitVec 64)) : Segment := { desc := { ring := 4, count := 0, body := List.replicate 64 0 }, words := w }

/-- A layer as parsed. -/
def hdr0 : LayerHdr := { lseq := 0, begin_ := rcd 0x10 0 [1, 0, 0] }

/-- A layer as accepted. -/
def layer0 : Layer :=
  { lseq := 0, num := 0, tag := 0, duEnergy := 1, libBase := 0, libLimit := 0, scales := List.replicate 16 0, slot := 0 }

/-- A stripe header of n lines at the origin in portion p. -/
def stripeRec (p n : Nat) (win : Nat) : List (BitVec 64) := rcd 0x12 (p * 2 ^ 40 + win * 2 ^ 24) [0, n]

/-- A stripe as parsed. -/
def stripe0 (win : Nat) : Stripe := { sseq := 0, lseq := 0, hdr := stripeRec 0 128 win }

/-- A SESSION_AUTH whose code is right for challenge k. -/
def authDesc (k : Nat) : Desc :=
  { ring := 0, count := 0
    body := (toLE 2 2 ++ List.replicate 10 0 ++ [0xFF, 0x7F, 0, 0] ++ List.replicate 16 0) ++
      sessionMac (List.replicate 32 0) k (List.replicate 16 0) 0x7FFF }

/-- A SESSION_AUTH without a code. -/
def badAuth : Desc := { ring := 0, count := 0, body := toLE 2 2 ++ List.replicate 30 0 }

/-- The register row of an offset. -/
def rowOf (a : Nat) : RegRow := (regRow a).getD ⟨0, 0, 0, 0, 0, 0, 0, 0, 0, 0⟩

/-- A layout descriptor of a segment of this many bytes. -/
def segDesc (len : Nat) : Desc :=
  { ring := 4, count := 0, body := padTo 64 (toLE 2 0x200 ++ List.replicate 14 0 ++ toLE 8 0x1000 ++ toLE 4 len) }

/-- A layer as parsed, with its CLASS_TABLE. -/
def hdr1 : LayerHdr := { lseq := 0, begin_ := rcd 0x10 0 [1], cls := rcd 0x13 0 [0, 0, 0, 0] }

/-- A RAW record of 16 pixels on line 127, the last of portion 7. -/
def rawRec : List (BitVec 64) := rcd 0x38 (127 * 2 ^ 32) [2 ^ 32 + 65536 + 32752, 0, 0, 0]

/-- A library of one cell, number 1, a square at the origin. -/
def withLib (d : Dev) : Dev :=
  { d with hbm := [(0, cleanWord ((2 ^ 63 + 64) * 2 ^ 64)), (4, cleanWord (0x20 + 4 * 256 + 2 ^ 32)),
      (5, cleanWord (64 + 64 * 2 ^ 32 + 3 * 2 ^ 64)), (6, cleanWord (0x31 + 3 * 256)), (7, cleanWord (64 + 64 * 2 ^ 32))] }

/-- Thresher 3 expands row 0 of band 3. -/
def thrDev : Dev :=
  onPortion (onSheaf (struck .expose) fun s => { s with
    layers := [layer0], threshers := put 17 {} s.threshers 3 fun t => { t with busy := some (0, 3, 0) }
    blocks := [{ sseq := 0, band := 3, row := 0, thr := 3 }] }) 1 fun p => { p with stripes := [{ stripe0 0 with closed := true }] }

/-- Line 0 of band 3 is strikable, with its dose in the buffer. -/
def tilDev : Dev :=
  { onHeat (onSheaf (struck .expose) fun s => { s with
      layers := [layer0], blocks := [{ sseq := 0, band := 3, row := 0, thr := 3, st := .strikable }] }) fun h =>
        { h with strokes := [⟨0, 0, 0, 0, 0, 64, 0, false⟩] } with
    hbm := (List.range 192).map fun i => (3 * 2048 * 192 + i, cleanWord 0) }

/-- An entry of line 0. -/
def entry0 : Entry := { sseq := 0, line := 0, tick := 0, q := 0, tPred := 0, period := 10000, epoch := 0, mask := 255 }

/-- A stage sample record that device 7 sent. -/
def smpIn : KIn :=
  { port := 0, ns := 0
    frame := { vl := 0, plen := 2, dst := 0, src := 7, ptype := 1,
               payload := toLE 8 5000 ++ toLE 8 65536 ++ toLE 2 3 ++ [1, 1] ++ toLE 2 10000 ++ [1, 0] ++ toLE 8 0 } }

/-- A stroke blended with the eastern neighbour, in progress. -/
def seamDev : Dev :=
  onHeat (onRa (onSaf (onSheaf (upIn .expose) fun s => { s with strokes := [{ stroke0 with blendE := true }] }) id)
      fun r => { r with cur := some 0 }) fun h =>
    { h with xchgE := true, strokes := [⟨0, 0, 0, 0, 0, 64, 0, false⟩], strikeAt := [(10, 5, 5)] }

/-- Its seam message of stroke tick 10. -/
def seamIn : KIn :=
  { port := 0, ns := 0, frame := { vl := 1, plen := 2, dst := 0, src := 1, ptype := 0x10, arg := 10, payload := List.replicate 32 0 } }

/-- A parameter image of this version. -/
def metImg (ver : Nat) : List Byte :=
  let b := toLE 4 0x4D455450 ++ toLE 2 ver ++ List.replicate 646 0
  b ++ toLE 4 (crc32 b)

/-- A calibration request of all tiles. -/
def calReq0 : CalReq := { desc := none, selfTest := false, mask := 0xFFFF, fit := 0, apply := 0 }

/-- A run of which everything has been made, parked at line 0. -/
def calRun0 : CalRun :=
  { req := calReq0, turn := false, mask := 0, tiles := [], repeat_ := 1, wLo := 0, wHi := 256, period := 5000, park := 0,
    parkTol := 1, tol := 0 }

/-- A record with its CRC. -/
def withCrc (b : List Byte) : List Byte := b ++ toLE 4 (crc32 b)

/-- A strike of tile 15 that fired nothing, at tick 4. -/
def strike0 (f : Nat) : Strike :=
  { tile := 15, tick := 4, at_ := 0, fcrc := f, delays := [], passes := [], expect := 12000, late := 1000 }

/-- The device that awaits its record. -/
def ackDev (f : Nat) : Dev :=
  onRa (onTile (upIn .expose) 15 fun t => { t with st := .up, present := true }) fun r => { r with strikes := [strike0 f] }

/-- A tile's ID header. -/
def idHdr : List Byte :=
  let b := toLE 4 0x7E112600 ++ toLE 2 1 ++ toLE 2 2048 ++ [8, 4] ++ toLE 2 16 ++ [20, 0, 0, 0] ++ toLE 8 77 ++
    toLE 2 1 ++ toLE 2 2 ++ toLE 2 3 ++ toLE 2 4 ++ toLE 2 5 ++ List.replicate 6 0 ++ toLE 4 0x1000 ++ toLE 4 99 ++
    List.replicate 204 0
  b ++ toLE 4 (crc32 b)

/-- CHANNEL_START of channel 31 at address 64. -/
def startDesc : Desc :=
  { ring := 14, count := 0, body := padTo 64 (toLE 2 0x300 ++ List.replicate 10 0 ++ [31, 0, 0, 0] ++ toLE 8 64) }

/-- Channel 31 runs and holds check unit 6. -/
def chkDev : Dev :=
  onEng (upIn .expose) fun e => { e with
    chans := put 32 {} e.chans 31 fun c => { c with st := .run, claim := some 6 }
    units := put 8 {} e.units 6 fun u => { u with owner := some 31, poly := 0x04C11DB7 } }

/-- A camera parameter set. -/
def camSet0 (tag : Nat) : CamSet :=
  { tag, nexp := 2, ke := [1, 1, 1, 1], satAt := [0, 0, 0, 0], wt := [1, 1, 1, 1], tofs := 5, mincnt := 1, bedRef := 0, lin := [],
    rad := [], grid := [], dead := [] }

/-- A frame open in a pipeline: two exposures on virtual channels 14 and 15 of port 3, 4 pixels wide, 2 lines high. -/
def camFrame0 (exps : List CamExpo) : CamFrame :=
  { port := 3, num := 9, vcs := 0xFE, bits := 10, mount := false, width := 8, height := 2, set := camSet0 0, tf := 7, layer := 0,
    stroke := 0, sseq := none, n := 0, pos16 := 0, rb := 0, exps }

/-- Pipeline 3 enabled, on virtual channel 15. -/
def camDev (m : Mode) (f : Camera → Camera) : Dev :=
  onCam (regs (upIn m) [(Reg.CAM_c_CTL 3, 1), (Reg.CAM_c_VC 3, 15)]) 3 f

/-- A camera map. -/
def map0 (counted : Bool) (sseq : Option Nat) (cells : List (Nat × Nat × Nat)) : HMap :=
  { cam := 3, frame := 0, tf := 0, layer := 0, stroke := 0, sseq, row0 := 0, cells, zeroW := false, degraded := false, long := false,
    export_ := false, counted }

/-- A heat plane of one row, written with zeros, its layer in progress. -/
def heatDev : Dev :=
  { onRa (onHeat (onSheaf (upIn .expose) fun s => { s with layers := [layer0], strokes := [stroke0] }) fun h =>
      { h with rows := 1, wts := List.replicate 4 16384, strokes := [⟨0, 0, 0, 0, 0, 64, 0, false⟩],
               maps := [map0 false (some 0) [(0, 0, 500)]] }) fun r => { r with cur := some 0 } with
    hbm := ((List.range 32).map fun i => (i, cleanWord 0)) ++ [(512, cleanWord (2 ^ 64))] }

/-- A received control flit of this content. -/
def flitW (v : Nat) : Nat := v + crc32 (toLE 12 v) * 2 ^ 96

/-- Set fields of registers. -/
def sets (d : Dev) (l : List (Nat × Fld × Nat)) : Dev := l.foldl (fun d e => d.set e.1 e.2.1 e.2.2) d

/-- The ROOT, enumerated. -/
def rootUp (m : Mode) : Dev := sets (onTop (upIn m) fun t => { t with straps := 1 }) [(Reg.KRY_ID, Fd.KRY_ID_VALID, 1), (Reg.KRY_ID, Fd.KRY_ID_GEN, 1)]

/-- A device that is not the ROOT, with port 3 UP. -/
def leaf (m : Mode) (f : KPort → KPort) : Dev := onPort (upIn m) 3 fun x => f { x with st := .up, rate := 3 }

/-- A frame delivered to this device. -/
def inFrame (ptype arg : Nat) (payload : List Byte) : KIn :=
  { port := 3, ns := 0, frame := { vl := 2, plen := 4, dst := 0, src := 7, ptype, arg, payload } }

/-- With this frame delivered. -/
def withIn (d : Dev) (k : KIn) : Dev := { d with kin := [k] }

/-- A relayed command that waits. -/
def relay0 (op : Nat) (first : Option (List Byte)) : Relay :=
  { num := 5, desc := { ring := 0, count := 0, body := padTo 64 (toLE 2 op ++ [1, 0, 0, 0, 0, 0, 7, 0]) }, sentAt := 0, first }

/-- The flits of a frame numbered n. -/
def flitsOf (f : KFrame) (n : Nat) : List (BitVec 128) :=
  let s := 0xA5 + f.vl * 2 ^ 8 + b2n f.bcast * 2 ^ 10 + f.plen * 2 ^ 12 + f.dst * 2 ^ 20 + f.src * 2 ^ 32 + f.hops * 2 ^ 44 + f.ptype * 2 ^ 56 +
    f.arg * 2 ^ 64
  let e := 0x5A + n * 256
  BitVec.ofNat 128 s :: ((List.range f.plen).map fun i => BitVec.ofNat 128 (ofLE ((f.payload.drop (16 * i)).take 16))) ++
    [BitVec.ofNat 128 (e + crc32 (toLE 16 s ++ f.payload ++ toLE 3 e) * 2 ^ 24)]

/-- A time message of this sequence number and epoch. -/
def timeMsg (tns seq epoch : Nat) : List Byte := toLE 8 tns ++ toLE 4 0 ++ toLE 8 0 ++ toLE 2 seq ++ [0, BitVec.ofNat 8 epoch] ++ List.replicate 8 0

/-- An Ethernet frame of PTP over layer 2. -/
def ptp0 : List Byte := List.replicate 12 0 ++ [0x88, 0xF7] ++ List.replicate 50 0

/-- A read of 64 bytes by requester 3 of arbiter 19. -/
def rd0 : HReq := { arb := 0, req := 0, cls := 1, addr := 64, len := 64 }

/-- A pass of patrol scrub over the first 128 bytes, which are written. -/
def scrubDev (w : Nat → HWord) : Dev :=
  { onHbmc (upIn .configure) fun h => { h with pass := some { regions := [(0, 128), (0, 0), (0, 0), (0, 0)], period := 1, at_ := 0 } } with
    hbm := (List.range 8).map fun i => (i, w i) }

/-- A request of SAF_SPI with the tag of this key and its CRC; its first 40 bytes are given (R551, R552). -/
def sealReq (key a : List Byte) : List Byte :=
  let b := a ++ (cmac128 key (a ++ toLE 4 0)).take 8
  b ++ toLE 4 (crc32 b)

/-- Such a request is accepted by a powered partition that has seen no request with its count. -/
theorem sealReq_accepts {d : Dev} {a : List Byte} (hon : d.saf.on = true) (hlock : d.saf.lockAt = none) (hboot : d.saf.bootId = 0)
    (ha : a.length = 40) (hc : d.saf.lastCnt < fieldLE a 7 4) : SpiAccepts d (sealReq d.saf.macKey a) := by
  have ht : ((cmac128 d.saf.macKey (a ++ toLE 4 0)).take 8).length = 8 := by simp [Laws.cmac128_length]
  have hb : (a ++ (cmac128 d.saf.macKey (a ++ toLE 4 0)).take 8).length = 48 := by rw [List.length_append, ha, ht]
  have h48 : (sealReq d.saf.macKey a).take 48 = a ++ (cmac128 d.saf.macKey (a ++ toLE 4 0)).take 8 := by
    unfold sealReq; rw [List.take_append_of_le_length (by omega), List.take_of_length_le (by omega)]
  refine ⟨hon, by simp only [sealReq, List.length_append, Laws.toLE_length] at hb ⊢; omega, ?_, hlock, ?_, ?_⟩
  · rw [h48]
    unfold fieldLE sealReq
    rw [List.drop_append_of_le_length (by omega), List.drop_of_length_le (by omega), List.nil_append,
      List.take_of_length_le (by simp), Laws.ofLE_toLE, Nat.mod_eq_of_lt (Laws.crc32_lt _)]
  · have h40 : (sealReq d.saf.macKey a).take 40 = a := by
      unfold sealReq
      rw [List.append_assoc, List.take_append_of_le_length (by omega), List.take_of_length_le (by omega)]
    unfold Dev.tagOk
    rw [h40, hboot]
    unfold sealReq
    rw [List.drop_append_of_le_length (by omega), List.drop_append_of_le_length (by omega), List.drop_of_length_le (by omega),
      List.nil_append, List.take_append_of_le_length (by omega), List.take_of_length_le (by omega)]
    exact beq_self_eq_true _
  · unfold sealReq
    rw [List.append_assoc, Laws.fieldLE_append (by omega)]
    exact hc

/-- The first 40 bytes of a request: command, flags, address, count 1, payload (R551). -/
def reqA (cmd flags addr : Nat) (pay : List Byte) : List Byte :=
  toLE 1 cmd ++ toLE 1 flags ++ toLE 2 addr ++ toLE 4 1 ++ padTo 32 pay

theorem reqA_length (cmd flags addr : Nat) (pay : List Byte) : (reqA cmd flags addr pay).length = 40 := by simp [reqA]

/-- A request of the safety controller to this device. -/
def request (d : Dev) (cmd flags addr : Nat) (pay : List Byte) : List Byte := sealReq d.saf.macKey (reqA cmd flags addr pay)

theorem request_accepted (d : Dev) (cmd flags addr : Nat) (pay : List Byte) (hon : d.saf.on = true) (hlock : d.saf.lockAt = none)
    (hboot : d.saf.bootId = 0) (hcnt : d.saf.lastCnt = 0) : SpiAccepts d (request d cmd flags addr pay) :=
  sealReq_accepts hon hlock hboot (reqA_length ..) (by rw [hcnt]; exact Nat.zero_lt_one)

theorem request_field {hi lo : Nat} (d : Dev) (cmd flags addr : Nat) (pay : List Byte) (h : hi < 40) :
    fieldLE (request d cmd flags addr pay) hi lo = fieldLE (reqA cmd flags addr pay) hi lo := by
  unfold request sealReq
  rw [List.append_assoc, Laws.fieldLE_append (by rw [reqA_length]; exact h)]

theorem request_byte {i : Nat} (d : Dev) (cmd flags addr : Nat) (pay : List Byte) (h : i < 40) :
    byteAt (request d cmd flags addr pay) i = byteAt (reqA cmd flags addr pay) i := by
  unfold request sealReq
  rw [List.append_assoc, Laws.byteAt_append (by rw [reqA_length]; exact h)]

theorem request_cmd (d : Dev) (cmd flags addr : Nat) (pay : List Byte) : byteAt (request d cmd flags addr pay) 0 = cmd % 256 :=
  request_byte d cmd flags addr pay (by decide)

theorem request_flags (d : Dev) (cmd flags addr : Nat) (pay : List Byte) : byteAt (request d cmd flags addr pay) 1 = flags % 256 :=
  request_byte d cmd flags addr pay (by decide)

/-- The first payload word is the value put there. -/
theorem request_word (d : Dev) (cmd flags addr v : Nat) (h : v < 2 ^ 32) :
    reqWord (request d cmd flags addr (toLE 4 v)) 0 = v := by
  unfold reqWord
  rw [request_field d cmd flags addr _ (by decide)]
  have e : ((reqA cmd flags addr (toLE 4 v)).drop 8).take 4 = toLE 4 v := rfl
  show ofLE (((reqA cmd flags addr (toLE 4 v)).drop 8).take 4) = v
  rw [e, Laws.ofLE_toLE, Nat.mod_eq_of_lt h]

/-- A device whose in-force CRC is c. -/
def withCfg (d : Dev) (c : Nat) : Dev := { d with saf := { d.saf with cfgCrc := c } }

theorem withCfg_crc (d : Dev) (c : Nat) : (withCfg d c).saf.cfgCrc = c := rfl

theorem withCfg_upset_rd (d : Dev) (c : Nat) : ((withCfg d c).upset none).rd = d.rd := rfl

theorem imageCrc_lt (w : Nat → Nat) : imageCrc w < 2 ^ 32 := Laws.crc32_lt _

/-! ### Well-formedness: every check refuses a term outside it -/

/-- One ill-formed command for each check on one small number. -/
theorem test_wf_refuses_units : [Instr.segment 8 [] 0, .ringEnable 15 0x81 0, .thresherEnable 17 0, .columnEnable 128 0, .retrain 16 0,
    .restart 32 0, .cameraEnable 4 0, .frameStart 0 16 0, .healthCommit 2 0, .tileEyeScanStart 0 4 0 0, .tileEyeScanStart 0 0 8 0,
    .quadIndex 2 0 0, .hbmAgePromotion 20 0, .hbmAgePromotion 0 32, .rxSlotFree 16 0, .ethLaunch 8, .hbmRefreshDue 32 0,
    .kryPortEnable 4 0, .interlockFall 5 0, .keyPress 8 0, .ldgLayerRead (some 4) 0, .fastRetrain 0 2 0, .hostInterfaceReset 3 0,
    .shadowWrite 0 3 0 0].all (fun i => !i.wf) = true := by decide

/-- One ill-formed command for each check on a word, an offset, a length or a byte list. -/
theorem test_wf_refuses_words : [Instr.sysRstNRise 32 none 0, .topReset (2 ^ 32) none 0, .doorbell 0 4 (2 ^ 64) 0, .link 0 (2 ^ 128) 0,
    .registerWrite (2 ^ 25) 4 0 0, .channelDoorbell (2 ^ 16) 4 0, .cpeBusError 0 0 (2 ^ 32) [] 0, .registerWrite 0 3 0 0,
    .cpeBusError 5 0 0 [] 0, .returnLaneScanDone 0 [1, 2, 256, 4] 0, .heartbeat (List.replicate 51 0) 0].all (fun i => !i.wf) = true := by
  decide

/-- The largest operands pass. -/
theorem test_wf_accepts : [Instr.segment 7 [] 0, .ringEnable 14 (2 ^ 32 - 1) 0, .thresherEnable 16 0, .columnEnable 127 0, .restart 31 0,
    .registerWrite (2 ^ 25 - 1) 8 (2 ^ 64 - 1) 0, .heartbeat (List.replicate 52 0) 0].all (·.wf) = true := by decide

/-- The table gives no row any bits: no word spells a command, and placing one leaves the state alone. -/
theorem test_no_word_spells_a_command (s : State) (nbits w : Nat) : decodeTableWord nbits w = none ∧ s.withFetchWord nbits w = s :=
  ⟨rfl, rfl⟩

/-! ### Worked examples of the manual, one step each -/

/-- After a command of the queue's front. -/
def run1 (d : Dev) (i : Instr) : Dev :=
  match exec i (ofD d) with
  | .next t => t.dev
  | _ => d

/-- R12: CRC-32/ISO-HDLC of "123456789" is 0xCBF43926. -/
theorem test_crc32_check : crc32 [0x31, 0x32, 0x33, 0x34, 0x35, 0x36, 0x37, 0x38, 0x39] = 0xCBF43926 := by decide +kernel

/-- R110: four values pack into six bytes (03_sheaf_stream.md, packing four values). -/
theorem test_pack12 : pack12 [0x123, 0x456, 0xABC, 0x7FF] = [0x23, 0x61, 0x45, 0xBC, 0xFA, 0x7F] := by decide +kernel

/-- R136: the area of a triangle edge rounds 517.5 to 518 (04_threshers_and_winnow.md). -/
theorem test_area_triangle : area ⟨7, false, 64000, 64045, 2091561, 2091584, 2091584, 2091584⟩ 2091520 64000 = 518 := by decide +kernel

/-- R25, R26: the seam pixel of the example, as the western and as the eastern device writes it. -/
theorem test_blend_seam : blend false true 32680 2150 = 1470 ∧ blend true false 40 2150 = 680 := by decide +kernel

/-- R203: the shares with pass 3 dead and pass 7 derated to 4,000 (06_dose_chain.md). -/
theorem test_shares_dead_derated : (List.range 8).map (fun k => (share (List.replicate 8 0xFF) (List.replicate 8 4096)
    [0, 0, 0, 0x80000000, 0, 0, 0, 0x40000FA0] k).1) = [4681, 4681, 4681, 0, 4681, 4681, 5363, 4000] := by decide +kernel

/-- R210 to R216: the dose chain of the example, from nominal dose to code (06_dose_chain.md). -/
theorem test_dose_chain : targetEnergy 1470 4096 14746 4611686 = 762678261 ∧
    working [0, 2884 * 2 ^ 32 + 8300000, 2920 * 2 ^ 32 + 8060000, 0, 0] [400, 560, 720, 880, 1040] 616 = (8216002, 46346) ∧
    vIndex (10 * 2 ^ 16 + 3200) 3310 = 11 ∧ gainV 8216002 16630 = 8339362 ∧
    (match widthCode 762678261 8339362 46346 3800 5000 60 with | .ok n => n | .error _ => 0) = 1644 := by decide +kernel

/-- R234, R238, R242, R245: a heat cell through deposit, fetch and assimilation (07_heat_memory.md). -/
theorem test_heat_cell : decayed 12800 4239039629 = 12633 ∧ depositRise 6000000000000 40000 = 853 ∧ decayed 13486 4239039629 = 13310 ∧
    heatFactor 13310 (fun i => if i = 207 then 13564 else 13548) = 13549 ∧ assimilated 13137 13127 16384 = 13132 := by decide +kernel

/-- R325, R327: a beam's measurement and the offset fit (10_emitter_calibration.md). -/
theorem test_calibration : (match measure 103633 1046813 400 2400 144179200 2 with | .ok x => x | .error _ => (0, 0)) = (8299984, 2884) ∧
    offsetFit [0, 2884 * 2 ^ 32 + 8300000, 2920 * 2 ^ 32 + 8060000, 0, 0] 8299984 2884 [400, 560, 720, 880, 1040] 616 =
      some [0, 2871 * 2 ^ 32 + 8383982, 2907 * 2 ^ 32 + 8143982, 0, 0] := by decide +kernel

/-- R347: the position of a count of 99,995,317 at 10,000 counts a line (11_stage_port.md). -/
theorem test_y_ref : (regs (bare .expose) [(Reg.STG_CPL, 10000 * 256)]).yRef 99995317 = 655329309 := by decide +kernel

/-- R46: an idle period out of range is stored at the bound. -/
theorem test_idle_period_clamps : (run1 (bare .dormant) (.registerWrite Reg.TOP_TICK_CTL 4 100 0)).rd Reg.TOP_TICK_CTL = 5000 ∧
    (run1 (bare .dormant) (.registerWrite Reg.TOP_TICK_CTL 4 0xFFFFF 0)).rd Reg.TOP_TICK_CTL = 1000000 := by decide +kernel

/-- An idle block keeps its state. -/
theorem test_empty_queue_idles : step State.reset = .next State.reset := rfl

/-- R500, R501: the flits of a frame are SOF, payload and EOF, and a receiver reads the same frame and FSEQ from them. -/
theorem test_frame_flits :
    let f : KFrame := { vl := 1, bcast := false, poison := true, plen := 2, dst := 0x041, src := 0x040, hops := 3, ptype := 0x10, arg := 77
                        payload := (List.range 32).map fun i => BitVec.ofNat 8 i }
    frameOf (frameFlits f 0xFFFE) = some (f, 0xFFFE, false) ∧ (frameFlits f 0xFFFE).length = 4 := by decide +kernel

/-! ### Values that meet the hypotheses of the statements -/

/-- The simple commands of ring 0 by opcode. -/
def cmdList (dt : Nat) : List (Nat × Instr) :=
  [(0x0003, Instr.sessionClose dt), (0x0004, .sessionKeepalive dt), (0x0010, .modeSet dt), (0x0011, .resume dt), (0x0020, .libValidate dt),
    (0x0030, .calRun dt), (0x0031, .selfTest dt), (0x0110, .metBuildBegin dt), (0x0111, .metBuildEnd dt), (0x0112, .metExport dt)]

theorem witness_EmptyQueueIdles :
    ∃ (s : State), s.pending = [] :=
  ⟨ofD (upIn .expose), by decide +kernel⟩

theorem witness_DeviceResetsComplete :
    (∃ (s : State), s.dev.top.railsGood = false) ∧
    (∃ (s : State), s.dev.top.sysRst = false) ∧
    (∃ (s : State), s.dev.top.phase ≠ .held) :=
  ⟨⟨ofD ({ top := { sysRst := true, otpSerial := 77 } }), by decide +kernel⟩,
   ⟨ofD ({ top := { railsGood := true } }), by decide +kernel⟩,
   ⟨ofD (upIn .expose), by decide +kernel⟩⟩

theorem witness_HostInterfaceResetsComplete :
    (∃ (s : State), s.dev.top.phase = .starting) ∧
    (∃ (s : State), s.dev.up = true) ∧
    (∃ (s : State), s.dev.up = true ∧ s.dev.host.perst = true) ∧
    (∃ (s : State) (cold : Bool), s.dev.up = true ∧ s.dev.host.perst = true ∧ s.dev.host.d3hot ≠ cold) ∧
    (∃ (s : State), s.dev.host.perst = true) :=
  ⟨⟨ofD ({ upIn .configure with top := { (upIn .configure).top with phase := .starting } }), by decide +kernel⟩,
   ⟨ofD (upIn .expose), by decide +kernel⟩,
   ⟨ofD (upIn .expose), by decide +kernel, by decide +kernel⟩,
   ⟨ofD (upIn .expose), true, by decide +kernel, by decide +kernel, by decide +kernel⟩,
   ⟨ofD (onHost (upIn .expose) fun h => { h with bme := false, waitOut := [.msix 0 0 0] }), by decide +kernel⟩⟩

theorem witness_SafetyEventsAssertSafeState_rest :
    (∃ (s : State) (i : Nat), s.dev.saf.on = true ∧ i < 5 ∧ s.dev.inputOn i = true) ∧
    (∃ (s : State), s.dev.saf.on = true ∧ bit s.dev.saf.inputs 0 ≠ bit s.dev.saf.inputs 1) ∧
    (∃ (s : State), s.dev.saf.on = true) ∧
    (∃ (s : State) (t' : Nat), s.dev.saf.on = true ∧ t' < 16) ∧
    (∃ (s : State) (t' : Nat) (temps : List Int), s.dev.saf.on = true ∧ t' < 16 ∧ toS 16 (s.dev.get Reg.SAF_TEMP Fd.SAF_TEMP_HARD) ≤
    temps.foldl max (nth temps 0 0)) ∧
    (∃ (s : State) (t' : Nat), t' < 16 ∧ s.dev.ben t' = true) ∧
    (∃ (s : State), s.dev.saf.on = true ∧ s.dev.up = true ∧ s.dev.top.isStrike = true) ∧
    (∃ (s : State) (t' : Nat) (x : Nat), s.dev.saf.on = true ∧ t' < 16 ∧ x ≠ s.dev.saf.expTick) ∧
    (∃ (s : State) (t' : Nat), s.dev.saf.on = true ∧ t' < 16 ∧ s.dev.wantsBeam = true) :=
  ⟨⟨ofD (onSaf safUp fun s => { s with safe := false, cause := 0, inputs := 3 }), 0, by decide +kernel, by decide +kernel,
    by decide +kernel⟩,
   ⟨ofD (onSaf safUp fun s => { s with safe := false, cause := 0, inputs := 1 }), by decide +kernel, by decide +kernel⟩,
   ⟨ofD (onSaf safUp fun s => { s with safe := false, cause := 0 }), by decide +kernel⟩,
   ⟨ofD (onSaf safUp fun s => { s with safe := false, cause := 0 }), 15, by decide +kernel, by decide +kernel⟩,
   ⟨ofD (onSaf safUp fun s => { s with safe := false, cause := 0 }), 15, [32767, 1, 2, 3], by decide +kernel, by decide +kernel,
    by decide +kernel⟩,
   ⟨ofD (benOn), 15, by decide +kernel, by decide +kernel⟩,
   ⟨ofD (onSaf (onTop (upIn .expose) fun t => { t with isStrike := true }) fun s =>
    { s with on := true, safe := false, cause := 0 }), by decide +kernel, by decide +kernel, by decide +kernel⟩,
   ⟨ofD (onSaf safUp fun s => { s with safe := false, cause := 0 }), 15, 1, by decide +kernel, by decide +kernel, by decide +kernel⟩,
   ⟨ofD (onSaf (upIn .expose) fun s => { s with on := true, safe := false, cause := 0, plug := 0xFFFF }), 15, by decide +kernel,
    by decide +kernel, by decide +kernel⟩⟩

theorem witness_HeartbeatTimeoutAssertsSafeState :
    ∃ (s : State), s.dev.saf.on = true :=
  ⟨ofD (onSaf safUp fun s => { s with safe := false, cause := 0 }), by decide +kernel⟩

theorem witness_SafetyInputsComplete_rest :
    (∃ (s : State), s.dev.saf.on = false) ∧
    (∃ (s : State) (i : Nat), s.dev.saf.on = true ∧ i < 5) ∧
    (∃ (s : State), s.dev.saf.on = true) ∧
    (∃ (s : State) (k : Nat), s.dev.saf.on = true ∧ k < 16) ∧
    (∃ (s : State) (k : Nat) (temps : List Int), s.dev.saf.on = true ∧ k < 16 ∧ temps.foldl max (nth temps 0 0) < toS 16 (s.dev.get
    Reg.SAF_TEMP Fd.SAF_TEMP_HARD)) ∧
    (∃ (s : State) (a : Nat), s.dev.saf.lockAt = some a) ∧
    (∃ (s : State) (req : List Byte), s.dev.saf.on = true ∧ req.length ≠ 52) :=
  ⟨⟨ofD ({}), by decide +kernel⟩,
   ⟨ofD (safUp), 4, by decide +kernel, by decide +kernel⟩,
   ⟨ofD (onSaf safUp fun s => { s with clkBad := true }), by decide +kernel⟩,
   ⟨ofD (safUp), 15, by decide +kernel, by decide +kernel⟩,
   ⟨ofD (safUp), 15, [-3, 1], by decide +kernel, by decide +kernel, by decide +kernel⟩,
   ⟨ofD (onSaf safUp fun s => { s with lockAt := some 5 }), 5, by decide +kernel⟩,
   ⟨ofD (safUp), [1, 2, 3], by decide +kernel, by decide +kernel⟩⟩

theorem witness_TickCommandsComplete :
    (∃ (s : State), s.dev.top.phase = .starting) ∧
    (∃ (s : State) (e : Nat), s.dev.top.phase = .running ∧ s.dev.nextEdge = some e ∧ s.dev.tim.stepArm = none) ∧
    (∃ (s : State) (dt : Nat) (n : Nat) (e : Int), s.dev.up = true ∧ s.dev.top.desig = .strike n ∧ s.dev.top.committed = none ∧
    ((s.dev.after dt).approach n s.dev.commitLimit 200).commitNow n = some e ∧ (((s.dev.after dt).approach n s.dev.commitLimit
    200).clk.now + nsT 1024 : Nat) ≤ e * 2 ^ 32) ∧
    (∃ (s : State) (n : Nat), s.dev.up = true ∧ s.dev.top.desig = .strike n ∧ s.dev.top.committed = none ∧ (s.dev.approach n
    s.dev.commitLimit 200).commitNow n = none) ∧
    (∃ (s : State) (e : Nat), s.dev.up = true ∧ s.dev.nextEdge = some e ∧ s.dev.top.sealOpen = false) ∧
    (∃ (s : State) (x : Stroke) (n : Nat) (dt : Nat), s.dev.up = true ∧ s.dev.due = some (x, n) ∧ (s.dev.after dt).inApproach n =
    true ∧ s.dev.top.mode = .hold ∧ s.dev.ra.armed = false ∧ s.dev.ra.resume.isSome = true ∧ s.dev.stg.strikeOk = true ∧
    s.dev.stg.retreat = false) ∧
    (∃ (s : State) (x : Stroke) (n : Nat) (dt : Nat), s.dev.up = true ∧ s.dev.due = some (x, n) ∧ (s.dev.after dt).inApproach n =
    true ∧ s.dev.top.mode = .expose ∧ s.dev.ra.cur = none ∧ s.dev.ra.prep ≠ some x.sseq) ∧
    (∃ (s : State) (dt : Nat), s.dev.up = true ∧ (s.dev.after dt).onEdge = true ∧ s.dev.stg.strikeOk = false ∧ (s.dev.after
    dt).okCond = true) :=
  ⟨⟨ofD ({ top := { phase := .starting, railsGood := true, sysRst := true } }), by decide +kernel⟩,
   ⟨ofD (upIn .configure), 0, by decide +kernel, by decide +kernel, by decide +kernel⟩,
   ⟨ofD (onTop (moving (upIn .expose)) fun t => { t with desig := .strike 5 }), 0, 5, 1055000, by decide +kernel, by decide +kernel,
    by decide +kernel, by decide +kernel, by decide +kernel⟩,
   ⟨ofD (onTop (upIn .expose) fun t => { t with desig := .strike 5 }), 5, by decide +kernel, by decide +kernel, by decide +kernel,
    by decide +kernel⟩,
   ⟨ofD (onTile (onTop (upIn .expose) fun t => { t with nextIdle := nsT 5000 }) 3 fun t => { t with st := .up }), nsT 5000,
    by decide +kernel, by decide +kernel, by decide +kernel⟩,
   ⟨ofD (onStg (onRa (moving (struck .hold)) fun r => { r with resume := some 0 }) fun s => { s with strikeOk := true }), stroke0,
    0, 0, by decide +kernel, by decide +kernel, by decide +kernel, by decide +kernel, by decide +kernel, by decide +kernel,
    by decide +kernel, by decide +kernel⟩,
   ⟨ofD (moving (struck .expose)), stroke0, 0, 0, by decide +kernel, by decide +kernel, by decide +kernel, by decide +kernel,
    by decide +kernel, by decide +kernel⟩,
   ⟨ofD (onRa (struck .expose) fun r => { r with cur := some 0 }), 0, by decide +kernel, by decide +kernel, by decide +kernel,
    by decide +kernel⟩⟩

theorem witness_RingZeroCommandsComplete_rest :
    (∃ (s : State) (x : Desc), s.dev.up = true ∧ s.dev.front0 = some x ∧ x.op = 0x0001 ∧ s.dev.host.session = none ∧ s.dev.flag
    Reg.TOP_BIST Fd.TOP_BIST_PASS = true ∧ s.dev.host.lockAt = none) ∧
    (∃ (s : State) (x : Desc) (k : Nat) (u : Nat), s.dev.up = true ∧ s.dev.front0 = some x ∧ x.op = 0x0002 ∧ s.dev.host.chal = some
    (k, u) ∧ s.dev.host.chalOrigin = x.origin.map Prod.fst ∧ s.dev.host.session = none ∧ sessionMac s.dev.top.otpKey k ((x.body.drop
    16).take 16) (x.arg 13 12) ≠ (x.body.drop 32).take 32) ∧
    (∃ (s : State) (x : Desc), s.dev.up = true ∧ s.dev.front0 = some x ∧ x.op = 0x0003 ∧ s.dev.cmdSession x = true) ∧
    (∃ (s : State) (x : Desc) (c : Session), s.dev.up = true ∧ s.dev.front0 = some x ∧ x.op = 0x0004 ∧ s.dev.cmdSession x = true ∧
    s.dev.host.session = some c) ∧
    (∃ (s : State) (x : Desc), s.dev.up = true ∧ s.dev.front0 = some x ∧ x.op = 0x0005) ∧
    (∃ (s : State) (x : Desc) (m : Mode), s.dev.up = true ∧ s.dev.front0 = some x ∧ x.op = 0x0010 ∧ s.dev.cmdSession x = true ∧
    Mode.ofCode (x.arg 12 12) = some m) ∧
    (∃ (s : State) (x : Desc), s.dev.up = true ∧ s.dev.front0 = some x ∧ x.op = 0x0011 ∧ s.dev.cmdSession x = true) ∧
    (∃ (s : State) (x : Desc), s.dev.up = true ∧ s.dev.front0 = some x ∧ x.op = 0x0020 ∧ s.dev.cmdSession x = true ∧ s.dev.spareEn =
    true) :=
  ⟨⟨ofD (queued (regs (bare .dormant) [(Reg.TOP_BIST, 2 ^ 31 + 2 ^ 30)]) (desc 1 [])), desc 1 [], by decide +kernel,
    by decide +kernel, by decide +kernel, by decide +kernel, by decide +kernel, by decide +kernel⟩,
   ⟨ofD (queued (onHost (bare .dormant) fun h => { h with chal := some (0, 0), fails := 4 }) badAuth), badAuth, 0, 0,
    by decide +kernel, by decide +kernel, by decide +kernel, by decide +kernel, by decide +kernel, by decide +kernel,
    by decide +kernel⟩,
   ⟨ofD (queued (upIn .expose) (desc 3 [])), desc 3 [], by decide +kernel, by decide +kernel, by decide +kernel, by decide +kernel⟩,
   ⟨ofD (queued (upIn .expose) (desc 4 [])), desc 4 [], { rings := 0xFFFF, keepAt := 0 }, by decide +kernel, by decide +kernel,
    by decide +kernel, by decide +kernel, by decide +kernel⟩,
   ⟨ofD (queued (upIn .expose) (desc 5 [])), desc 5 [], by decide +kernel, by decide +kernel, by decide +kernel⟩,
   ⟨ofD (queued (upIn .expose) (desc 0x10 [1])), desc 0x10 [1], .configure, by decide +kernel, by decide +kernel, by decide +kernel,
    by decide +kernel, by decide +kernel⟩,
   ⟨ofD (queued (upIn .hold) (desc 0x11 [])), desc 0x11 [], by decide +kernel, by decide +kernel, by decide +kernel,
    by decide +kernel⟩,
   ⟨ofD (queued (upIn .configure) (desc 0x20 [])), desc 0x20 [], by decide +kernel, by decide +kernel, by decide +kernel,
    by decide +kernel, by decide +kernel⟩⟩

theorem witness_CommandsWithoutSessionAnswerNoSession :
    ∃ (s : State) (x : Desc), s.dev.up = true ∧ s.dev.front0 = some x ∧ s.dev.cmdSession x = false :=
  ⟨ofD (queued (bare .dormant) (desc 3 [])), desc 3 [], by decide +kernel, by decide +kernel, by decide +kernel⟩

theorem witness_HostTimeoutsComplete :
    (∃ (s : State) (c : Session), s.dev.up = true ∧ s.dev.host.session = some c) ∧
    (∃ (s : State) (k : Nat) (u : Nat), s.dev.host.chal = some (k, u)) ∧
    (∃ (s : State) (u : Nat), s.dev.host.lockAt = some u) ∧
    (∃ (s : State) (r : Relay) (rest : List Relay), s.dev.up = true ∧ s.dev.host.relays = r :: rest) ∧
    (∃ (s : State) (n : Nat), s.dev.up = true ∧ n < 15 ∧ s.dev.get (Reg.RING_n_CTL n) Fd.RING_n_CTL_IRQ_US ≠ 0 ∧ (s.dev.ringSt
    n).unsig ≠ 0) :=
  ⟨⟨ofD (upIn .expose), { rings := 0xFFFF, keepAt := 0 }, by decide +kernel, by decide +kernel⟩,
   ⟨ofD (onHost (bare .dormant) fun h => { h with chal := some (0, 5) }), 0, 5, by decide +kernel⟩,
   ⟨ofD (onHost (bare .dormant) fun h => { h with lockAt := some 5, fails := 5 }), 5, by decide +kernel⟩,
   ⟨ofD (onHost (bare .dormant) fun h => { h with relays := [⟨3, desc 5 [], 7, none⟩] }), ⟨3, desc 5 [], 7, none⟩, [],
    by decide +kernel, by decide +kernel⟩,
   ⟨ofD (onHost (regs (bare .dormant) [(Reg.RING_n_CTL 14, 0x00100000), (Reg.RING_n_CTL 1, 0xFFFF0000)]) fun h =>
    { h with rings := List.replicate 16 { unsig := 1 } }), 1, by decide +kernel, by decide +kernel, by decide +kernel,
    by decide +kernel⟩⟩

theorem witness_RingCommandsComplete :
    (∃ (s : State) (n : Nat) (v : Nat), s.dev.linkUp = true ∧ n < 15 ∧ isSubmit n = true ∧ (v + 2 ^ 32 - s.dev.rd (Reg.RING_n_CONS
    n)) % 2 ^ 32 ≤ s.dev.ringSize n ∧ (v + 2 ^ 32 - s.dev.rd (Reg.RING_n_PROD n)) % 2 ^ 32 ≤ s.dev.ringSize n ∧ v < 2 ^ 32) ∧
    (∃ (s : State) (n : Nat) (v : Nat), s.dev.linkUp = true ∧ n < 15 ∧ isSubmit n = false ∧ v < 2 ^ 32 ∧ (s.dev.rd (Reg.RING_n_PROD
    n) + 2 ^ 32 - v) % 2 ^ 32 ≤ s.dev.ringFill n) ∧
    (∃ (s : State) (n : Nat) (v : Nat), s.dev.linkUp = true ∧ n < 15 ∧ isSubmit n = true ∧ v < 2 ^ 32 ∧ s.dev.ringSize n < (v + 2 ^
    32 - s.dev.rd (Reg.RING_n_CONS n)) % 2 ^ 32) ∧
    (∃ (s : State) (o : Nat) (len : Nat), (bellRing o = none ∨ len ≠ 4 ∨ s.dev.linkUp = false)) ∧
    (∃ (s : State), s.dev.mayFetch 0 = true ∧ s.dev.retiring 0 = false) ∧
    (∃ (s : State) (n : Nat), s.dev.mayFetch n = true ∧ (n = 0 ∨ n = 14)) ∧
    (∃ (s : State) (n : Nat), s.dev.linkUp = true ∧ n < 15) ∧
    (∃ (s : State) (n : Nat), s.dev.linkUp = true ∧ n < 15 ∧ s.dev.ringEn n = true ∧ n ≠ 1 ∧ ((isSubmit n = true → n = 0 ∨
    s.dev.top.mode = .dormant ∨ s.dev.top.mode = .configure))) ∧
    (∃ (s : State) (n : Nat), s.dev.linkUp = true ∧ n < 15 ∧ s.dev.ringEn n = true ∧ ((n = 1 ∧ (s.dev.outstanding = true ∨
    s.dev.host.layerResv ≠ 0)) ∨
      (isSubmit n = true ∧ n ≠ 0 ∧ s.dev.top.mode ≠ .dormant ∧ s.dev.top.mode ≠ .configure))) ∧
    (∃ (s : State) (n : Nat), s.dev.linkUp = true ∧ n < 15) :=
  ⟨⟨ofD (upIn .configure), 14, 16, by decide +kernel, by decide +kernel, by decide +kernel, by decide +kernel, by decide +kernel,
    by decide +kernel⟩,
   ⟨ofD (regs (upIn .configure) [(Reg.RING_n_PROD 1, 5)]), 1, 5, by decide +kernel, by decide +kernel, by decide +kernel,
    by decide +kernel, by decide +kernel⟩,
   ⟨ofD (upIn .configure), 0, 17, by decide +kernel, by decide +kernel, by decide +kernel, by decide +kernel, by decide +kernel⟩,
   ⟨ofD (upIn .configure), 0x1004, 4, by decide +kernel⟩,
   ⟨ofD (regs (upIn .configure) [(Reg.RING_n_CTL 0, 0x81), (Reg.RING_n_CTL 1, 0x81), (Reg.RING_n_PROD 0, 1)]), by decide +kernel,
    by decide +kernel⟩,
   ⟨ofD (regs (upIn .configure) [(Reg.RING_n_CTL 0, 0x81), (Reg.RING_n_PROD 0, 1)]), 0, by decide +kernel, by decide +kernel⟩,
   ⟨ofD (upIn .configure), 14, by decide +kernel, by decide +kernel⟩,
   ⟨ofD (regs (upIn .configure) [(Reg.RING_n_CTL 14, 0x81)]), 14, by decide +kernel, by decide +kernel, by decide +kernel,
    by decide +kernel, by decide +kernel⟩,
   ⟨ofD (regs (upIn .expose) [(Reg.RING_n_CTL 4, 0x81)]), 4, by decide +kernel, by decide +kernel, by decide +kernel,
    by decide +kernel⟩,
   ⟨ofD (regs (upIn .configure) [(Reg.RING_n_STAT 14, 2 ^ 29)]), 14, by decide +kernel, by decide +kernel⟩⟩

theorem witness_RegisterAccessesComplete :
    (∃ (s : State), s.dev.up = true ∧ s.dev.rd Reg.RING_TELEM_CTL / 65536 ≠ 0 ∧ s.dev.top.tick % (64 * (s.dev.rd Reg.RING_TELEM_CTL
    / 65536)) = 0 ∧ s.dev.host.telemAt ≠ some s.dev.top.tick) ∧
    (∃ (s : State) (a : Nat), s.dev.linkUp = true ∧ a < 0x2000000 ∧ a % 4 = 0 ∧ s.dev.mirrorOff a = false ∧ a ≠ Reg.TIME_TXQ_HDR ∧
    getKey a s.dev.latch = none) ∧
    (∃ (s : State) (a : Nat) (r : RegRow), s.dev.linkUp = true ∧ a < 0x2000000 ∧ a % 4 = 0 ∧ s.dev.mirrorOff a = false ∧ a ≠
    Reg.TIME_TXQ_HDR ∧ regRow a = some r ∧ r.rc ≠ 0 ∧ s.dev.rd a < 2 ^ 32) ∧
    (∃ (s : State) (k : Nat), s.dev.linkUp = true ∧ k < 4 ∧ getKey (Reg.LDG_k_LAYER k) s.dev.latch = none) ∧
    (∃ (s : State) (a : Nat) (v : Nat) (dt : Nat) (r : RegRow), s.dev.linkUp = true ∧ a < 0x2000000 ∧ a % 4 = 0 ∧ neverWritten a =
    false ∧ ((needsOpen a = true → s.dev.hasSession = true)) ∧ ¬(0x180000 ≤ a ∧ a < 0x200000) ∧ ¬(0xE10000 ≤ a ∧ a < 0xE30000) ∧
    regRow a = some r ∧ (s.dev.after dt).writeOwn a r.base ((a - r.base) / r.s1) (v % 2 ^ 32) = none ∧ r.w1c = 0) :=
  ⟨⟨ofD (regs (upIn .expose) [(Reg.RING_TELEM_CTL, 65536)]), by decide +kernel, by decide +kernel, by decide +kernel,
    by decide +kernel⟩,
   ⟨ofD (upIn .expose), Reg.TOP_MODE, by decide +kernel, by decide +kernel, by decide +kernel, by decide +kernel, by decide +kernel,
    by decide +kernel⟩,
   ⟨ofD (regs (upIn .expose) [(4718600, 5)]), 4718600, rowOf 4718600, by decide +kernel, by decide +kernel, by decide +kernel,
    by decide +kernel, by decide +kernel, by decide +kernel, by decide +kernel, by decide +kernel⟩,
   ⟨ofD (upIn .expose), 3, by decide +kernel, by decide +kernel, by decide +kernel⟩,
   ⟨ofD (upIn .configure), Reg.GLN_PERIOD, 0xFFFFFFFF, 0, rowOf Reg.GLN_PERIOD, by decide +kernel, by decide +kernel,
    by decide +kernel, by decide +kernel, by decide +kernel, by decide +kernel, by decide +kernel, by decide +kernel,
    by decide +kernel, by decide +kernel⟩⟩

theorem witness_WritesNeedSession :
    ∃ (s : State) (a : Nat), (((needsOpen (a % 0x2000000) = true ∧ s.dev.hasSession = false) ∨ neverWritten (a % 0x2000000) = true ∨
    s.dev.linkUp = false)) :=
  ⟨ofD (bare .dormant), Reg.STG_HEAD_OFS, by decide +kernel⟩

theorem witness_SheafHeaderRecordsComplete :
    (∃ (s : State) (n : Nat) (words : List (BitVec 64)) (x : Desc) (rest : List Desc), n < 8 ∧ s.dev.up = true ∧ s.dev.hostReads =
    true ∧ (s.dev.portion n).stopped = false ∧ (s.dev.portion n).waiting = x :: rest ∧ segOk (x.arg 23 16) (x.arg 27 24) = true ∧
    words.length = x.arg 27 24 / 8) ∧
    (∃ (s : State) (n : Nat) (i : Nat) (g : Segment) (r : List (BitVec 64)), NextRecord s.dev n 0x10 i g r ∧ (s.dev.portion n).ord =
    .first ∧ wf (rw r 0) 63 56 = 0 ∧ wf (rw r 0) 31 25 = 0 ∧ wf (rw r 1) 63 48 = 0 ∧ wf (rw r 1) 47 0 ≠ 0) ∧
    (∃ (s : State) (n : Nat) (i : Nat) (g : Segment) (r : List (BitVec 64)) (l : LayerHdr), NextRecord s.dev n 0x13 i g r ∧
    (s.dev.portion n).ord = .afterBegin ∧ (s.dev.portion n).layer = some l ∧ wf (rw r 0) 63 24 = 0 ∧ ((∀ k < 16, wf (rw r (1 + k /
    4)) (16 * (k % 4) + 15) (16 * (k % 4) + 12) = 0))) ∧
    (∃ (s : State) (n : Nat) (i : Nat) (g : Segment) (r : List (BitVec 64)) (h : LayerHdr) (l : Layer), NextRecord s.dev n 0x12 i g
    r ∧ ((s.dev.portion n).ord = .afterClass ∨ ((s.dev.portion n).ord = .body ∧
      ∀ x, (s.dev.portion n).stripes.getLast? = some x → (s.dev.portion n).checksDone (stripeWinnow x.hdr) (stripeN x.hdr) = true))
    ∧ (s.dev.portion n).layer = some h ∧ s.dev.layer? h.lseq = some l ∧ wf (rw r 0) 63 43 = 0 ∧ wf (rw r 0) 31 27 = 0 ∧ wf (rw r 2)
    63 25 = 0 ∧ wf (rw r 0) 42 40 = n ∧ ws (rw r 1) 0 % 64 = 0 ∧ ws (rw r 1) 1 % 64 = 0 ∧ 1 ≤ stripeN r ∧ stripeN r ≤ 16777216 ∧ ws
    (rw r 1) 0 ≤ 2145386496 ∧ ws (rw r 1) 1 + 64 * (stripeN r : Int) ≤ 2147483648 ∧ ((∀ k, (s.dev.portion n).lastStroke = some k →
    wf (rw r 0) 39 32 = k + 1)) ∧ (((s.dev.portion n).lastStroke = none → wf (rw r 0) 39 32 = 0 ∨ s.dev.sheaf.abortedStroke = some
    (l.lseq, wf (rw r 0) 39 32))) ∧ ((l.reqWinnow = true → stripeWinnow r = true))) ∧
    (∃ (s : State) (n : Nat) (i : Nat) (g : Segment) (r : List (BitVec 64)) (l : LayerHdr) (st : Stripe), NextRecord s.dev n 0x11 i
    g r ∧ (s.dev.portion n).ord = .body ∧ (s.dev.portion n).layer = some l ∧ (s.dev.portion n).stripes.getLast? = some st ∧ wf (rw r
    0) 63 56 = 0 ∧ wf (rw r 0) 55 32 = wf (rw l.begin_ 0) 55 32 ∧ (s.dev.portion n).lastStroke = some (wf (rw r 0) 31 24) ∧
    (s.dev.portion n).checksDone (stripeWinnow st.hdr) (stripeN st.hdr) = true) ∧
    (∃ (s : State) (n : Nat) (i : Nat) (g : Segment) (r : List (BitVec 64)) (st : Stripe), NextRecord s.dev n 0x40 i g r ∧
    (s.dev.portion n).ord = .body ∧ (s.dev.portion n).stripes.getLast? = some st ∧ stripeWinnow st.hdr = true ∧ wf (rw r 0) 63 56 =
    0 ∧ wf (rw r 0) 31 25 = 0 ∧ wf (rw r 1) 63 32 = 0 ∧ wf (rw r 0) 55 32 = (s.dev.portion n).expRow ∧ (s.dev.portion n).expRow <
    rowsOf (stripeN st.hdr) ∧ (s.dev.portion n).gotBand.contains (wf (rw r 0) 24 24) = false) ∧
    (∃ (s : State) (n : Nat) (i : Nat) (g : Segment) (r : List (BitVec 64)) (st : Stripe), NextRecord s.dev n 0x41 i g r ∧
    (s.dev.portion n).ord = .body ∧ (s.dev.portion n).stripes.getLast? = some st ∧ wf (rw r 0) 63 25 = 0 ∧ wf (rw r 1) 63 32 ≤
    stripeN st.hdr) :=
  ⟨⟨ofD (onPortion (upIn .configure) 7 fun p => { p with waiting := [segDesc 8] }), 7, [5], segDesc 8, [], by decide +kernel,
    by decide +kernel, by decide +kernel, by decide +kernel, by decide +kernel, by decide +kernel, by decide +kernel⟩,
   ⟨ofD (onPortion (upIn .expose) 7 fun p => { p with segs := [seg (rcd 0x10 0 [1])] }), 7, 0, seg (rcd 0x10 0 [1]), rcd 0x10 0 [1],
    by unfold NextRecord; decide +kernel, by decide +kernel, by decide +kernel, by decide +kernel, by decide +kernel,
    by decide +kernel⟩,
   ⟨ofD (onPortion (upIn .hold) 0 fun p =>
    { p with segs := [seg (rcd 0x13 0 [0x0FFF, 0, 0, 7])], ord := .afterBegin, layers := [hdr0] }), 0, 0, seg (rcd 0x13 0 [0x0FFF,
    0, 0, 7]), rcd 0x13 0 [0x0FFF, 0, 0, 7], hdr0, by unfold NextRecord; decide +kernel, by decide +kernel, by decide +kernel,
    by decide +kernel, by decide +kernel⟩,
   ⟨ofD (onPortion (onSheaf (upIn .expose) fun s => { s with layers := [layer0] }) 7 fun p =>
    { p with segs := [seg (stripeRec 7 16777216 1)], ord := .afterClass, layers := [hdr0] }), 7, 0, seg (stripeRec 7 16777216 1),
    stripeRec 7 16777216 1, hdr0, layer0, by unfold NextRecord; decide +kernel, by decide +kernel, by decide +kernel,
    by decide +kernel, by decide +kernel, by decide +kernel, by decide +kernel, by decide +kernel, by decide +kernel,
    by decide +kernel, by decide +kernel, by decide +kernel, by decide +kernel, by decide +kernel, by decide +kernel,
    by decide +kernel, by decide +kernel⟩,
   ⟨ofD (onPortion (upIn .expose) 0 fun p =>
    { p with segs := [seg (rcd 0x11 (255 * 2 ^ 24) [])], ord := .body, layers := [hdr0], stripes := [stripe0 0], lastStroke := some 255 }),
    0, 0, seg (rcd 0x11 (255 * 2 ^ 24) []), rcd 0x11 (255 * 2 ^ 24) [], hdr0, stripe0 0, by unfold NextRecord; decide +kernel,
    by decide +kernel, by decide +kernel, by decide +kernel, by decide +kernel, by decide +kernel, by decide +kernel,
    by decide +kernel⟩,
   ⟨ofD (onPortion (upIn .expose) 0 fun p =>
    { p with segs := [seg (rcd 0x40 (2 ^ 24 + 2 ^ 32) [0xFFFFFFFF])], ord := .body, layers := [hdr0], stripes := [stripe0 1], expRow := 1, gotBand := [0] }),
    0, 0, seg (rcd 0x40 (2 ^ 24 + 2 ^ 32) [0xFFFFFFFF]), rcd 0x40 (2 ^ 24 + 2 ^ 32) [0xFFFFFFFF], stripe0 1,
    by unfold NextRecord; decide +kernel, by decide +kernel, by decide +kernel, by decide +kernel, by decide +kernel,
    by decide +kernel, by decide +kernel, by decide +kernel, by decide +kernel, by decide +kernel⟩,
   ⟨ofD (onPortion (upIn .expose) 0 fun p =>
    { p with segs := [seg (rcd 0x41 (2 ^ 24) [128 * 2 ^ 32 + 9])], ord := .body, layers := [hdr0], stripes := [stripe0 0] }), 0, 0,
    seg (rcd 0x41 (2 ^ 24) [128 * 2 ^ 32 + 9]), rcd 0x41 (2 ^ 24) [128 * 2 ^ 32 + 9], stripe0 0,
    by unfold NextRecord; decide +kernel, by decide +kernel, by decide +kernel, by decide +kernel, by decide +kernel⟩⟩

theorem witness_UnknownRecordStopsItsPortion :
    ∃ (s : State) (n : Nat) (dt : Nat) (i : Nat) (g : Segment) (p : Instr), p ∈ [Instr.layerBegin n dt, .classTable n dt,
    .stripeBegin n dt, .layerEnd n dt, .rect n dt, .trap n dt, .ref_ n dt, .aref n dt,
      .rawBlock n dt, .sheafCheck n dt, .fence n dt] ∧ n < 8 ∧ s.dev.up = true ∧ s.dev.expoOrHold = true ∧ (s.dev.portion n).stopped
    = false ∧ (s.dev.portion n).segs.findIdx? (fun s => !s.squashed && decide (s.pos < s.words.length)) = some i ∧ (s.dev.portion
    n).segs[i]? = some g ∧ recLen (g.words.drop g.pos) = none ∧ (s.dev.sheaf.fails.all fun f => f.portion != n) = true :=
  ⟨ofD (onPortion (upIn .expose) 7 fun p => { p with segs := [seg [0x99]] }), 7, 0, 0, seg [0x99], .fence 7 0, by decide +kernel,
    by decide +kernel, by decide +kernel, by decide +kernel, by decide +kernel, by decide +kernel, by decide +kernel,
    by decide +kernel, by decide +kernel⟩

theorem witness_LayerCommandsComplete :
    (∃ (s : State) (v : LibCheck), s.dev.up = true ∧ s.dev.sheaf.lib = some v ∧ (s.dev.sheaf.rebuilds.any fun r => r.thr == some 16)
    = false ∧ s.dev.hbmWaits = false) ∧
    (∃ (s : State) (k : Nat) (h : LayerHdr) (hs : List LayerHdr), s.dev.up = true ∧ s.dev.expoOrHold = true ∧ ((List.range
    8).filterMap fun n => s.dev.hdrOf n s.dev.sheaf.nextLseq) = h :: hs ∧ hs.length = 7 ∧ ((h :: hs).all fun x => !x.cls.isEmpty) =
    true ∧ firstDiffer ((h :: hs).map (·.begin_)) = none ∧ firstDiffer ((h :: hs).map (·.cls)) = none ∧ s.dev.host.resv1 + 2 ≤
    s.dev.ringFree 1 ∧ s.dev.freeSlot = some k) ∧
    (∃ (s : State) (l : Layer) (s0 : Stripe) (ss : List Stripe), s.dev.up = true ∧ s.dev.expoOrHold = true ∧ ((List.range
    8).filterMap fun n => s.dev.stripe? n s.dev.sheaf.nextSseq) = s0 :: ss ∧ ss.length = 7 ∧ (s.dev.sheaf.fails.all fun f =>
    !(f.header && decide (f.sseq ≤ s.dev.sheaf.nextSseq))) = true ∧ firstDiffer ((s0 :: ss).map fun x => stripeKey x.hdr) = none ∧
    s.dev.layer? s0.lseq = some l ∧ sumN ((s.dev.heat.strokes.filter (·.layer == l.num)).map fun o => (o.n + 7) / 8) + (stripeN
    s0.hdr + 7) / 8 ≤ s.dev.heat.rows) ∧
    (∃ (s : State) (n : Nat) (id : Nat) (st : Stripe) (f : Fence), s.dev.up = true ∧ n < 8 ∧ ((s.dev.portion n).stripes.find? fun x
    => (s.dev.stroke? x.sseq).any (fun y => !y.aborted) && x.fences.any (FenceDue s.dev n id x)) =
      some st ∧ st.fences.find? (FenceDue s.dev n id st) = some f) ∧
    (∃ (s : State) (n : Nat) (i : Nat) (g : Segment), s.dev.up = true ∧ n < 8 ∧ s.dev.ldg.pend = [] ∧ (s.dev.portion
    n).segs.findIdx? (fun x => (x.squashed || x.words.length == x.pos && !x.words.isEmpty) &&
      (x.owed.all fun r => s.dev.refDone n r) && !(s.dev.sheaf.layers.any fun l => s.dev.seamWaits l.num)) = some i ∧ (s.dev.portion
    n).segs[i]? = some g) ∧
    (∃ (s : State) (last : Nat) (l : Layer), s.dev.up = true ∧ (s.dev.sheaf.layers.find? fun l => l.closedAt.isNone) = some l ∧
    l.ended = some last ∧ ((s.dev.sheaf.strokes.filter (·.lseq == l.lseq)).any fun x => x.stroke == last && x.ended) = true ∧
    ((s.dev.sheaf.strokes.filter (·.lseq == l.lseq)).all fun x => x.ended) = true) ∧
    (∃ (s : State) (l : Layer), s.dev.up = true ∧ s.dev.ldg.pend = [] ∧ (s.dev.sheaf.layers.find? fun l => l.closedAt.isSome &&
    !l.complete) = some l ∧ nth (s.dev.slot l.slot).cnt cUNC 0 = 0 ∧ s.dev.ra.strikes = [] ∧ s.dev.heat.deps = [] ∧ s.dev.seamWaits
    l.num = false ∧ l.slot < 4) :=
  ⟨⟨ofD (onHost (onSheaf (upIn .configure) fun s => { s with lib := some ⟨desc 0x20 [], 0, 0, 0⟩ }) fun h =>
    { h with begun := some (desc 0x20 []) }), ⟨desc 0x20 [], 0, 0, 0⟩, by decide +kernel, by decide +kernel, by decide +kernel,
    by decide +kernel⟩,
   ⟨ofD (regs (onSheaf (upIn .expose) fun s => { s with portions := List.replicate 8 { layers := [hdr1] } }) [(Reg.RING_n_CTL 1,
    0x81)]), 0, hdr1, List.replicate 7 hdr1, by decide +kernel, by decide +kernel, by decide +kernel, by decide +kernel,
    by decide +kernel, by decide +kernel, by decide +kernel, by decide +kernel, by decide +kernel⟩,
   ⟨ofD (onHeat (onSheaf (upIn .expose) fun s =>
    { s with portions := List.replicate 8 { layers := [hdr1], stripes := [stripe0 1] }, layers := [layer0] }) fun h =>
    { h with rows := 16 }), layer0, stripe0 1, List.replicate 7 (stripe0 1), by decide +kernel, by decide +kernel,
    by decide +kernel, by decide +kernel, by decide +kernel, by decide +kernel, by decide +kernel, by decide +kernel⟩,
   ⟨ofD (onPortion (struck .expose) 7 fun p => { p with stripes := [{ stripe0 0 with fences := [⟨false, 9, 0, false⟩] }] }), 7, 9,
    { stripe0 0 with fences := [⟨false, 9, 0, false⟩] }, ⟨false, 9, 0, false⟩, by decide +kernel, by decide +kernel,
    by decide +kernel, by decide +kernel⟩,
   ⟨ofD (onPortion (upIn .expose) 7 fun p => { p with segs := [{ seg [5] with pos := 1 }] }), 7, 0, { seg [5] with pos := 1 },
    by decide +kernel, by decide +kernel, by decide +kernel, by decide +kernel, by decide +kernel⟩,
   ⟨ofD (onSheaf (struck .expose) fun s =>
    { s with layers := [{ layer0 with ended := some 0 }], strokes := [{ stroke0 with ended := true }] }), 0,
    { layer0 with ended := some 0 }, by decide +kernel, by decide +kernel, by decide +kernel, by decide +kernel, by decide +kernel⟩,
   ⟨ofD (onSheaf (upIn .expose) fun s => { s with layers := [{ layer0 with ended := some 0, closedAt := some 5, slot := 3 }] }),
    { layer0 with ended := some 0, closedAt := some 5, slot := 3 }, by decide +kernel, by decide +kernel, by decide +kernel,
    by decide +kernel, by decide +kernel, by decide +kernel, by decide +kernel, by decide +kernel⟩⟩

theorem witness_ThresherCommandsComplete :
    (∃ (s : State) (k : Nat) (band : Nat) (sseq : Nat) (row : Nat) (x : Stroke), s.dev.up = true ∧ s.dev.expoOrHold = true ∧
    s.dev.serves k = some band ∧ s.dev.bandPos band = (sseq, row) ∧ s.dev.stroke? sseq = some x ∧ (s.dev.thr k).busy = none ∧
    s.dev.rebuilding k = none ∧ s.dev.nextRebuild k = none ∧ x.aborted = false ∧ row < rowsOf x.n ∧ s.dev.malformedBlock sseq band
    row = false ∧ ((∀ i < linesOfRow x.n row, s.dev.slotFree band (x.q0 + 64 * row + i) = true)) ∧ k ≤ 16) ∧
    (∃ (s : State) (k : Nat) (band : Nat) (sseq : Nat) (row : Nat) (x : Stroke) (l : Layer) (st : Stripe) (b : Block), s.dev.up =
    true ∧ s.dev.expoOrHold = true ∧ k ≤ 16 ∧ (s.dev.thr k).busy = some (sseq, band, row) ∧ s.dev.stroke? sseq = some x ∧
    s.dev.layerOf sseq = some l ∧ s.dev.stripe? (band / 2) sseq = some st ∧ s.dev.recsIn (band / 2) sseq row = true ∧
    s.dev.malformedBlock sseq band row = false ∧ s.dev.block? sseq band row = some b) ∧
    (∃ (s : State) (k : Nat) (r : Rebuild), s.dev.up = true ∧ s.dev.expoOrHold = true ∧ s.dev.nextRebuild k = some r ∧ (s.dev.thr
    k).busy = none ∧ s.dev.rebuilding k = none ∧ ((k ≠ 16 → s.dev.thrIn k = true))) ∧
    (∃ (s : State) (k : Nat) (r : Rebuild) (x : Stroke) (l : Layer) (st : Stripe) (b : Block), s.dev.up = true ∧ s.dev.expoOrHold =
    true ∧ s.dev.rebuilding k = some r ∧ s.dev.stroke? r.sseq = some x ∧ s.dev.layerOf r.sseq = some l ∧ s.dev.stripe? (r.band / 2)
    r.sseq = some st ∧ s.dev.block? r.sseq r.band r.row = some b ∧ s.dev.recsIn (r.band / 2) r.sseq r.row = true ∧ s.dev.hostReads =
    true) ∧
    (∃ (s : State) (n : Nat), s.dev.hostOk = true ∧ n < 16 ∧ s.dev.flag (Reg.THR_n_CTL n) Fd.THR_n_CTL_EN = true ∧ (s.dev.thr
    n).retired = false ∧ s.dev.spareEn = true ∧ s.dev.sheaf.subst = none) ∧
    (∃ (s : State) (n : Nat), s.dev.hostOk = true ∧ n < 16 ∧ s.dev.flag (Reg.THR_n_CTL n) Fd.THR_n_CTL_EN = true ∧ (s.dev.thr
    n).retired = false ∧ (s.dev.spareEn = false ∨ s.dev.sheaf.subst.isSome = true)) ∧
    (∃ (s : State), s.dev.hostOk = true ∧ s.dev.spareEn = true ∧ s.dev.sheaf.subst = none) ∧
    (∃ (s : State) (n : Nat), s.dev.hostOk = true ∧ n ≤ 16 ∧ s.dev.flag (Reg.THR_n_CTL n) Fd.THR_n_CTL_EN = false) ∧
    (∃ (s : State) (n : Nat), s.dev.hostOk = true ∧ n ≤ 16 ∧ (s.dev.thr n).retired = true) :=
  ⟨⟨ofD (struck .expose), 15, 15, 0, 0, stroke0, by decide +kernel, by decide +kernel, by decide +kernel, by decide +kernel,
    by decide +kernel, by decide +kernel, by decide +kernel, by decide +kernel, by decide +kernel, by decide +kernel,
    by decide +kernel, by decide +kernel, by decide +kernel⟩,
   ⟨ofD (thrDev), 3, 3, 0, 0, stroke0, layer0, { stripe0 0 with closed := true }, { sseq := 0, band := 3, row := 0, thr := 3 },
    by decide +kernel, by decide +kernel, by decide +kernel, by decide +kernel, by decide +kernel, by decide +kernel,
    by decide +kernel, by decide +kernel, by decide +kernel, by decide +kernel⟩,
   ⟨ofD (onSheaf thrDev fun s => { s with threshers := List.replicate 17 {}, rebuilds := [⟨0, 3, 0, .resume, none, none⟩] }), 16,
    ⟨0, 3, 0, .resume, none, none⟩, by decide +kernel, by decide +kernel, by decide +kernel, by decide +kernel, by decide +kernel,
    by decide +kernel⟩,
   ⟨ofD (onSheaf thrDev fun s => { s with rebuilds := [⟨0, 3, 0, .resume, some 16, none⟩] }), 16, ⟨0, 3, 0, .resume, some 16, none⟩,
    stroke0, layer0, { stripe0 0 with closed := true }, { sseq := 0, band := 3, row := 0, thr := 3 }, by decide +kernel,
    by decide +kernel, by decide +kernel, by decide +kernel, by decide +kernel, by decide +kernel, by decide +kernel,
    by decide +kernel, by decide +kernel⟩,
   ⟨ofD (upIn .expose), 15, by decide +kernel, by decide +kernel, by decide +kernel, by decide +kernel, by decide +kernel,
    by decide +kernel⟩,
   ⟨ofD (onSheaf (upIn .expose) fun s => { s with subst := some 2 }), 15, by decide +kernel, by decide +kernel, by decide +kernel,
    by decide +kernel, by decide +kernel⟩,
   ⟨ofD (onSheaf (upIn .expose) fun s => { s with lib := none }), by decide +kernel, by decide +kernel, by decide +kernel⟩,
   ⟨ofD (onSheaf (regs (upIn .expose) [(Reg.THR_n_CTL 15, 0)]) fun s => { s with subst := some 15 }), 15, by decide +kernel,
    by decide +kernel, by decide +kernel⟩,
   ⟨ofD (onSheaf (upIn .expose) fun s => { s with threshers := List.replicate 17 { retired := true } }), 16, by decide +kernel,
    by decide +kernel, by decide +kernel⟩⟩

theorem witness_TillerCommandsComplete :
    (∃ (s : State) (c : Nat) (dt : Nat) (sseq : Nat) (line : Nat) (x : Stroke) (l : Layer) (hs : HStroke) (dose : List Nat),
    s.dev.up = true ∧ s.dev.expoOrHold = true ∧ c < 128 ∧ (s.dev.col c).en = true ∧ (s.dev.col c).queue.length < 64 ∧ s.dev.nextPass
    c 4096 (s.dev.col c).nextLine = (sseq, line) ∧ s.dev.stroke? sseq = some x ∧ s.dev.layerOf sseq = some l ∧ s.dev.hstroke? sseq =
    some hs ∧ s.dev.prevClosed l = true ∧ s.dev.strikable sseq (c / 8) line = true ∧ (s.dev.after dt).mayCompute (s.dev.col c) =
    true ∧ ((s.dev.after dt).readDose c x line).1 = some dose) ∧
    (∃ (s : State) (c : Nat) (dt : Nat) (e0 : Entry) (x : Stroke) (l : Layer) (hs : HStroke) (dose : List Nat), s.dev.up = true ∧
    s.dev.expoOrHold = true ∧ c < 128 ∧ (s.dev.col c).queue.find? (·.stale) = some e0 ∧ s.dev.stroke? e0.sseq = some x ∧
    s.dev.layerOf e0.sseq = some l ∧ s.dev.hstroke? e0.sseq = some hs ∧ (s.dev.after dt).mayReplay = true ∧ s.dev.strikable e0.sseq
    (c / 8) e0.line = true ∧ ((s.dev.after dt).readDose c x e0.line).1 = some dose) ∧
    (∃ (s : State) (n : Nat), s.dev.hostOk = true ∧ n < 128) ∧
    (∃ (s : State) (n : Nat), s.dev.hostOk = true ∧ n < 128) ∧
    (∃ (s : State) (n : Nat), s.dev.hostOk = true ∧ n < 128) ∧
    (∃ (s : State) (n : Nat), s.dev.hostOk = true ∧ n < 128) ∧
    (∃ (s : State) (n : Nat) (v : Nat), s.dev.hostOk = true ∧ n < 128 ∧ 16 ≤ bits v 12 0 ∧ bits v 12 0 ≤ 4096) ∧
    (∃ (s : State) (k : Nat) (h : Bool) (w : Bool), s.dev.up = true ∧ k < 16 ∧ nth s.dev.ra.cfgWait k none = some (h, w) ∧ (nth
    s.dev.ra.cfgStruck k false = false ∨ s.dev.prevInUse k = false)) ∧
    (∃ (s : State) (bank : Nat), s.dev.hostOk = true ∧ bank < 2 ∧ s.dev.ra.healthPend = 0) ∧
    (∃ (s : State) (bank : Nat), s.dev.hostOk = true ∧ bank < 2 ∧ s.dev.ra.healthPend ≠ 0) ∧
    (∃ (s : State), s.dev.up = true ∧ s.dev.top.tick % 256 = 0 ∧ s.dev.ra.latchedAt ≠ some s.dev.top.tick) ∧
    (∃ (s : State) (k : Nat), s.dev.up = true ∧ k < 16 ∧ ((∀ j < 8, s.dev.rampDone (8 * k + j) = true))) :=
  ⟨⟨ofD (tilDev), 24, 0, 0, 0, stroke0, layer0, ⟨0, 0, 0, 0, 0, 64, 0, false⟩, List.replicate 2048 0, by decide +kernel,
    by decide +kernel, by decide +kernel, by decide +kernel, by decide +kernel, by decide +kernel, by decide +kernel,
    by decide +kernel, by decide +kernel, by decide +kernel, by decide +kernel, by decide +kernel, by decide +kernel⟩,
   ⟨ofD (onCol tilDev 24 fun c => { c with queue := [{ entry0 with stale := true }] }), 24, 0, { entry0 with stale := true },
    stroke0, layer0, ⟨0, 0, 0, 0, 0, 64, 0, false⟩, List.replicate 2048 0, by decide +kernel, by decide +kernel, by decide +kernel,
    by decide +kernel, by decide +kernel, by decide +kernel, by decide +kernel, by decide +kernel, by decide +kernel,
    by decide +kernel⟩,
   ⟨ofD (upIn .expose), 127, by decide +kernel, by decide +kernel⟩,
   ⟨ofD (upIn .hold), 127, by decide +kernel, by decide +kernel⟩,
   ⟨ofD (upIn .expose), 127, by decide +kernel, by decide +kernel⟩,
   ⟨ofD (upIn .expose), 127, by decide +kernel, by decide +kernel⟩,
   ⟨ofD (upIn .expose), 127, 2147487744, by decide +kernel, by decide +kernel, by decide +kernel, by decide +kernel⟩,
   ⟨ofD (onRa (upIn .expose) fun r => { r with cfgWait := List.replicate 16 (some (false, true)) }), 15, false, true,
    by decide +kernel, by decide +kernel, by decide +kernel, by decide +kernel⟩,
   ⟨ofD (upIn .expose), 1, by decide +kernel, by decide +kernel, by decide +kernel⟩,
   ⟨ofD (onRa (upIn .expose) fun r => { r with healthPend := 1 }), 1, by decide +kernel, by decide +kernel, by decide +kernel⟩,
   ⟨ofD (onHead (upIn .expose) fun h => { h with tiles := List.replicate 16 { report := true, temps := [400, 401, 402, 403] } }),
    by decide +kernel, by decide +kernel, by decide +kernel⟩,
   ⟨ofD (onRa (upIn .expose) fun r =>
    { r with cols := List.replicate 128 { rampAct := true, rampN := 4096, rampQ := some 3, rampMax := 5000 } }), 15,
    by decide +kernel, by decide +kernel, by decide +kernel⟩⟩

theorem witness_StageCommandsComplete :
    (∃ (s : State), s.dev.up = true ∧ s.dev.isMaster = true ∧ s.dev.top.mode ≠ .dormant) ∧
    (∃ (s : State) (dt : Nat) (i : Nat) (k : KIn), s.dev.up = true ∧ s.dev.top.mode ≠ .dormant ∧ s.dev.isMaster = false ∧
    s.dev.timeLocked = true ∧ bit (s.dev.rd Reg.STG_MASTER) 31 = true ∧ bits (s.dev.rd Reg.STG_MASTER) 11 0 = k.frame.src ∧
    s.dev.kin.findIdx? (·.frame.ptype == 0x01) = some i ∧ s.dev.kin[i]? = some k ∧ k.frame.poison = false ∧ (s.dev.after dt).ns ≤
    (sampleOf k.frame.payload).t + 1000 * (sampleOf k.frame.payload).useDelay) ∧
    (∃ (s : State) (i : Nat) (k : KIn), s.dev.up = true ∧ s.dev.top.mode ≠ .dormant ∧ (s.dev.isMaster = true ∨ bit (s.dev.rd
    Reg.STG_MASTER) 31 = false ∨ bits (s.dev.rd Reg.STG_MASTER) 11 0 ≠ k.frame.src) ∧ s.dev.kin.findIdx? (·.frame.ptype == 0x01) =
    some i ∧ s.dev.kin[i]? = some k) ∧
    (∃ (s : State) (q : Nat), s.dev.up = true ∧ q < 2) ∧
    (∃ (s : State) (q : Nat), s.dev.up = true ∧ q < 2) ∧
    (∃ (s : State), s.dev.up = true ∧ s.dev.stg.holdReq = false) ∧
    (∃ (s : State), s.dev.up = true ∧ s.dev.stg.holdReq = true) ∧
    (∃ (s : State) (dt : Nat), s.dev.up = true ∧ s.dev.top.mode ≠ .dormant ∧ (s.dev.after dt).edgeNow = false) ∧
    (∃ (s : State) (dt : Nat), s.dev.up = true ∧ s.dev.top.mode ≠ .dormant ∧ (s.dev.after dt).edgeNow = true) ∧
    (∃ (s : State) (dt : Nat) (y : Int), s.dev.up = true ∧ (s.dev.after dt).onEdge = true ∧ s.dev.stg.retreat = true ∧ (s.dev.after
    dt).posAt (s.dev.after dt).ns (s.dev.top.edgeAt >>> 32) = some y ∧ y ≤ 65536 * ((s.dev.startTick : Int) - (s.dev.ra.holdD :
    Int))) :=
  ⟨⟨ofD (onStg (onTop (upIn .expose) fun t => { t with straps := 2 }) fun s => { s with lastT := some 3 }), by decide +kernel,
    by decide +kernel, by decide +kernel⟩,
   ⟨ofD ({ regs (upIn .expose) [(Reg.STG_MASTER, 2 ^ 31 + 7)] with kin := [smpIn] }), 0, 0, smpIn, by decide +kernel,
    by decide +kernel, by decide +kernel, by decide +kernel, by decide +kernel, by decide +kernel, by decide +kernel,
    by decide +kernel, by decide +kernel, by decide +kernel⟩,
   ⟨ofD ({ upIn .expose with kin := [smpIn] }), 0, smpIn, by decide +kernel, by decide +kernel, by decide +kernel,
    by decide +kernel, by decide +kernel⟩,
   ⟨ofD (upIn .expose), 1, by decide +kernel, by decide +kernel⟩,
   ⟨ofD (upIn .expose), 1, by decide +kernel, by decide +kernel⟩,
   ⟨ofD (upIn .expose), by decide +kernel, by decide +kernel⟩,
   ⟨ofD (onStg (upIn .expose) fun s => { s with holdReq := true }), by decide +kernel, by decide +kernel⟩,
   ⟨ofD (onTop (onStg (upIn .expose) fun s => { s with closed := true }) fun t => { t with nextIdle := nsT 9000 }), 0,
    by decide +kernel, by decide +kernel, by decide +kernel⟩,
   ⟨ofD (onTop (upIn .expose) fun t => { t with desig := .idle, idlePeriod := 0 }), 0, by decide +kernel, by decide +kernel,
    by decide +kernel⟩,
   ⟨ofD (onStg (moving (struck .hold)) fun s => { s with retreat := true }), 0, -6554, by decide +kernel, by decide +kernel,
    by decide +kernel, by decide +kernel, by decide +kernel⟩⟩

theorem witness_HeatCommandsComplete :
    (∃ (s : State), s.dev.up = true ∧ s.dev.sweepOn = true ∧ 0 < s.dev.heat.rows ∧ s.dev.hbmWaits = false) ∧
    (∃ (s : State) (dt : Nat) (i : Nat) (tx : Nat) (k : KIn) (x : Stroke) (hs : HStroke), s.dev.up = true ∧ (s.dev.after dt).onEdge
    = true ∧ s.dev.kin.findIdx? (·.frame.ptype == 0x10) = some i ∧ s.dev.kin[i]? = some k ∧ (s.dev.ra.cur.bind s.dev.stroke?) = some
    x ∧ s.dev.hstroke? x.sseq = some hs ∧ k.frame.src = s.dev.neighbour true ∧ s.dev.heat.xchgE = true ∧ x.blendE = true ∧
    s.dev.strikeHeat (seamOf k true).tick = some tx ∧ s.dev.seamValid x k (seamOf k true) = true) ∧
    (∃ (s : State) (dt : Nat) (tk : Nat) (x : Stroke), s.dev.up = true ∧ (s.dev.after dt).onEdge = true ∧ (s.dev.ra.cur.bind
    s.dev.stroke?) = some x ∧ s.dev.ra.sTick = some tk ∧ s.dev.heat.xchgE = true ∧ x.blendE = true ∧ 18 ≤ tk ∧ (tk - 18) % 8 = 0 ∧
    (tk - 18) / 8 < (x.n + 7) / 8 ∧ s.dev.heat.seamGot.contains (true, (tk - 18) / 8) = false ∧ (s.dev.kin.all fun k =>
    k.frame.ptype != 0x10) = true) ∧
    (∃ (s : State) (dt : Nat), s.dev.up = true ∧ (s.dev.after dt).onEdge = true ∧ s.dev.heatFree = true ∧ s.dev.heatTurn 0 = true ∧
    s.dev.heat.pend ≠ 0) ∧
    (∃ (s : State) (bank : Nat), s.dev.hostOk = true ∧ bank < 2 ∧ s.dev.heat.ftabNext = none) ∧
    (∃ (s : State) (bank : Nat), s.dev.hostOk = true ∧ bank < 2 ∧ s.dev.heat.ftabNext.isSome = true) :=
  ⟨⟨ofD (onHeat (upIn .expose) fun h => { h with rows := 1, sweepAt := 31 }), by decide +kernel, by decide +kernel,
    by decide +kernel, by decide +kernel⟩,
   ⟨ofD ({ seamDev with kin := [seamIn] }), 0, 0, 5, seamIn, { stroke0 with blendE := true }, ⟨0, 0, 0, 0, 0, 64, 0, false⟩,
    by decide +kernel, by decide +kernel, by decide +kernel, by decide +kernel, by decide +kernel, by decide +kernel,
    by decide +kernel, by decide +kernel, by decide +kernel, by decide +kernel, by decide +kernel⟩,
   ⟨ofD (onRa seamDev fun r => { r with sTick := some 74 }), 0, 74, { stroke0 with blendE := true }, by decide +kernel,
    by decide +kernel, by decide +kernel, by decide +kernel, by decide +kernel, by decide +kernel, by decide +kernel,
    by decide +kernel, by decide +kernel, by decide +kernel, by decide +kernel⟩,
   ⟨ofD (onHeat (regs (upIn .configure) [(Reg.HEAT_RISE, 77)]) fun h => { h with pend := 7 }), 0, by decide +kernel,
    by decide +kernel, by decide +kernel, by decide +kernel, by decide +kernel⟩,
   ⟨ofD (upIn .expose), 1, by decide +kernel, by decide +kernel, by decide +kernel⟩,
   ⟨ofD (onHeat (upIn .expose) fun h => { h with ftabNext := some (0, []) }), 1, by decide +kernel, by decide +kernel,
    by decide +kernel⟩⟩

theorem witness_MetrologyBuildCommandsComplete :
    (∃ (s : State), s.dev.met.on = false) ∧
    (∃ (s : State) (x : Desc), s.dev.up = true ∧ s.dev.front0 = some x ∧ x.op = 0x0110 ∧ s.dev.cmdSession x = true ∧
    s.dev.met.build.isOpen = false) ∧
    (∃ (s : State) (x : Desc), s.dev.up = true ∧ s.dev.front0 = some x ∧ x.op = 0x0111 ∧ s.dev.cmdSession x = true ∧
    s.dev.met.build.isOpen = true ∧ s.dev.met.build.endSeq = none) ∧
    (∃ (s : State) (x : Desc) (w : Nat), s.dev.up = true ∧ s.dev.front0 = some x ∧ x.op = 0x0112 ∧ s.dev.cmdSession x = true ∧
    s.dev.met.wrote = some w) ∧
    (∃ (s : State) (q : Nat) (ofs : Nat) (bytes : List Byte), s.dev.up = true ∧ s.dev.met.on = true ∧ s.dev.met.nextCopy = some (q,
    false) ∧ s.dev.met.recOf q = some bytes ∧ s.dev.dataOfs 13 256 = some ofs ∧ 0 < s.dev.ringFree 13) :=
  ⟨⟨ofD ({}), by decide +kernel⟩,
   ⟨ofD (onMet (queued (upIn .configure) (desc 0x110 [1, 2, 3, 4])) fun m => { m with on := true }), desc 0x110 [1, 2, 3, 4],
    by decide +kernel, by decide +kernel, by decide +kernel, by decide +kernel, by decide +kernel⟩,
   ⟨ofD (onMet (queued (upIn .configure) (desc 0x111 [])) fun m =>
    { m with on := true, build := { isOpen := true, num := 1 }, layers := [{ num := 1, tag := 2, build := true }] }), desc 0x111 [],
    by decide +kernel, by decide +kernel, by decide +kernel, by decide +kernel, by decide +kernel, by decide +kernel⟩,
   ⟨ofD (onMet (queued (upIn .configure) (desc 0x112 [3])) fun m => { m with on := true, wrote := some 3 }), desc 0x112 [3], 3,
    by decide +kernel, by decide +kernel, by decide +kernel, by decide +kernel, by decide +kernel⟩,
   ⟨ofD (onMet (regs (upIn .configure) [(Reg.RING_n_CTL 13, 0x81), (Reg.RING_n_DATA_SIZE 13, 1)]) fun m =>
    { m with on := true, wrote := some 0, nv := { pages := [List.replicate 256 0, List.replicate 256 0] } }), 0, 0, List.replicate
    256 0, by decide +kernel, by decide +kernel, by decide +kernel, by decide +kernel, by decide +kernel, by decide +kernel⟩⟩

theorem witness_MetrologyDeviceCommandsComplete_rest :
    (∃ (s : State) (o : Bool), s.dev.met.on = true ∧ s.dev.met.sealOpen ≠ o) ∧
    (∃ (s : State) (img : List Byte), s.dev.met.on = true ∧ s.dev.met.sealOpen = true ∧ (s.dev.met.checkImage img).1 ≠ 0) ∧
    (∃ (s : State), s.dev.met.on = true) ∧
    (∃ (s : State), s.dev.met.on = true ∧ s.dev.met.xtal = true) ∧
    (∃ (s : State), s.dev.met.on = true ∧ s.dev.met.xtal = false) ∧
    (∃ (s : State), s.dev.met.on = true) :=
  ⟨⟨ofD (onMet (upIn .expose) fun m => { m with on := true }), true, by decide +kernel, by decide +kernel⟩,
   ⟨ofD (onMet (upIn .expose) fun m => { m with on := true, sealOpen := true }), [], by decide +kernel, by decide +kernel,
    by decide +kernel⟩,
   ⟨ofD (onMet (upIn .expose) fun m => { m with on := true, noAck := 2 }), by decide +kernel⟩,
   ⟨ofD (onMet (upIn .expose) fun m => { m with on := true }), by decide +kernel, by decide +kernel⟩,
   ⟨ofD (onMet (upIn .expose) fun m => { m with on := true, xtal := false }), by decide +kernel, by decide +kernel⟩,
   ⟨ofD (onMet (upIn .expose) fun m => { m with on := true, nvOk := false, errs := 16 }), by decide +kernel⟩⟩

theorem witness_CalibrationCommandsComplete :
    (∃ (s : State) (x : Desc), s.dev.up = true ∧ s.dev.front0 = some x ∧ s.dev.cmdSession x = true) ∧
    (∃ (s : State) (r : CalReq), s.dev.up = true ∧ s.dev.cal.run = none ∧ s.dev.calNext = some r ∧ (r.selfTest = true ∨ s.dev.get
    Reg.CAL_WIDTH Fd.CAL_WIDTH_W_LO + 256 ≤ s.dev.get Reg.CAL_WIDTH Fd.CAL_WIDTH_W_HI)) ∧
    (∃ (s : State) (r : CalRun), s.dev.up = true ∧ s.dev.cal.run = some r ∧ s.dev.cal.edge = true ∧ s.dev.saf.safe = false ∧
    s.dev.stg.lost = false ∧ s.dev.parked r (s.dev.top.edgeAt >>> 32) = true ∧
    ({ s.dev with cal := { s.dev.cal with edge := false } }).strobeRise.1 = true) ∧
    (∃ (s : State) (r : CalRun), s.dev.up = true ∧ s.dev.cal.run = some r ∧ r.done = true) ∧
    (∃ (s : State) (k : Nat), s.dev.up = true ∧ s.dev.ra.sTick = some 0 ∧ k < 16 ∧ (s.dev.calTile k).early = true) ∧
    (∃ (s : State) (k : Nat), s.dev.up = true ∧ k < 16 ∧ (s.dev.tile k).present = true) :=
  ⟨⟨ofD (queued (upIn .calibrate) (desc 0x30 [0xFF, 0xFF])), desc 0x30 [0xFF, 0xFF], by decide +kernel, by decide +kernel,
    by decide +kernel⟩,
   ⟨ofD (onCal (upIn .calibrate) fun c => { c with reqs := [{ calReq0 with calib := true }] }), { calReq0 with calib := true },
    by decide +kernel, by decide +kernel, by decide +kernel, by decide +kernel⟩,
   ⟨ofD (moving (onCal (onSaf (upIn .calibrate) fun s => { s with on := true, safe := false, cause := 0 }) fun c =>
    { c with edge := true, run := some calRun0 })), calRun0, by decide +kernel, by decide +kernel, by decide +kernel,
    by decide +kernel, by decide +kernel, by decide +kernel, by decide +kernel⟩,
   ⟨ofD (onCal (upIn .calibrate) fun c => { c with run := some calRun0 }), calRun0, by decide +kernel, by decide +kernel,
    by decide +kernel⟩,
   ⟨ofD (onCal (onRa (upIn .expose) fun r => { r with sTick := some 0 }) fun c =>
    { c with tiles := List.replicate 16 { early := true, pend := some false } }), 15, by decide +kernel, by decide +kernel,
    by decide +kernel, by decide +kernel⟩,
   ⟨ofD (onTile (upIn .calibrate) 15 fun t => { t with present := true, st := .up }), 15, by decide +kernel, by decide +kernel,
    by decide +kernel⟩⟩

theorem witness_AcknowledgementsComplete :
    (∃ (s : State) (k : Nat), s.dev.up = true ∧ k < 16) ∧
    (∃ (s : State) (k : Nat) (bs : List Byte) (x : Strike), s.dev.up = true ∧ k < 16 ∧ recordOk bs 1 100 = true ∧
    (s.dev.ra.strikes.find? fun x => x.tile == k && x.tick % 2 ^ 40 == (strikeRecOf bs).tick) = some x) ∧
    (∃ (s : State) (k : Nat) (x : Strike), s.dev.up = true ∧ k < 16 ∧ (s.dev.ra.strikes.find? fun x => x.tile == k && !x.held) =
    some x) ∧
    (∃ (s : State) (k : Nat) (x : Strike), s.dev.up = true ∧ k < 16 ∧ (s.dev.ra.strikes.find? fun x => x.tile == k && !x.cal) = some
    x) :=
  ⟨⟨ofD (onTile (upIn .expose) 15 fun t => { t with st := .up, present := true }), 15, by decide +kernel, by decide +kernel⟩,
   ⟨ofD (ackDev 9), 15, withCrc ([1, 0x2F] ++ toLE 5 4 ++ [0] ++ toLE 4 9 ++ List.replicate 84 0), strike0 9, by decide +kernel,
    by decide +kernel, by decide +kernel, by decide +kernel⟩,
   ⟨ofD (ackDev 9), 15, strike0 9, by decide +kernel, by decide +kernel, by decide +kernel⟩,
   ⟨ofD (ackDev 9), 15, strike0 9, by decide +kernel, by decide +kernel, by decide +kernel⟩⟩

theorem witness_TileBringupCommandsComplete_rest :
    (∃ (s : State) (k : Nat), s.dev.up = true ∧ k < 16 ∧ (s.dev.tile k).present = false) ∧
    (∃ (s : State) (k : Nat), s.dev.up = true ∧ k < 16 ∧ s.dev.top.mode = .configure ∧ (s.dev.tile k).present = true ∧ (s.dev.tile
    k).identDue = true) ∧
    (∃ (s : State) (k : Nat), s.dev.up = true ∧ k < 16 ∧ (s.dev.tile k).st = .ident ∧ (s.dev.tile k).step = 1) ∧
    (∃ (s : State) (k : Nat), s.dev.up = true ∧ k < 16 ∧ (s.dev.tile k).st = .training ∧ (s.dev.tile k).step = 3) ∧
    (∃ (s : State) (k : Nat) (bs : List Byte), s.dev.up = true ∧ k < 16 ∧ recordOk bs 3 16 = true ∧ (s.dev.tile k).st = .training ∧
    4 ≤ (s.dev.tile k).step ∧ (s.dev.tile k).step ≤ 6 ∧ byteAt bs 1 = k ∧ byteAt bs 3 = 1 ∧ (((s.dev.tile k).step = 6 → fieldLE bs 7
    4 = 0))) ∧
    (∃ (s : State) (k : Nat), s.dev.up = true ∧ k < 16 ∧ ((s.dev.tile k).st = .ident ∨ (s.dev.tile k).st = .training)) ∧
    (∃ (s : State) (k : Nat), s.dev.up = true ∧ k < 16 ∧ (s.dev.tile k).copy = true) :=
  ⟨⟨ofD (upIn .expose), 15, by decide +kernel, by decide +kernel, by decide +kernel⟩,
   ⟨ofD (onTile (upIn .configure) 15 fun t => { t with present := true, identDue := true }), 15, by decide +kernel,
    by decide +kernel, by decide +kernel, by decide +kernel, by decide +kernel⟩,
   ⟨ofD (onMet (onSaf (onTile (upIn .configure) 15 fun t => { t with present := true, st := .ident, step := 1 }) fun s =>
    { s with on := true }) fun m => { m with on := true }), 15, by decide +kernel, by decide +kernel, by decide +kernel,
    by decide +kernel⟩,
   ⟨ofD (onTile (upIn .configure) 15 fun t => { t with present := true, st := .training, step := 3 }), 15, by decide +kernel,
    by decide +kernel, by decide +kernel, by decide +kernel⟩,
   ⟨ofD (onTile (upIn .configure) 15 fun t => { t with present := true, st := .training, step := 6, rate := 3 }), 15, withCrc ([3,
    15, 0, 1] ++ List.replicate 8 0), by decide +kernel, by decide +kernel, by decide +kernel, by decide +kernel, by decide +kernel,
    by decide +kernel, by decide +kernel, by decide +kernel, by decide +kernel⟩,
   ⟨ofD (onTile (upIn .configure) 15 fun t => { t with present := true, st := .ident, step := 1 }), 15, by decide +kernel,
    by decide +kernel, by decide +kernel⟩,
   ⟨ofD (onTile (upIn .configure) 15 fun t => { t with present := true, st := .training, step := 3, copy := true, copyFails := 2 }),
    15, by decide +kernel, by decide +kernel, by decide +kernel⟩⟩

theorem witness_TileLinkCommandsComplete :
    (∃ (s : State) (k : Nat), s.dev.hostOk = true ∧ k < 16 ∧ (s.dev.top.mode = .configure ∨ s.dev.top.mode = .hold) ∧ ((s.dev.tile
    k).st = .up ∨ (s.dev.tile k).st = .degraded ∨ (s.dev.tile k).st = .fault ∨ (s.dev.tile k).st = .training)) ∧
    (∃ (s : State) (k : Nat), s.dev.hostOk = true ∧ k < 16 ∧ (s.dev.tile k).st = .refused) ∧
    (∃ (s : State) (k : Nat), s.dev.up = true ∧ k < 16 ∧ (s.dev.tile k).st = .up) ∧
    (∃ (s : State) (k : Nat) (lane : Nat) (dwell : Nat), s.dev.hostOk = true ∧ k < 16 ∧ lane < 4 ∧ dwell < 8 ∧ (s.dev.tile k).st =
    .up ∧ (s.dev.tile k).eyeBusy = false) ∧
    (∃ (s : State) (k : Nat) (bs : List Byte), s.dev.up = true ∧ k < 16 ∧ recordOk bs 4 16 = true ∧ (s.dev.tile k).eyeBusy = true ∧
    bits (byteAt bs 1) 5 4 = (s.dev.tile k).eyeLane ∧ (s.dev.tile k).eyeLane < 3 ∧ byteAt bs 1 % 16 = k) ∧
    (∃ (s : State) (k : Nat), s.dev.up = true ∧ k < 16 ∧ (s.dev.tile k).eyeBusy = true ∧ (s.dev.tile k).eyeLane = 3) ∧
    (∃ (s : State) (k : Nat), s.dev.up = true ∧ k < 16 ∧ (s.dev.tile k).eyeBusy = true ∧ (s.dev.tile k).eyeLane < 3) :=
  ⟨⟨ofD (onTile (upIn .hold) 15 fun t => { t with present := true, st := .fault, speed := 3 }), 15, by decide +kernel,
    by decide +kernel, by decide +kernel, by decide +kernel⟩,
   ⟨ofD (onTile (upIn .expose) 15 fun t => { t with present := true, st := .refused }), 15, by decide +kernel, by decide +kernel,
    by decide +kernel⟩,
   ⟨ofD (onTile (upIn .expose) 15 fun t => { t with present := true, st := .up, eyeBusy := true }), 15, by decide +kernel,
    by decide +kernel, by decide +kernel⟩,
   ⟨ofD (onTile (upIn .expose) 15 fun t => { t with present := true, st := .up }), 15, 3, 7, by decide +kernel, by decide +kernel,
    by decide +kernel, by decide +kernel, by decide +kernel, by decide +kernel⟩,
   ⟨ofD (onTile (upIn .expose) 15 fun t => { t with present := true, st := .up, eyeBusy := true, eyeLane := 2 }), 15, withCrc ([4,
    0x2F, 1, 2, 3, 4] ++ List.replicate 6 0), by decide +kernel, by decide +kernel, by decide +kernel, by decide +kernel,
    by decide +kernel, by decide +kernel, by decide +kernel⟩,
   ⟨ofD (onTile (upIn .expose) 15 fun t => { t with present := true, st := .up, eyeBusy := true, eyeLane := 3 }), 15,
    by decide +kernel, by decide +kernel, by decide +kernel, by decide +kernel⟩,
   ⟨ofD (onTile (upIn .expose) 15 fun t => { t with present := true, st := .up, eyeBusy := true, eyeLane := 2 }), 15,
    by decide +kernel, by decide +kernel, by decide +kernel, by decide +kernel⟩⟩

theorem witness_ChannelStartsComplete :
    (∃ (s : State) (x : Desc) (rest : List Desc), s.dev.up = true ∧ s.dev.host.q14 = x :: rest ∧ x.arg 12 12 < 32 ∧ (s.dev.chan
    (x.arg 12 12)).st.running = false) ∧
    (∃ (s : State) (x : Desc) (rest : List Desc), s.dev.up = true ∧ s.dev.host.q14 = x :: rest ∧ (s.dev.chan (x.arg 12
    12)).st.running = true) ∧
    (∃ (o : Nat) (len : Nat), (bellChannel o = none ∨ len ≠ 4)) ∧
    (∃ (s : State) (c : Nat), s.dev.linkUp = true ∧ c < 32) ∧
    (∃ (s : State) (c : Nat), s.dev.hostOk = true ∧ c < 32 ∧ s.dev.flag Reg.CPE_BUSERR_STAT Fd.CPE_BUSERR_STAT_VALID = false ∧
    (s.dev.chan c).st = .stop) ∧
    (∃ (s : State) (c : Nat), s.dev.hostOk = true ∧ c < 32 ∧ (s.dev.flag Reg.CPE_BUSERR_STAT Fd.CPE_BUSERR_STAT_VALID = true ∨
    (s.dev.chan c).st ≠ .stop)) ∧
    (∃ (s : State) (c : Nat), s.dev.hostOk = true ∧ c < 32) :=
  ⟨⟨ofD (onHost (upIn .expose) fun h => { h with q14 := [startDesc] }), startDesc, [], by decide +kernel, by decide +kernel,
    by decide +kernel, by decide +kernel⟩,
   ⟨ofD (onChan (onHost (upIn .expose) fun h => { h with q14 := [startDesc] }) 31 fun c => { c with st := .park }), startDesc, [],
    by decide +kernel, by decide +kernel, by decide +kernel⟩,
   ⟨0xE101, 4, by decide +kernel⟩,
   ⟨ofD (onChan (upIn .expose) 31 fun c => { c with st := .park, db := true }), 31, by decide +kernel, by decide +kernel⟩,
   ⟨ofD (onEng (upIn .expose) fun e =>
    { e with chans := List.replicate 32 { st := .stop, reason := 4, saved := some (7, 99, true) }, units := List.replicate 8 { owner := some 31 } }),
    31, by decide +kernel, by decide +kernel, by decide +kernel, by decide +kernel⟩,
   ⟨ofD (onChan (upIn .expose) 31 fun c => { c with st := .run }), 31, by decide +kernel, by decide +kernel, by decide +kernel⟩,
   ⟨ofD (onEng (upIn .expose) fun e =>
    { e with chans := List.replicate 32 { st := .run, claim := some 7, pc := 4096 }, units := List.replicate 8 { owner := some 31 } }),
    31, by decide +kernel, by decide +kernel⟩⟩

theorem witness_ChannelControlCompletes :
    (∃ (s : State) (c : Nat) (word : Nat) (dt : Nat) (w : Nat) (d1 : Dev), Executes (s.dev.after dt) c 0 word w d1) ∧
    (∃ (s : State) (c : Nat) (word : Nat) (dt : Nat) (w : Nat) (d1 : Dev), Executes (s.dev.after dt) c 4 word w d1 ∧ bits w 31 8 ≠ 0
    ∧ bits w 47 32 ≠ 0) ∧
    (∃ (s : State) (c : Nat) (word : Nat) (dt : Nat) (w : Nat) (d1 : Dev), Executes (s.dev.after dt) c 5 word w d1 ∧ bits w 7 4 ≤ 4) ∧
    (∃ (s : State) (c : Nat) (word : Nat) (dt : Nat) (w : Nat) (d1 : Dev), Executes (s.dev.after dt) c 5 word w d1 ∧ 4 < bits w 7 4) ∧
    (∃ (s : State) (c : Nat) (dt : Nat) (v : Wait), c < 32 ∧ (s.dev.chan c).wait = some v ∧ (s.dev.chan c).st = .wait ∧ (s.dev.after
    dt).waitHolds c v = true) ∧
    (∃ (s : State) (c : Nat) (v : Wait), c < 32 ∧ (s.dev.chan c).wait = some v ∧ (s.dev.chan c).st = .wait ∧ v.tmo ≠ 0 ∧
    (s.dev.reachUp (v.since + 1250000 * v.tmo + 1)).waitHolds c v = false) ∧
    (∃ (s : State) (kind : Nat) (addr : Nat) (dt : Nat), s.dev.up = true ∧ s.dev.chanRunning = true ∧ (kind < 4 ∨ (kind = 4 ∧
    ((s.dev.after dt).hbmRead (rqChan 0) (addr / 16 * 16) 16).1.2 = true))) :=
  ⟨⟨ofD (onHost (onChan (upIn .expose) 31 fun c => { c with st := .run }) fun h => { h with out14 := [startDesc] }), 31, 0, 0, 0,
    ((((onHost (onChan (upIn .expose) 31 fun c => { c with st := .run }) fun h => { h with out14 := [startDesc] })).after
    0).fetchInstr 31 0).2, ⟨by decide +kernel, by decide +kernel, by decide +kernel, by decide +kernel, by decide +kernel, Prod.ext
    (by decide +kernel) rfl, by decide +kernel, by decide +kernel⟩⟩,
   ⟨ofD (onChan (upIn .expose) 31 fun c => { c with st := .run, pc := 64 }), 31, (4 + 3 * 16 + 5 * 2 ^ 8 + 2 * 2 ^ 32 + 7 * 2 ^ 48 +
    9 * 2 ^ 88), 0, 4 + 3 * 16 + 5 * 2 ^ 8 + 2 * 2 ^ 32 + 7 * 2 ^ 48 + 9 * 2 ^ 88, ((((onChan (upIn .expose) 31 fun c =>
    { c with st := .run, pc := 64 })).after 0).fetchInstr 31 (4 + 3 * 16 + 5 * 2 ^ 8 + 2 * 2 ^ 32 + 7 * 2 ^ 48 + 9 * 2 ^ 88)).2,
    ⟨by decide +kernel, by decide +kernel, by decide +kernel, by decide +kernel, by decide +kernel, Prod.ext (by decide +kernel)
    rfl, by decide +kernel, by decide +kernel⟩, by decide +kernel, by decide +kernel⟩,
   ⟨ofD (onChan (upIn .expose) 31 fun c => { c with st := .run }), 31, (5 + 4 * 16 + 256 + 9 * 2 ^ 16 + 3 * 2 ^ 32 + 5 * 2 ^ 64), 0,
    5 + 4 * 16 + 256 + 9 * 2 ^ 16 + 3 * 2 ^ 32 + 5 * 2 ^ 64, ((((onChan (upIn .expose) 31 fun c => { c with st := .run })).after
    0).fetchInstr 31 (5 + 4 * 16 + 256 + 9 * 2 ^ 16 + 3 * 2 ^ 32 + 5 * 2 ^ 64)).2, ⟨by decide +kernel, by decide +kernel,
    by decide +kernel, by decide +kernel, by decide +kernel, Prod.ext (by decide +kernel) rfl, by decide +kernel,
    by decide +kernel⟩, by decide +kernel⟩,
   ⟨ofD (onChan (upIn .expose) 31 fun c => { c with st := .run }), 31, (5 + 5 * 16), 0, 5 + 5 * 16, ((((onChan (upIn .expose) 31 fun
    c => { c with st := .run })).after 0).fetchInstr 31 (5 + 5 * 16)).2, ⟨by decide +kernel, by decide +kernel, by decide +kernel,
    by decide +kernel, by decide +kernel, Prod.ext (by decide +kernel) rfl, by decide +kernel, by decide +kernel⟩, by decide +kernel⟩,
   ⟨ofD (onChan (upIn .expose) 31 fun c => { c with st := .wait, db := true, wait := some ⟨4, false, 0, 0, 0, 0, 0, 0, 0⟩ }), 31, 0,
    ⟨4, false, 0, 0, 0, 0, 0, 0, 0⟩, by decide +kernel, by decide +kernel, by decide +kernel, by decide +kernel⟩,
   ⟨ofD (onChan (upIn .expose) 31 fun c => { c with st := .wait, wait := some ⟨4, false, 3, 0, 0, 0, 0, 0, 0⟩ }), 31, ⟨4, false, 3,
    0, 0, 0, 0, 0, 0⟩, by decide +kernel, by decide +kernel, by decide +kernel, by decide +kernel, by decide +kernel⟩,
   ⟨ofD (onChan (upIn .expose) 31 fun c => { c with st := .wait }), 3, 0x123456789, 0, by decide +kernel, by decide +kernel,
    by decide +kernel⟩⟩

theorem witness_LinkSetsTheProgramCounter :
    ∃ (s : State) (c : Nat) (word : Nat) (dt : Nat) (w : Nat) (d1 : Dev), Executes (s.dev.after dt) c 7 word w d1 :=
  ⟨ofD (onChan (upIn .expose) 31 fun c => { c with st := .run, sofs := 5 }), 31, (7 + 16 + 0x1230 * 2 ^ 64), 0, 7 + 16 + 0x1230 * 2
    ^ 64, ((((onChan (upIn .expose) 31 fun c => { c with st := .run, sofs := 5 })).after 0).fetchInstr 31 (7 + 16 + 0x1230 * 2 ^
    64)).2, ⟨by decide +kernel, by decide +kernel, by decide +kernel, by decide +kernel, by decide +kernel, Prod.ext
    (by decide +kernel) rfl, by decide +kernel, by decide +kernel⟩⟩

theorem witness_ChannelMovesComplete :
    (∃ (s : State) (c : Nat) (word : Nat) (dt : Nat) (w : Nat) (d1 : Dev), Executes (s.dev.after dt) c 1 word w d1 ∧ bits w 43 12 =
    0) ∧
    (∃ (s : State) (c : Nat) (word : Nat) (dt : Nat) (w : Nat) (len : Nat) (data : List Byte) (d1 : Dev) (src : Bool × Int) (dst :
    Bool × Int), Executes (s.dev.after dt) c 1 word w d1 ∧ len = bits w 43 12 ∧ 0 < len ∧ src = s.dev.dataAddr c (bits w 84 44)
    (s.dev.chan c).sofs ∧ dst = s.dev.dataAddr c (bits w 125 85) (s.dev.chan c).dofs ∧ ¬ (src.1 = dst.1 ∧ src.2 < dst.2 ∧ dst.2 <
    src.2 + len ∧ dst.2 - src.2 < 128) ∧ outOfRange src len = false ∧ outOfRange dst len = false ∧ ((src.1 = false → s.dev.hostReads
    = true ∧ len ≤ data.length))) ∧
    (∃ (s : State) (c : Nat) (word : Nat) (dt : Nat) (w : Nat) (d1 : Dev), Executes (s.dev.after dt) c 2 word w d1 ∧ bits w 43 12 =
    0) ∧
    (∃ (s : State) (c : Nat) (word : Nat) (dt : Nat) (w : Nat) (len : Nat) (d1 : Dev) (dst : Bool × Int), Executes (s.dev.after dt)
    c 2 word w d1 ∧ len = bits w 43 12 ∧ 0 < len ∧ dst = s.dev.dataAddr c (bits w 125 85) (s.dev.chan c).dofs ∧ outOfRange dst len =
    false) ∧
    (∃ (s : State) (c : Nat) (word : Nat) (dt : Nat) (w : Nat) (d1 : Dev) (a : Bool × Int), Executes (s.dev.after dt) c 6 word w d1
    ∧ a = s.dev.dataAddr c (bits w 47 7) (s.dev.chan c).sofs ∧ ((bit w 5 = true → a.2 % 8 = 0 ∧ outOfRange a 8 = false))) :=
  ⟨⟨ofD (onChan (upIn .expose) 31 fun c => { c with st := .run }), 31, (1), 0, 1, ((((onChan (upIn .expose) 31 fun c =>
    { c with st := .run })).after 0).fetchInstr 31 (1)).2, ⟨by decide +kernel, by decide +kernel, by decide +kernel,
    by decide +kernel, by decide +kernel, Prod.ext (by decide +kernel) rfl, by decide +kernel, by decide +kernel⟩, by decide +kernel⟩,
   ⟨ofD (onChan (upIn .expose) 31 fun c => { c with st := .run }), 31, (1 + 6 * 128 + 16 * 2 ^ 12 + 64 * 2 ^ 85 + 2 ^ 125), 0, 1 + 6
    * 128 + 16 * 2 ^ 12 + 64 * 2 ^ 85 + 2 ^ 125, 16, List.replicate 16 0xAB, ((((onChan (upIn .expose) 31 fun c =>
    { c with st := .run })).after 0).fetchInstr 31 (1 + 6 * 128 + 16 * 2 ^ 12 + 64 * 2 ^ 85 + 2 ^ 125)).2, (false, 0), (true, 64),
    ⟨by decide +kernel, by decide +kernel, by decide +kernel, by decide +kernel, by decide +kernel, Prod.ext (by decide +kernel)
    rfl, by decide +kernel, by decide +kernel⟩, by decide +kernel, by decide +kernel, by decide +kernel, by decide +kernel,
    by decide +kernel, by decide +kernel, by decide +kernel, by decide +kernel⟩,
   ⟨ofD (onChan (upIn .expose) 31 fun c => { c with st := .run }), 31, (2), 0, 2, ((((onChan (upIn .expose) 31 fun c =>
    { c with st := .run })).after 0).fetchInstr 31 (2)).2, ⟨by decide +kernel, by decide +kernel, by decide +kernel,
    by decide +kernel, by decide +kernel, Prod.ext (by decide +kernel) rfl, by decide +kernel, by decide +kernel⟩, by decide +kernel⟩,
   ⟨ofD (onChan (upIn .expose) 31 fun c => { c with st := .run }), 31, (2 + 6 * 128 + 15 * 2 ^ 12 + 0x11223344 * 2 ^ 44 + 4097 * 2 ^
    85), 0, 2 + 6 * 128 + 15 * 2 ^ 12 + 0x11223344 * 2 ^ 44 + 4097 * 2 ^ 85, 15, ((((onChan (upIn .expose) 31 fun c =>
    { c with st := .run })).after 0).fetchInstr 31 (2 + 6 * 128 + 15 * 2 ^ 12 + 0x11223344 * 2 ^ 44 + 4097 * 2 ^ 85)).2, (false,
    4097), ⟨by decide +kernel, by decide +kernel, by decide +kernel, by decide +kernel, by decide +kernel, Prod.ext
    (by decide +kernel) rfl, by decide +kernel, by decide +kernel⟩, by decide +kernel, by decide +kernel, by decide +kernel,
    by decide +kernel⟩,
   ⟨ofD (onChan (upIn .expose) 31 fun c => { c with st := .run }), 31, (6 + 48 + 4096 * 2 ^ 7 + 0x55 * 2 ^ 64), 0, 6 + 48 + 4096 * 2
    ^ 7 + 0x55 * 2 ^ 64, ((((onChan (upIn .expose) 31 fun c => { c with st := .run })).after 0).fetchInstr 31 (6 + 48 + 4096 * 2 ^ 7
    + 0x55 * 2 ^ 64)).2, (false, 4096), ⟨by decide +kernel, by decide +kernel, by decide +kernel, by decide +kernel,
    by decide +kernel, Prod.ext (by decide +kernel) rfl, by decide +kernel, by decide +kernel⟩, by decide +kernel, by decide +kernel⟩⟩

theorem witness_ChannelChecksComplete :
    (∃ (s : State) (c : Nat) (word : Nat) (dt : Nat) (w : Nat) (u : Nat) (len : Nat) (data : List Byte) (d1 : Dev) (src : Bool ×
    Int), Executes (s.dev.after dt) c 3 word w d1 ∧ u = bits w 9 7 ∧ len = bits w 43 12 ∧ src = s.dev.dataAddr c (bits w 84 44)
    (s.dev.chan c).sofs ∧ outOfRange src len = false ∧ ((bit w 10 = true ∨ (s.dev.chan c).claim = some u)) ∧ (s.dev.unit
    u).owner.any (· != c) = false ∧ ((len ≠ 0 → src.1 = false → s.dev.hostReads = true ∧ len ≤ data.length)) ∧ bit w 11 = false) ∧
    (∃ (s : State) (c : Nat) (word : Nat) (dt : Nat) (w : Nat) (u : Nat) (len : Nat) (data : List Byte) (d1 : Dev) (src : Bool ×
    Int) (y : ChkUnit), Executes (s.dev.after dt) c 3 word w d1 ∧ u = bits w 9 7 ∧ len = bits w 43 12 ∧ src = s.dev.dataAddr c (bits
    w 84 44) (s.dev.chan c).sofs ∧ src.1 = false ∧ s.dev.hostReads = true ∧ len ≤ data.length ∧ bit w 10 = false ∧ (s.dev.chan
    c).claim = some u ∧ (s.dev.unit u).owner.any (· != c) = false ∧ bit w 11 = true ∧ y = (s.dev.unit u).feed ((data.take len).map
    (·, false))) ∧
    (∃ (s : State) (c : Nat) (word : Nat) (dt : Nat) (w : Nat) (u : Nat) (len : Nat) (data : List Byte) (d1 : Dev) (src : Bool ×
    Int), Executes (s.dev.after dt) c 3 word w d1 ∧ u = bits w 9 7 ∧ len = bits w 43 12 ∧ src = s.dev.dataAddr c (bits w 84 44)
    (s.dev.chan c).sofs ∧ outOfRange src len = false ∧ ((bit w 10 = true ∨ (s.dev.chan c).claim = some u)) ∧ (s.dev.unit
    u).owner.any (· != c) = false ∧ ((len ≠ 0 → src.1 = false → s.dev.hostReads = true ∧ len ≤ data.length)) ∧ bit w 11 = true) :=
  ⟨⟨ofD (chkDev), 31, (3 + 7 * 128 + 1024), 0, 3 + 7 * 128 + 1024, 7, 0, [], ((((chkDev)).after 0).fetchInstr 31 (3 + 7 * 128 +
    1024)).2, (false, 0), ⟨by decide +kernel, by decide +kernel, by decide +kernel, by decide +kernel, by decide +kernel, Prod.ext
    (by decide +kernel) rfl, by decide +kernel, by decide +kernel⟩, by decide +kernel, by decide +kernel, by decide +kernel,
    by decide +kernel, by decide +kernel, by decide +kernel, by decide +kernel, by decide +kernel⟩,
   ⟨ofD (chkDev), 31, (3 + 6 * 128 + 4 * 2 ^ 12 + 2 ^ 11 + 2 ^ 85), 0, 3 + 6 * 128 + 4 * 2 ^ 12 + 2 ^ 11 + 2 ^ 85, 6, 4, [1, 2, 3,
    4], ((((chkDev)).after 0).fetchInstr 31 (3 + 6 * 128 + 4 * 2 ^ 12 + 2 ^ 11 + 2 ^ 85)).2, (false, 0),
    ({ owner := some 31, poly := 0x04C11DB7 } : ChkUnit).feed [(1, false), (2, false), (3, false), (4, false)], ⟨by decide +kernel,
    by decide +kernel, by decide +kernel, by decide +kernel, by decide +kernel, Prod.ext (by decide +kernel) rfl, by decide +kernel,
    by decide +kernel⟩, by decide +kernel, by decide +kernel, by decide +kernel, by decide +kernel, by decide +kernel,
    by decide +kernel, by decide +kernel, by decide +kernel, by decide +kernel, by decide +kernel, by decide +kernel⟩,
   ⟨ofD (chkDev), 31, (3 + 7 * 128 + 1024 + 2048 + 4 * 2 ^ 12), 0, 3 + 7 * 128 + 1024 + 2048 + 4 * 2 ^ 12, 7, 4, [1, 2, 3, 4],
    ((((chkDev)).after 0).fetchInstr 31 (3 + 7 * 128 + 1024 + 2048 + 4 * 2 ^ 12)).2, (false, 0), ⟨by decide +kernel,
    by decide +kernel, by decide +kernel, by decide +kernel, by decide +kernel, Prod.ext (by decide +kernel) rfl, by decide +kernel,
    by decide +kernel⟩, by decide +kernel, by decide +kernel, by decide +kernel, by decide +kernel, by decide +kernel,
    by decide +kernel, by decide +kernel, by decide +kernel⟩⟩

theorem witness_CameraFramesComplete :
    (∃ (s : State) (port : Nat) (vc : Nat) (dt : Nat) (c : Nat) (x : CamSet), s.dev.up = true ∧ s.dev.top.mode ≠ .dormant ∧ port < 4
    ∧ vc < 16 ∧ c < 4 ∧ (s.dev.cam c).frame = none ∧ camPortOf c (s.dev.rd (Reg.CAM_c_CFG c)) = port ∧ vcOf (s.dev.rd (Reg.CAM_c_VC
    c)) 0 = vc ∧ ((∀ y, (s.dev.cam c).startAt = some y → y.1 ≠ s.dev.clk.up + dt ∨ y.2 = port)) ∧ (s.dev.camRuns c = true ∨
    s.dev.camCounts = true) ∧ (s.dev.cam c).staged = none ∧ (s.dev.cam c).active = some x) ∧
    (∃ (s : State) (port : Nat) (vc : Nat) (dt : Nat) (c : Nat), s.dev.up = true ∧ s.dev.top.mode ≠ .dormant ∧ port < 4 ∧ vc < 16 ∧
    c < 4 ∧ (s.dev.cam c).frame = none ∧ camPortOf c (s.dev.rd (Reg.CAM_c_CFG c)) = port ∧ vcOf (s.dev.rd (Reg.CAM_c_VC c)) 0 = vc ∧
    ((∀ y, (s.dev.cam c).startAt = some y → y.1 ≠ s.dev.clk.up + dt ∨ y.2 = port)) ∧ (s.dev.cam c).staged = none ∧ (s.dev.cam
    c).active = none) ∧
    (∃ (s : State) (port : Nat) (vc : Nat) (dt : Nat) (c : Nat) (x : CamSet), s.dev.up = true ∧ s.dev.top.mode ≠ .dormant ∧ port < 4
    ∧ vc < 16 ∧ c < 4 ∧ (s.dev.cam c).frame = none ∧ camPortOf c (s.dev.rd (Reg.CAM_c_CFG c)) = port ∧ vcOf (s.dev.rd (Reg.CAM_c_VC
    c)) 0 = vc ∧ ((∀ y, (s.dev.cam c).startAt = some y → y.1 ≠ s.dev.clk.up + dt ∨ y.2 = port)) ∧ (s.dev.cam c).staged = some x ∧
    ((s.dev.cam c).count + 2 ^ 32 - x.tag) % 2 ^ 32 < 2 ^ 31) ∧
    (∃ (s : State) (port : Nat) (vc : Nat) (c : Nat) (e : Nat) (f : CamFrame), s.dev.up = true ∧ s.dev.top.mode ≠ .dormant ∧ port <
    4 ∧ vc < 16 ∧ c < 4 ∧ (s.dev.cam c).frame = some f ∧ f.expOf port vc = some e ∧ e < f.exps.length ∧ (nth f.exps e {}).begun =
    false) ∧
    (∃ (s : State) (port : Nat) (vc : Nat) (c : Nat) (e : Nat) (f : CamFrame), s.dev.up = true ∧ s.dev.top.mode ≠ .dormant ∧ port <
    4 ∧ vc < 16 ∧ c < 4 ∧ (s.dev.cam c).frame = some f ∧ f.expOf port vc = some e ∧ e < f.exps.length ∧ (nth f.exps e {}).begun =
    true ∧ (nth f.exps e {}).ended = false ∧ (s.dev.cam c).skips.contains (port, vc) = false) ∧
    (∃ (s : State) (port : Nat) (vc : Nat) (c : Nat) (e : Nat) (f : CamFrame), s.dev.up = true ∧ s.dev.top.mode ≠ .dormant ∧ port <
    4 ∧ vc < 16 ∧ c < 4 ∧ (s.dev.cam c).frame = some f ∧ f.expOf port vc = some e ∧ e < f.exps.length) ∧
    (∃ (s : State) (port : Nat) (c : Nat) (e : Nat) (p : CsiPacket) (f : CamFrame), s.dev.up = true ∧ s.dev.top.mode ≠ .dormant ∧
    port < 4 ∧ c < 4 ∧ (s.dev.cam c).frame = some f ∧ f.port = port ∧ f.expOf port p.vc = some e ∧ e < f.exps.length ∧ p.hdrOk =
    true ∧ (s.dev.cam c).skips.contains (port, p.vc) = false ∧ (nth f.exps e {}).begun = true ∧ (nth f.exps e {}).ended = false ∧
    p.dtype ∈ [0x2B, 0x2C, 0x2D, 0x2E] ∧ 10 + 2 * (p.dtype - 0x2B) = f.bits ∧ (nth f.exps e {}).lines.length < f.height ∧ p.wc =
    f.width * f.bits / 8 ∧ p.crcOk = true ∧ (nth f.exps 0 {}).lines.length ≤ (nth f.exps e {}).lines.length + 65) ∧
    (∃ (s : State) (c : Nat) (m : HMap) (r : List HMap), s.dev.up = true ∧ c < 4 ∧ (s.dev.cam c).waiting = m :: r) :=
  ⟨⟨ofD (camDev .expose fun x => { x with active := some (camSet0 0), count := 2 ^ 32 - 1 }), 3, 15, 0, 3, camSet0 0,
    by decide +kernel, by decide +kernel, by decide +kernel, by decide +kernel, by decide +kernel, by decide +kernel,
    by decide +kernel, by decide +kernel, by decide +kernel, by decide +kernel, by decide +kernel, by decide +kernel⟩,
   ⟨ofD (camDev .expose fun x => { x with count := 7, stop := 3 }), 3, 15, 0, 3, by decide +kernel, by decide +kernel,
    by decide +kernel, by decide +kernel, by decide +kernel, by decide +kernel, by decide +kernel, by decide +kernel,
    by decide +kernel, by decide +kernel, by decide +kernel⟩,
   ⟨ofD (camDev .expose fun x => { x with staged := some (camSet0 9), count := 11 }), 3, 15, 0, 3, camSet0 9, by decide +kernel,
    by decide +kernel, by decide +kernel, by decide +kernel, by decide +kernel, by decide +kernel, by decide +kernel,
    by decide +kernel, by decide +kernel, by decide +kernel, by decide +kernel⟩,
   ⟨ofD (camDev .expose fun x => { x with frame := some (camFrame0 [{}, {}]) }), 3, 15, 3, 1, camFrame0 [{}, {}], by decide +kernel,
    by decide +kernel, by decide +kernel, by decide +kernel, by decide +kernel, by decide +kernel, by decide +kernel,
    by decide +kernel, by decide +kernel⟩,
   ⟨ofD (camDev .expose fun x =>
    { x with frame := some (camFrame0 [{ begun := true, ended := true }, { begun := true, lines := [[1, 2], [3]] }]) }), 3, 15, 3,
    1, camFrame0 [{ begun := true, ended := true }, { begun := true, lines := [[1, 2], [3]] }], by decide +kernel,
    by decide +kernel, by decide +kernel, by decide +kernel, by decide +kernel, by decide +kernel, by decide +kernel,
    by decide +kernel, by decide +kernel, by decide +kernel, by decide +kernel⟩,
   ⟨ofD (camDev .expose fun x => { x with frame := some (camFrame0 [{}, { begun := true }]) }), 3, 15, 3, 1, camFrame0 [{},
    { begun := true }], by decide +kernel, by decide +kernel, by decide +kernel, by decide +kernel, by decide +kernel,
    by decide +kernel, by decide +kernel, by decide +kernel⟩,
   ⟨ofD (camDev .expose fun x => { x with frame := some (camFrame0 [{ begun := true }, { begun := true, lines := [[1]] }]) }), 3, 3,
    1, { vc := 15, dtype := 0x2B, wc := 10, pixels := [5, 6] }, camFrame0 [{ begun := true }, { begun := true, lines := [[1]] }],
    by decide +kernel, by decide +kernel, by decide +kernel, by decide +kernel, by decide +kernel, by decide +kernel,
    by decide +kernel, by decide +kernel, by decide +kernel, by decide +kernel, by decide +kernel, by decide +kernel,
    by decide +kernel, by decide +kernel, by decide +kernel, by decide +kernel, by decide +kernel, by decide +kernel⟩,
   ⟨ofD (camDev .expose fun x => { x with waiting := [map0 true none []] }), 3, map0 true none [], [], by decide +kernel,
    by decide +kernel, by decide +kernel⟩⟩

theorem witness_AssimilationCompletes :
    (∃ (s : State) (dt : Nat) (m : HMap) (r : List HMap), s.dev.up = true ∧ (s.dev.after dt).onEdge = true ∧ s.dev.heatTurn 2 = true
    ∧ s.dev.heat.maps = m :: r) ∧
    (∃ (s : State) (dt : Nat) (row : Nat) (col : Nat) (rise : Nat) (m : HMap) (r : List HMap) (hs : HStroke) (g : HSeg) (d1 : Dev),
    s.dev.up = true ∧ (s.dev.after dt).onEdge = true ∧ s.dev.heatTurn 2 = true ∧ s.dev.heat.maps = m :: r ∧ m.counted = false ∧
    m.cells = [(row, col, rise)] ∧ m.sseq.bind s.dev.hstroke? = some hs ∧ s.dev.hostWr = false ∧ s.dev.tClose hs.layer = none ∧
    s.dev.ra.cur = m.sseq ∧ pastEnd (s.dev.planeRow (hs.layer % 2) (hs.ofs + row)) 8448 = false ∧ s.dev.planeRow (hs.layer % 2)
    (hs.ofs + row) % 16 = 0 ∧ col < 4096 ∧ (s.dev.after dt).readSeg rqHeat (hs.layer % 2) (hs.ofs + row) (col / 256) = (g, d1) ∧
    g.bad = false ∧ g.h.any (·.2) = false ∧ g.ltag = (hs.layer + 1) % 2 ^ 24 ∧ (g.tStrike = 0 ∨ gap (heatTime m.tf) g.tStrike = 0)) :=
  ⟨⟨ofD (onHeat (upIn .expose) fun h => { h with maps := [map0 false none [(0, 0, 1), (1, 1, 1)]] }), 0, map0 false none [(0, 0, 1),
    (1, 1, 1)], [], by decide +kernel, by decide +kernel, by decide +kernel, by decide +kernel⟩,
   ⟨ofD (heatDev), 0, 0, 0, 500, map0 false (some 0) [(0, 0, 500)], [], ⟨0, 0, 0, 0, 0, 64, 0, false⟩, ((((heatDev)).after
    0).readSeg rqHeat 0 0 0).1, ((((heatDev)).after 0).readSeg rqHeat 0 0 0).2, by decide +kernel, by decide +kernel,
    by decide +kernel, by decide +kernel, by decide +kernel, by decide +kernel, by decide +kernel, by decide +kernel,
    by decide +kernel, by decide +kernel, by decide +kernel, by decide +kernel, by decide +kernel, by decide +kernel,
    by decide +kernel, by decide +kernel, by decide +kernel, by decide +kernel⟩⟩

theorem witness_CameraControlCompletes_rest :
    (∃ (s : State) (c : Nat) (v : Nat) (tag : Nat), s.dev.hostOk = true ∧ c < 4 ∧ (s.dev.cam c).queue.length < 8 ∧ tag = (if bit
    (s.dev.rd (Reg.CAM_c_PQ_HI c)) 31
      then ((s.dev.cam c).count + bits (s.dev.cam c).inCfg 2 0) % 2 ^ 32 else v % 2 ^ 32) ∧ ((∀ l, (s.dev.cam c).lastTag = some l →
    0 < (tag + 2 ^ 32 - l) % 2 ^ 32 ∧ (tag + 2 ^ 32 - l) % 2 ^ 32 < 2 ^ 31))) ∧
    (∃ (s : State) (c : Nat), s.dev.hostOk = true ∧ c < 4 ∧ 8 ≤ (s.dev.cam c).queue.length ∧ bit (s.dev.rd (Reg.CAM_c_PQ_HI c)) 31 =
    false) ∧
    (∃ (s : State) (c : Nat) (dt : Nat) (addr : Nat) (tag : Nat) (q : List (Nat × Nat)), s.dev.up = true ∧ c < 4 ∧ (s.dev.cam
    c).queue = (addr, tag) :: q ∧ (s.dev.cam c).staged = none ∧ s.dev.hbmWaits = false ∧ ((s.dev.after dt).readSet c addr tag).1 =
    none) ∧
    (∃ (s : State) (c : Nat), s.dev.up = true ∧ c < 4 ∧ s.dev.get (Reg.CAM_c_TIMEOUT c) Fd.CAM_c_TIMEOUT_US ≠ 0 ∧ s.dev.expoOrHold =
    true ∧ s.dev.camRuns c = true) ∧
    (∃ (s : State) (c : Nat), s.dev.hostOk = true ∧ c < 4 ∧ s.dev.flag (Reg.CAM_c_CTL c) Fd.CAM_c_CTL_EN = true) ∧
    (∃ (s : State) (c : Nat), s.dev.hostOk = true ∧ c < 4 ∧ s.dev.camRuns c = false) ∧
    (∃ (s : State) (port : Nat), s.dev.up = true ∧ port < 4 ∧ (s.dev.cam port).plugged = false) ∧
    (∃ (s : State) (port : Nat), s.dev.up = true ∧ port < 4 ∧ (s.dev.cam port).plugged = true) :=
  ⟨⟨ofD (camDev .expose fun x => { x with lastTag := some 4, rej := true }), 3, 5, 5, by decide +kernel, by decide +kernel,
    by decide +kernel, by decide +kernel, by decide +kernel⟩,
   ⟨ofD (camDev .expose fun x => { x with queue := List.replicate 8 (0, 0) }), 3, by decide +kernel, by decide +kernel,
    by decide +kernel, by decide +kernel⟩,
   ⟨ofD (camDev .expose fun x => { x with queue := [(0, 3)] }), 3, 0, 0, 3, [], by decide +kernel, by decide +kernel,
    by decide +kernel, by decide +kernel, by decide +kernel, by decide +kernel⟩,
   ⟨ofD (regs (camDev .expose id) [(Reg.CAM_c_TIMEOUT 3, 10)]), 3, by decide +kernel, by decide +kernel, by decide +kernel,
    by decide +kernel, by decide +kernel⟩,
   ⟨ofD (camDev .expose fun x => { x with frame := some (camFrame0 []) }), 3, by decide +kernel, by decide +kernel, by decide +kernel⟩,
   ⟨ofD (camDev .expose fun x => { x with stop := 2, queue := [(0, 0)], active := some (camSet0 0) }), 3, by decide +kernel,
    by decide +kernel, by decide +kernel⟩,
   ⟨ofD (upIn .configure), 3, by decide +kernel, by decide +kernel, by decide +kernel⟩,
   ⟨ofD (camDev .expose fun x =>
    { x with plugged := true, queue := [(0, 0)], staged := some (camSet0 0), active := some (camSet0 0) }), 3, by decide +kernel,
    by decide +kernel, by decide +kernel⟩⟩

theorem witness_FabricLinkCommandsComplete :
    (∃ (s : State) (p : Nat), s.dev.up = true ∧ p < 4 ∧ (s.dev.port p).enNow = true ∧ (((s.dev.port p).st = .down ∨ (s.dev.port
    p).st = .disabled))) ∧
    (∃ (s : State) (p : Nat) (v : Nat), s.dev.hostOk = true ∧ p < 4 ∧ bit v 0 = false) ∧
    (∃ (s : State) (p : Nat) (v : Nat), s.dev.hostOk = true ∧ p < 4 ∧ bit v 1 = true) ∧
    (∃ (s : State) (p : Nat) (reason : Nat) (dt : Nat), s.dev.up = true ∧ p < 4 ∧ (s.dev.port p).st.live = true ∧ ((reason = 0 ∨
    (reason = 1 ∧ (s.dev.port p).noisy (s.dev.clk.up + dt) = true)))) ∧
    (∃ (s : State) (p : Nat), s.dev.up = true ∧ p < 4 ∧ (s.dev.port p).st.live = true) ∧
    (∃ (s : State) (p : Nat), s.dev.up = true ∧ p < 4 ∧ (s.dev.port p).st.live = true ∧ (s.dev.port p).replay ≠ []) ∧
    (∃ (s : State) (p : Nat) (w : Nat), s.dev.up = true ∧ p < 4 ∧ (s.dev.port p).st.live = true ∧ flitOk w 0x0F (2 ^ 16 - 2 ^ 10) =
    true) ∧
    (∃ (s : State) (p : Nat) (w : Nat), s.dev.up = true ∧ p < 4 ∧ (s.dev.port p).st.live = true ∧ flitOk w 0x0F (2 ^ 16 - 2 ^ 10) =
    false) ∧
    (∃ (s : State) (p : Nat) (w : Nat), s.dev.up = true ∧ p < 4 ∧ (s.dev.port p).st.live = true ∧ flitOk w 0x99 (2 ^ 16 - 2 ^ 9 + (2
    ^ 96 - 2 ^ 64)) = true) ∧
    (∃ (s : State), s.dev.up = true) ∧
    (∃ (s : State) (p : Nat) (v : Nat), s.dev.hostOk = true ∧ p < 4 ∧ bit v 0 = true ∧ (s.dev.port p).st = .up ∧ (s.dev.port p).eye
    = none) ∧
    (∃ (s : State) (p : Nat) (lane : Nat) (at0 : Nat), s.dev.up = true ∧ p < 4 ∧ (s.dev.port p).eye = some (lane, at0) ∧ lane < 2) :=
  ⟨⟨ofD (upIn .configure), 3, by decide +kernel, by decide +kernel, by decide +kernel, by decide +kernel⟩,
   ⟨ofD (upIn .configure), 3, 4, by decide +kernel, by decide +kernel, by decide +kernel⟩,
   ⟨ofD (upIn .configure), 3, 3, by decide +kernel, by decide +kernel, by decide +kernel⟩,
   ⟨ofD (leaf .configure id), 3, 0, 0, by decide +kernel, by decide +kernel, by decide +kernel, by decide +kernel⟩,
   ⟨ofD (leaf .configure id), 3, by decide +kernel, by decide +kernel, by decide +kernel⟩,
   ⟨ofD (leaf .configure fun x => { x with replay := [(4, (inFrame 0x22 0 []).frame)] }), 3, by decide +kernel, by decide +kernel,
    by decide +kernel, by decide +kernel⟩,
   ⟨ofD (leaf .configure fun x => { x with replay := [(4, (inFrame 0x22 0 []).frame), (5, (inFrame 0x22 0 []).frame)] }), 3, flitW
    (0x0F + 4 * 65536 + 9 * 2 ^ 32 + 8 * 2 ^ 64), by decide +kernel, by decide +kernel, by decide +kernel, by decide +kernel⟩,
   ⟨ofD (leaf .configure id), 3, 0x0F, by decide +kernel, by decide +kernel, by decide +kernel, by decide +kernel⟩,
   ⟨ofD (leaf .configure id), 3, flitW (0x99 + 7 * 65536), by decide +kernel, by decide +kernel, by decide +kernel, by decide +kernel⟩,
   ⟨ofD (leaf .configure fun x => { x with dlySeq := 65535 }), by decide +kernel⟩,
   ⟨ofD (leaf .configure id), 3, 0x3B, by decide +kernel, by decide +kernel, by decide +kernel, by decide +kernel, by decide +kernel⟩,
   ⟨ofD (leaf .configure fun x => { x with eye := some (1, 0) }), 3, 1, 0, by decide +kernel, by decide +kernel, by decide +kernel,
    by decide +kernel⟩⟩

theorem witness_FabricBringupCommandsComplete :
    (∃ (s : State) (p : Nat) (w : Nat), s.dev.up = true ∧ p < 4 ∧ flitOk w 0xC3 (2 ^ 96 - 2 ^ 15 + 0x0800) = true ∧ bits w 9 8 =
    stepSpeed (s.dev.port p).step ∧ bit w 10 = true ∧ (((s.dev.port p).step = 1 ∨ (s.dev.port p).step = 3 ∨ (s.dev.port p).step =
    4))) ∧
    (∃ (s : State) (p : Nat) (w : Nat) (serial : Nat), s.dev.up = true ∧ p < 4 ∧ (((s.dev.port p).step = 2 ∨ (s.dev.port p).step =
    5)) ∧ helloOk w = true ∧ serial = bits w 95 32) ∧
    (∃ (s : State) (p : Nat), s.dev.up = true ∧ p < 4 ∧ (s.dev.port p).step ≠ 0) ∧
    (∃ (s : State) (p : Nat) (w : Nat) (me : Nat), s.dev.up = true ∧ p < 4 ∧ (s.dev.port p).st.live = true ∧ enumOk w = true ∧ bit w
    28 = false ∧ s.dev.isRoot = false ∧ s.dev.idValid = false ∧ ((s.dev.gen = bits w 27 20 → s.dev.kry.rootSerial = bits w 95 32)) ∧
    offeredId (bits w 19 8) p = some me) ∧
    (∃ (s : State) (p : Nat) (w : Nat), s.dev.up = true ∧ p < 4 ∧ (s.dev.port p).st.live = true ∧ enumOk w = true ∧ bit w 28 = true
    ∧ s.dev.idValid = true ∧ s.dev.gen = bits w 27 20 ∧ s.dev.kry.rootSerial = bits w 95 32) ∧
    (∃ (s : State) (p : Nat) (w : Nat) (me : Nat), s.dev.up = true ∧ p < 4 ∧ (s.dev.port p).st.live = true ∧ enumOk w = true ∧ bit w
    28 = false ∧ s.dev.isRoot = false ∧ s.dev.idValid = true ∧ s.dev.gen = bits w 27 20 ∧ offeredId (bits w 19 8) p = some me ∧ me ≠
    s.dev.id) ∧
    (∃ (s : State) (dt : Nat), s.dev.up = true ∧ s.dev.isRoot = true ∧ s.dev.idValid = false ∧ (((s.dev.kry.ports.any
    (·.nbr.isSome)) = true ∨ s.dev.kry.dormantAt + 250000000 ≤ s.dev.clk.up + dt))) ∧
    (∃ (s : State) (v : Nat), s.dev.hostOk = true ∧ bit v 31 = true ∧ s.dev.isRoot = true ∧ ((s.dev.top.mode = .dormant ∨
    s.dev.top.mode = .configure)) ∧ s.dev.idValid = true) ∧
    (∃ (s : State) (v : Nat), s.dev.hostOk = true ∧ bit v 30 = true ∧ s.dev.isRoot = true ∧ ((s.dev.top.mode = .dormant ∨
    s.dev.top.mode = .configure))) ∧
    (∃ (s : State), s.dev.hostOk = true) :=
  ⟨⟨ofD (onPort (upIn .configure) 3 fun x => { x with st := .training, step := 1 }), 3, flitW (0xC3 + 1024 + 7 * 4096),
    by decide +kernel, by decide +kernel, by decide +kernel, by decide +kernel, by decide +kernel, by decide +kernel⟩,
   ⟨ofD (onPort (upIn .configure) 3 fun x => { x with st := .training, step := 2, speeds := 7 }), 3, flitW (0x3C + 1024 + 77 * 2 ^
    32), 77, by decide +kernel, by decide +kernel, by decide +kernel, by decide +kernel, by decide +kernel⟩,
   ⟨ofD (onPort (upIn .configure) 3 fun x => { x with st := .training, step := 2 }), 3, by decide +kernel, by decide +kernel,
    by decide +kernel⟩,
   ⟨ofD (leaf .configure id), 3, flitW (0x66 + 62 * 256 + 5 * 2 ^ 20 + 88 * 2 ^ 32), 63, by decide +kernel, by decide +kernel,
    by decide +kernel, by decide +kernel, by decide +kernel, by decide +kernel, by decide +kernel, by decide +kernel,
    by decide +kernel⟩,
   ⟨ofD (onKry (sets (leaf .configure id) [(Reg.KRY_ID, Fd.KRY_ID_VALID, 1), (Reg.KRY_ID, Fd.KRY_ID_GEN, 5), (Reg.KRY_ID,
    Fd.KRY_ID_ID, 63)]) fun k => { k with rootSerial := 88 }), 3, flitW (0x66 + 62 * 256 + 5 * 2 ^ 20 + 2 ^ 28 + 88 * 2 ^ 32),
    by decide +kernel, by decide +kernel, by decide +kernel, by decide +kernel, by decide +kernel, by decide +kernel,
    by decide +kernel, by decide +kernel⟩,
   ⟨ofD (onKry (sets (leaf .configure id) [(Reg.KRY_ID, Fd.KRY_ID_VALID, 1), (Reg.KRY_ID, Fd.KRY_ID_GEN, 5), (Reg.KRY_ID,
    Fd.KRY_ID_ID, 60)]) fun k => { k with rootSerial := 88 }), 3, flitW (0x66 + 62 * 256 + 5 * 2 ^ 20 + 88 * 2 ^ 32), 63,
    by decide +kernel, by decide +kernel, by decide +kernel, by decide +kernel, by decide +kernel, by decide +kernel,
    by decide +kernel, by decide +kernel, by decide +kernel, by decide +kernel⟩,
   ⟨ofD (onKry (onTop (upIn .dormant) fun t => { t with straps := 1, otpSerial := 6 }) fun k =>
    { k with ports := put 4 {} k.ports 1 fun x => { x with nbr := some (1, false, false) } }), 0, by decide +kernel,
    by decide +kernel, by decide +kernel, by decide +kernel⟩,
   ⟨ofD (sets (rootUp .configure) [(Reg.KRY_MAP_COUNT, Fd.KRY_MAP_COUNT_COUNT, 4096)]), 2 ^ 31 + 4096, by decide +kernel,
    by decide +kernel, by decide +kernel, by decide +kernel, by decide +kernel⟩,
   ⟨ofD (sets (rootUp .configure) [(Reg.KRY_ID, Fd.KRY_ID_GEN, 255)]), 2 ^ 30, by decide +kernel, by decide +kernel,
    by decide +kernel, by decide +kernel⟩,
   ⟨ofD (regs (upIn .configure) [(Reg.KRY_ROUTE_i 63, 7)]), by decide +kernel⟩⟩

theorem witness_FabricFrameCommandsComplete :
    (∃ (s : State) (i : Nat) (k : KIn), OldestIn s.dev 0x22 i k ∧ s.dev.isRoot = true ∧ k.frame.arg % 256 = s.dev.gen ∧
    k.frame.poison = false) ∧
    (∃ (s : State) (i : Nat) (k : KIn), OldestIn s.dev 0x22 i k ∧ ((s.dev.isRoot = false ∨ k.frame.arg % 256 ≠ s.dev.gen ∨
    k.frame.poison = true))) ∧
    (∃ (s : State) (i : Nat) (k : KIn) (x : Desc), OldestIn s.dev 0x20 i k ∧ x =
    { ring := 0, count := 0, body := k.frame.payload, origin := some (k.frame.src, k.frame.arg % 65536) }) ∧
    (∃ (s : State) (i : Nat) (k : KIn) (r : Relay), OldestIn s.dev 0x21 i k ∧ s.dev.host.relays.find? (fun r => r.num == k.frame.arg
    % 65536 && r.desc.target == k.frame.src) = some r ∧ entriesOf r.desc.op = 1) ∧
    (∃ (s : State) (i : Nat) (k : KIn) (r : Relay), OldestIn s.dev 0x21 i k ∧ s.dev.host.relays.find? (fun r => r.num == k.frame.arg
    % 65536 && r.desc.target == k.frame.src) = some r ∧ entriesOf r.desc.op = 2) ∧
    (∃ (s : State) (i : Nat) (k : KIn), OldestIn s.dev 0x21 i k ∧ s.dev.host.relays.find? (fun r => r.num == k.frame.arg % 65536 &&
    r.desc.target == k.frame.src) = none) ∧
    (∃ (s : State) (i : Nat) (k : KIn), OldestIn s.dev 0x30 i k) ∧
    (∃ (s : State) (i : Nat) (k : KIn), OldestIn s.dev 0x31 i k) ∧
    (∃ (s : State) (p : Nat) (flits : List (BitVec 128)) (f : KFrame), s.dev.up = true ∧ p < 4 ∧ (s.dev.port p).st.live = true ∧
    frameOf flits = some (f, ((s.dev.port p).fseqRx + 1) % 65536, false) ∧ f.formatOk = true ∧ f.hops ≤ 126 ∧ ((f.ptype = 0x22 ∨
    s.dev.confirmed = true))) ∧
    (∃ (s : State) (p : Nat) (flits : List (BitVec 128)), s.dev.up = true ∧ p < 4 ∧ (s.dev.port p).st.live = true ∧ frameOf flits =
    none) :=
  ⟨⟨ofD (withIn (rootUp .configure) (inFrame 0x22 1 (toLE 8 5 ++ toLE 2 4095 ++ List.replicate 6 0))), 0, inFrame 0x22 1 (toLE 8 5
    ++ toLE 2 4095 ++ List.replicate 6 0), by unfold OldestIn; decide +kernel, by decide +kernel, by decide +kernel,
    by decide +kernel⟩,
   ⟨ofD (withIn (rootUp .configure) (inFrame 0x22 2 [])), 0, inFrame 0x22 2 [], by unfold OldestIn; decide +kernel, by decide +kernel⟩,
   ⟨ofD (withIn (rootUp .configure) (inFrame 0x20 7 (padTo 64 (toLE 2 5)))), 0, inFrame 0x20 7 (padTo 64 (toLE 2 5)),
    { ring := 0, count := 0, body := padTo 64 (toLE 2 5), origin := some (7, 7) }, by unfold OldestIn; decide +kernel,
    by decide +kernel⟩,
   ⟨ofD (withIn (onHost (rootUp .configure) fun h => { h with relays := [relay0 5 none] }) (inFrame 0x21 5 (List.replicate 64 0))),
    0, inFrame 0x21 5 (List.replicate 64 0), relay0 5 none, by unfold OldestIn; decide +kernel, by decide +kernel, by decide +kernel⟩,
   ⟨ofD (withIn (onHost (rootUp .configure) fun h => { h with relays := [relay0 0x30 none] }) (inFrame 0x21 5 (List.replicate 64
    0))), 0, inFrame 0x21 5 (List.replicate 64 0), relay0 0x30 none, by unfold OldestIn; decide +kernel, by decide +kernel,
    by decide +kernel⟩,
   ⟨ofD (withIn (rootUp .configure) (inFrame 0x21 5 (List.replicate 64 0))), 0, inFrame 0x21 5 (List.replicate 64 0),
    by unfold OldestIn; decide +kernel, by decide +kernel⟩,
   ⟨ofD (withIn (regs (rootUp .configure) [(Reg.RING_n_CTL 2, 0x81)]) (inFrame 0x30 0 (List.replicate 64 0))), 0, inFrame 0x30 0
    (List.replicate 64 0), by unfold OldestIn; decide +kernel⟩,
   ⟨ofD (withIn (regs (rootUp .configure) [(Reg.RING_n_CTL 3, 0x81)]) (inFrame 0x31 0 (List.replicate 64 0))), 0, inFrame 0x31 0
    (List.replicate 64 0), by unfold OldestIn; decide +kernel⟩,
   ⟨ofD (sets (leaf .configure id) [(Reg.KRY_ID, Fd.KRY_ID_CONFIRMED, 1)]), 3, flitsOf
    { vl := 3, plen := 4, dst := 0, src := 7, ptype := 0x30, payload := List.replicate 64 0 } 0,
    { vl := 3, plen := 4, dst := 0, src := 7, ptype := 0x30, payload := List.replicate 64 0 }, by decide +kernel, by decide +kernel,
    by decide +kernel, by decide +kernel, by decide +kernel, by decide +kernel, by decide +kernel⟩,
   ⟨ofD (leaf .configure id), 3, [], by decide +kernel, by decide +kernel, by decide +kernel, by decide +kernel⟩⟩

theorem witness_TimeCommandsComplete :
    (∃ (s : State) (i : Nat) (k : KIn), OldestIn s.dev 0x02 i k ∧ s.dev.timeRef = false ∧ k.frame.poison = false ∧ fieldLE
    k.frame.payload 21 20 ∉ s.dev.tim.seqs) ∧
    (∃ (s : State) (i : Nat) (k : KIn), OldestIn s.dev 0x02 i k ∧ ((s.dev.timeRef = true ∨ k.frame.poison = true ∨ fieldLE
    k.frame.payload 21 20 ∈ s.dev.tim.seqs))) ∧
    (∃ (s : State), s.dev.up = true ∧ s.dev.isRoot = true ∧ s.dev.confirmed = true ∧ s.dev.flag Reg.TIME_CTL Fd.TIME_CTL_SYNC_EN =
    true) ∧
    (∃ (s : State) (q : Nat), s.dev.up = true ∧ s.dev.timeRef = false ∧ s.dev.tim.lastSeq = some q) ∧
    (∃ (s : State), s.dev.hostOk = true) ∧
    (∃ (s : State), s.dev.hostOk = true ∧ s.dev.timeRef = true) ∧
    (∃ (s : State), s.dev.hostOk = true ∧ s.dev.timeRef = true) ∧
    (∃ (s : State), s.dev.up = true ∧ s.dev.tim.slew ≠ 0) ∧
    (∃ (s : State) (v : Nat), s.dev.hostOk = true ∧ bit v 0 = true ∧ s.dev.timeRef = true ∧ s.dev.tim.holdover = false) ∧
    (∃ (s : State), s.dev.up = true ∧ s.dev.get Reg.TIME_SYNC Fd.TIME_SYNC_GM_TMO ≠ 0 ∧ s.dev.timeRef = true ∧ s.dev.tim.holdover =
    false) :=
  ⟨⟨ofD (withIn (onTim (leaf .configure id) fun t => { t with good := 15 }) (inFrame 0x02 0 (timeMsg 0 3 0))), 0, inFrame 0x02 0
    (timeMsg 0 3 0), by unfold OldestIn; decide +kernel, by decide +kernel, by decide +kernel, by decide +kernel⟩,
   ⟨ofD (withIn (rootUp .configure) (inFrame 0x02 0 (timeMsg 0 3 0))), 0, inFrame 0x02 0 (timeMsg 0 3 0),
    by unfold OldestIn; decide +kernel, by decide +kernel⟩,
   ⟨ofD (onTim (sets (rootUp .configure) [(Reg.KRY_ID, Fd.KRY_ID_CONFIRMED, 1), (Reg.TIME_CTL, Fd.TIME_CTL_SYNC_EN, 1)]) fun t =>
    { t with seqOut := 65535, sentAt := some 9 }), by decide +kernel, by decide +kernel, by decide +kernel, by decide +kernel⟩,
   ⟨ofD (onTim (leaf .configure id) fun t => { t with lastSeq := some 3, missed := 15, locked := true }), 3, by decide +kernel,
    by decide +kernel, by decide +kernel⟩,
   ⟨ofD (upIn .configure), by decide +kernel⟩,
   ⟨ofD (onTim (rootUp .configure) fun t => { t with holdover := true }), by decide +kernel, by decide +kernel⟩,
   ⟨ofD (rootUp .configure), by decide +kernel, by decide +kernel⟩,
   ⟨ofD (onTim (rootUp .configure) fun t => { t with slew := 5 }), by decide +kernel, by decide +kernel⟩,
   ⟨ofD (rootUp .configure), 3, by decide +kernel, by decide +kernel, by decide +kernel, by decide +kernel⟩,
   ⟨ofD (sets (rootUp .configure) [(Reg.TIME_SYNC, Fd.TIME_SYNC_GM_TMO, 1)]), by decide +kernel, by decide +kernel,
    by decide +kernel, by decide +kernel⟩⟩

theorem witness_EthernetCommandsComplete :
    (∃ (s : State) (n : Nat) (v : Nat), s.dev.hostOk = true ∧ n < 8 ∧ bit v 31 = true ∧ (s.dev.txSlot n).busy = false ∧ s.dev.flag
    Reg.TIME_ETH_CTL Fd.TIME_ETH_CTL_EN = true) ∧
    (∃ (s : State) (n : Nat), s.dev.up = true ∧ n < 8 ∧ (s.dev.txSlot n).busy = true ∧ ((∀ r < 8, (s.dev.txSlot r).busy = true →
    s.dev.launchAt n ≤ s.dev.launchAt r ∧
      (s.dev.launchAt r = s.dev.launchAt n → (s.dev.txSlot n).order ≤ (s.dev.txSlot r).order)))) ∧
    (∃ (s : State), s.dev.linkUp = true) ∧
    (∃ (s : State) (b : List Byte) (h : Nat) (x : Option Nat × Bool), ptpAt b = some (h, x) ∧ s.dev.up = true ∧ s.dev.flag
    Reg.TIME_ETH_CTL Fd.TIME_ETH_CTL_EN = true) ∧
    (∃ (s : State) (r : Nat), s.dev.hostOk = true ∧ r < 16) :=
  ⟨⟨ofD (sets (upIn .configure) [(Reg.TIME_ETH_CTL, Fd.TIME_ETH_CTL_EN, 1)]), 7, 2 ^ 31 + 64, by decide +kernel, by decide +kernel,
    by decide +kernel, by decide +kernel, by decide +kernel⟩,
   ⟨ofD (onTim (upIn .configure) fun t => { t with slots := put 8 {} t.slots 7 fun x => { x with busy := true } }), 7,
    by decide +kernel, by decide +kernel, by decide +kernel, by decide +kernel⟩,
   ⟨ofD (upIn .configure), by decide +kernel⟩,
   ⟨ofD (sets (upIn .configure) [(Reg.TIME_ETH_CTL, Fd.TIME_ETH_CTL_EN, 1)]), ptp0, 14, (none, false), by decide +kernel,
    by decide +kernel, by decide +kernel⟩,
   ⟨ofD (onTim (upIn .configure) fun t => { t with rx := List.replicate 16 (some ⟨[], 0⟩) }), 15, by decide +kernel,
    by decide +kernel⟩⟩

theorem witness_PanelAndTraceCommandsComplete :
    (∃ (s : State) (k : Nat), s.dev.up = true ∧ k < 8 ∧ bit s.dev.pnl.keys k = false) ∧
    (∃ (s : State) (k : Nat), s.dev.up = true ∧ k < 8 ∧ bit s.dev.pnl.keys k = true) ∧
    (∃ (s : State) (v : Nat), s.dev.linkUp = true ∧ bit v 0 = true ∧ s.dev.flag Reg.GLN_CTL Fd.GLN_CTL_EN = false) ∧
    (∃ (s : State) (v : Nat), s.dev.linkUp = true ∧ bit v 0 = false) ∧
    (∃ (s : State), s.dev.up = true ∧ s.dev.onEdge = true ∧ s.dev.gln.sampledAt ≠ some s.dev.top.tick) ∧
    (∃ (s : State) (v : Nat), s.dev.linkUp = true ∧ bit v 2 = true) ∧
    (∃ (s : State) (v : Nat), s.dev.linkUp = true ∧ bit v 1 = true) :=
  ⟨⟨ofD (onPnl (upIn .expose) fun p => { p with cfg := List.replicate 8 0x501 }), 7, by decide +kernel, by decide +kernel,
    by decide +kernel⟩,
   ⟨ofD (onPnl (upIn .expose) fun p => { p with keys := 255 }), 7, by decide +kernel, by decide +kernel, by decide +kernel⟩,
   ⟨ofD (bare .configure), 0x3F1, by decide +kernel, by decide +kernel, by decide +kernel⟩,
   ⟨ofD (sets (bare .configure) [(Reg.GLN_CTL, Fd.GLN_CTL_EN, 1)]), 0, by decide +kernel, by decide +kernel⟩,
   ⟨ofD (sets { upIn .configure with gln := { nextAt := 99 } } [(Reg.GLN_PERIOD, Fd.GLN_PERIOD_ARB, 1), (Reg.GLN_CTL, Fd.GLN_CTL_EN,
    1), (Reg.GLN_CTL, Fd.GLN_CTL_ARB_EN, 1)]), by decide +kernel, by decide +kernel, by decide +kernel⟩,
   ⟨ofD ({ bare .configure with gln := { pmc := List.replicate 8 (2 ^ 40 + 3) } }), 4, by decide +kernel, by decide +kernel⟩,
   ⟨ofD ({ bare .configure with gln := { pmc := List.replicate 8 (2 ^ 40 + 3) } }), 3, by decide +kernel, by decide +kernel⟩⟩

theorem witness_ArbitrationCommandsComplete :
    (∃ (s : State) (q : HReq), s.dev.up = true ∧ q.ok = true ∧ s.dev.hbmc.pend = [] ∧ s.dev.hbmc.remap = none ∧ s.dev.flag
    (Reg.ARB_a_CTL q.arb) Fd.ARB_a_CTL_FREEZE = false) ∧
    (∃ (s : State) (q : HReq), s.dev.up = true ∧ q.ok = true ∧ s.dev.hbmc.pend = [] ∧ ((s.dev.hbmc.remap.isSome = true ∨ s.dev.flag
    (Reg.ARB_a_CTL q.arb) Fd.ARB_a_CTL_FREEZE = true))) ∧
    (∃ (s : State) (a : Nat) (r : Nat) (lim : Nat) (p : Pend), s.dev.up = true ∧ a < 20 ∧ s.dev.hbmc.pend.find? (fun p => p.q.arb ==
    a && p.q.req == r && !p.promoted) = some p ∧ s.dev.ageLimit p.q.cls = some lim) ∧
    (∃ (s : State) (dt : Nat) (p : Pend), s.dev.up = true ∧ p.q.ok = true ∧ s.dev.hbmc.pend = [p] ∧ p.forgotten (s.dev.clk.up + dt)
    = false ∧ s.dev.hbmc.remap = none ∧ s.dev.flag (Reg.ARB_a_CTL p.q.arb) Fd.ARB_a_CTL_FREEZE = false) ∧
    (∃ (s : State), s.dev.hostOk = true) :=
  ⟨⟨ofD (upIn .configure), rd0, by decide +kernel, by decide +kernel, by decide +kernel, by decide +kernel, by decide +kernel⟩,
   ⟨ofD (onHbmc (upIn .configure) fun h => { h with remap := some (1, 0) }), rd0, by decide +kernel, by decide +kernel,
    by decide +kernel, by decide +kernel⟩,
   ⟨ofD (onHbmc (sets (upIn .configure) [(Reg.HBM_AGE_c 3, Fd.HBM_AGE_c_CC, 600)]) fun h =>
    { h with pend := [{ q := { rd0 with arb := 19, cls := 4 }, since := 0, last := 0 }] }), 19, 0, 600,
    { q := { rd0 with arb := 19, cls := 4 }, since := 0, last := 0 }, by decide +kernel, by decide +kernel, by decide +kernel,
    by decide +kernel⟩,
   ⟨ofD (onHbmc (upIn .configure) fun h => { h with pend := [{ q := rd0, since := 0, last := 0 }] }), 1,
    { q := rd0, since := 0, last := 0 }, by decide +kernel, by decide +kernel, by decide +kernel, by decide +kernel,
    by decide +kernel, by decide +kernel⟩,
   ⟨ofD (sets (upIn .configure) [(Reg.ARB_a_PRIO 19, Fd.ARB_a_PRIO_PRIO, 3)]), by decide +kernel⟩⟩

theorem witness_MemoryControlCommandsComplete :
    (∃ (s : State) (v : Nat), s.dev.hostOk = true ∧ bits v 1 0 ≠ s.dev.get Reg.HBM_CFG Fd.HBM_CFG_ORDER) ∧
    (∃ (s : State) (o : Nat) (at0 : Nat), s.dev.hbmc.remap = some (o, at0)) ∧
    (∃ (s : State) (p : Nat), p < 32 ∧ s.dev.flag Reg.HBM_STAT Fd.HBM_STAT_TRAINED = true) ∧
    (∃ (s : State), s.dev.up = true) ∧
    (∃ (s : State) (above : Bool) (temp : Nat), s.dev.up = true ∧ s.dev.flag Reg.HBM_STAT Fd.HBM_STAT_HOT ≠ above ∧ above = decide
    (85 < temp) ∧ temp < 256) ∧
    (∃ (s : State) (p : Pass) (k : Nat) (ofs : Nat) (a : Nat) (size : Nat), s.dev.up = true ∧ s.dev.top.mode ≠ .dormant ∧
    s.dev.hbmc.remap = none ∧ s.dev.hbmc.pass = some p ∧ p.region = some k ∧ ofs = (if k = p.k then p.ofs else 0) ∧ size = (nth
    p.regions k (0, 0)).2 ∧ a = (nth p.regions k (0, 0)).1 + ofs ∧ pastEnd a 64 = false ∧ ((∀ j < 4, (s.dev.hword (a / 16 +
    j)).written = true ∧ (s.dev.hword (a / 16 + j)).poison = false ∧
      cpcDecode (cpcSyndrome (s.dev.hword (a / 16 + j)).data (s.dev.hword (a / 16 + j)).chk) ≠ .uncorrectable))) :=
  ⟨⟨ofD (upIn .configure), 0x501, by decide +kernel, by decide +kernel⟩,
   ⟨ofD ({ onHbmc (upIn .configure) fun h => { h with remap := some (3, 0) } with hbm := [(5, cleanWord 9)] }), 3, 0,
    by decide +kernel⟩,
   ⟨ofD (sets (upIn .configure) [(Reg.HBM_STAT, Fd.HBM_STAT_TRAINED, 1)]), 31, by decide +kernel, by decide +kernel⟩,
   ⟨ofD (onHbmc (upIn .expose) fun h => { h with postponed := List.replicate 32 8 }), by decide +kernel⟩,
   ⟨ofD (upIn .configure), true, 86, by decide +kernel, by decide +kernel, by decide +kernel, by decide +kernel⟩,
   ⟨ofD (scrubDev fun _ => cleanWord 0), { regions := [(0, 128), (0, 0), (0, 0), (0, 0)], period := 1, at_ := 0 }, 0, 0, 0, 128,
    by decide +kernel, by decide +kernel, by decide +kernel, by decide +kernel, by decide +kernel, by decide +kernel,
    by decide +kernel, by decide +kernel, by decide +kernel, by decide +kernel⟩⟩

theorem witness_SafetyRequestsComplete :
    (∃ (s : State) (req : List Byte), SpiAccepts s.dev req ∧ byteAt req 0 = 1 ∧ byteAt req 1 = 0) ∧
    (∃ (s : State) (req : List Byte), SpiAccepts s.dev req ∧ byteAt req 0 = 2 ∧ byteAt req 1 = 0 ∧ fieldLE req 3 2 = 3) ∧
    (∃ (s : State) (req : List Byte), SpiAccepts s.dev req ∧ byteAt req 0 = 3 ∧ 1 ≤ byteAt req 1 ∧ byteAt req 1 ≤ 8 ∧
      ∀ i < byteAt req 1, (safMask (fieldLE req 3 2 + i)).isSome = true ∧ safRange (fieldLE req 3 2 + i) (reqWord req i) = true) ∧
    (∃ (s : State) (req : List Byte), SpiAccepts s.dev req ∧ byteAt req 0 = 4 ∧ byteAt req 1 = 0 ∧ fieldLE req 3 2 < 16384 ∧
      ∀ i < 16, fieldLE req (8 + 2 * i + 1) (8 + 2 * i) < 4096) ∧
    (∃ (s : State) (req : List Byte), SpiAccepts s.dev req ∧ byteAt req 0 = 7 ∧ byteAt req 1 = 0) ∧
    (∃ (s : State) (req : List Byte), SpiAccepts s.dev req ∧ byteAt req 0 = 8 ∧ byteAt req 1 = 0 ∧ s.dev.saf.slots.length < 64) ∧
    (∃ (s : State) (req : List Byte), SpiAccepts s.dev req ∧ byteAt req 0 = 9 ∧ byteAt req 1 = 0 ∧ s.dev.saf.key = none) := by
  have acc := fun cmd flags addr pay => request_accepted safUp cmd flags addr pay rfl rfl rfl rfl
  refine ⟨⟨ofD safUp, request safUp 1 0 0 [], acc .., request_cmd .., request_flags ..⟩,
    ⟨ofD safUp, request safUp 2 0 3 [], acc .., request_cmd .., request_flags .., request_field safUp 2 0 3 [] (by decide)⟩,
    ⟨ofD safUp, request safUp 3 2 4 (toLE 4 5000 ++ toLE 4 7), acc .., request_cmd .., by rw [request_flags]; decide,
      by rw [request_flags]; decide, fun i hi => ?_⟩,
    ⟨ofD safUp, request safUp 4 0 16383 (toLE 2 4095 ++ List.replicate 30 1), acc .., request_cmd .., request_flags .., ?_, fun i hi => ?_⟩,
    ⟨ofD safUp, request safUp 7 0 0 [], acc .., request_cmd .., request_flags ..⟩,
    ⟨ofD safUp, request safUp 8 0 0 [], acc .., request_cmd .., request_flags .., by decide⟩,
    ⟨ofD safUp, request safUp 9 0 0 [], acc .., request_cmd .., request_flags .., rfl⟩⟩
  · rw [request_flags] at hi
    have : i < 2 := hi
    unfold reqWord
    rw [request_field safUp 3 2 4 _ (by decide), request_field safUp 3 2 4 _ (by omega)]
    revert i
    decide +kernel
  · rw [request_field safUp 4 0 16383 _ (by decide)]; decide +kernel
  · rw [request_field safUp 4 0 16383 _ (by omega)]
    revert i
    decide +kernel

/-- The conditions of SAF_COMMIT, for a request that names this CRC. -/
theorem commit_conditions (v : Nat) (h : v < 2 ^ 32) : ∃ (s : State) (req : List Byte), s = ofD safCommitDev ∧ SpiAccepts s.dev req ∧
    byteAt req 0 = 5 ∧ byteAt req 1 = 0 ∧ s.dev.saf.safe = true ∧ reqWord req 0 = v ∧ s.dev.saf.slots = [] ∧
    bits (s.dev.stagedAt Reg.SAF_WDOG) 15 0 + 400 ≤ bits (s.dev.stagedAt Reg.SAF_MINPER) 19 0 :=
  ⟨ofD safCommitDev, request safCommitDev 5 0 0 (toLE 4 v), rfl, request_accepted _ _ _ _ _ rfl rfl rfl rfl, request_cmd ..,
    request_flags .., rfl, request_word _ _ _ _ _ h, rfl, by decide +kernel⟩

theorem witness_SafetyCommitBringsTheImageIntoForce : ∃ (s : State) (req : List Byte) (commEn : Bool), SpiAccepts s.dev req ∧
    byteAt req 0 = 5 ∧ byteAt req 1 = 0 ∧ s.dev.saf.safe = true ∧ reqWord req 0 = imageCrc s.dev.stagedAt ∧
    (s.dev.saf.slots = [] ∨ imageCrc s.dev.stagedAt ∈ s.dev.saf.slots ∨ commEn = true) ∧
    bits (s.dev.stagedAt Reg.SAF_WDOG) 15 0 + 400 ≤ bits (s.dev.stagedAt Reg.SAF_MINPER) 19 0 := by
  obtain ⟨s, req, hs, ha, h0, h1, h2, hw, he, hm⟩ := commit_conditions (imageCrc (ofD safCommitDev).dev.stagedAt) (imageCrc_lt _)
  exact ⟨s, req, false, ha, h0, h1, h2, by rw [hw, hs], .inl he, hm⟩

theorem witness_SafetyCommitAndReleaseComplete :
    (∃ (s : State) (req : List Byte) (c : Bool), SpiAccepts s.dev req ∧ byteAt req 0 = 5 ∧ byteAt req 1 = 0 ∧ s.dev.saf.safe = true ∧
      reqWord req 0 = imageCrc s.dev.stagedAt ∧
      (s.dev.saf.slots = [] ∨ s.dev.saf.slots.contains (imageCrc s.dev.stagedAt) = true ∨ c = true) ∧
      bits (s.dev.stagedAt Reg.SAF_WDOG) 15 0 + 400 ≤ bits (s.dev.stagedAt Reg.SAF_MINPER) 19 0) ∧
    (∃ (s : State) (req : List Byte), SpiAccepts s.dev req ∧ byteAt req 0 = 6 ∧ byteAt req 1 = 0 ∧ s.dev.releasable = true ∧
      s.dev.saf.safe = true) := by
  constructor
  · obtain ⟨s, req, hs, ha, h0, h1, h2, hw, he, hm⟩ := commit_conditions (imageCrc (ofD safCommitDev).dev.stagedAt) (imageCrc_lt _)
    exact ⟨s, req, false, ha, h0, h1, h2, by rw [hw, hs], .inl he, hm⟩
  · exact ⟨ofD (onSaf safUp fun s => { s with cause := 3, inputs := 31 }), request safUp 6 0 0 [],
      request_accepted (onSaf safUp fun s => { s with cause := 3, inputs := 31 }) 6 0 0 [] rfl rfl rfl rfl, request_cmd .., request_flags ..,
      by decide +kernel, rfl⟩

theorem witness_SafetyReleaseEndsSafeState :
    (∃ (s : State) (req : List Byte), SpiAccepts s.dev req ∧ byteAt req 0 = 6 ∧ byteAt req 1 = 0 ∧ s.dev.saf.safe = true ∧
      bit s.dev.saf.inputs 0 = true ∧ bit s.dev.saf.inputs 1 = true ∧ s.dev.saf.discOk = true ∧
      (∀ k < 3, bit s.dev.saf.inputs (2 + k) = true ∨ bit (s.dev.rd Reg.SAF_CFG) k = false) ∧
      (∀ x ∈ s.dev.saf.tmax, x < toS 16 (s.dev.get Reg.SAF_TEMP Fd.SAF_TEMP_HARD)) ∧ s.dev.saf.clkBad = false ∧
      (bit s.dev.saf.cause 13 = true → s.dev.saf.hbSince = true) ∧
      (bit s.dev.saf.cause 16 = true → s.dev.saf.commitSince = true)) ∧
    (∃ (s : State) (req : List Byte), SpiAccepts s.dev req ∧ byteAt req 0 = 6 ∧ byteAt req 1 = 0 ∧ s.dev.releasable = false) :=
  ⟨⟨ofD (onSaf safUp fun s => { s with cause := 0x1FFFF, inputs := 31, discOk := true, hbSince := true, commitSince := true, tmax := [5] }),
      request safUp 6 0 0 [], request_accepted (onSaf safUp fun s => { s with cause := 0x1FFFF, inputs := 31, discOk := true, hbSince := true, commitSince := true, tmax := [5] }) 6 0 0 [] rfl rfl rfl rfl, request_cmd .., request_flags .., rfl, rfl, rfl, rfl,
      by decide +kernel, by decide +kernel, by decide +kernel, by decide +kernel, by decide +kernel⟩,
    ⟨ofD (onSaf safUp fun s => { s with cause := 2, inputs := 1 }), request safUp 6 0 0 [],
      request_accepted (onSaf safUp fun s => { s with cause := 2, inputs := 1 }) 6 0 0 [] rfl rfl rfl rfl, request_cmd .., request_flags ..,
      by decide +kernel⟩⟩

theorem witness_SafetyEventsAssertSafeState_crc : ∃ (s : State) (u : Option (Nat × Nat)), s.dev.saf.on = true ∧ s.dev.saf.cfgCrc ≠ 0 ∧
    imageCrc (s.dev.upset u).rd ≠ s.dev.saf.cfgCrc :=
  ⟨ofD (withCfg safUp (2 ^ 32)), none, rfl, by decide +kernel, by
    rw [show (ofD (withCfg safUp (2 ^ 32))).dev.saf.cfgCrc = 2 ^ 32 from withCfg_crc _ _]; exact Nat.ne_of_lt (imageCrc_lt _)⟩

theorem witness_SafetyInputsComplete_crc : ∃ (s : State) (u : Option (Nat × Nat)), s.dev.saf.on = true ∧
    imageCrc (s.dev.upset u).rd = s.dev.saf.cfgCrc := by
  refine ⟨ofD (withCfg safUp (imageCrc safUp.rd)), none, rfl, ?_⟩
  show imageCrc ((withCfg safUp (imageCrc safUp.rd)).upset none).rd = (withCfg safUp (imageCrc safUp.rd)).saf.cfgCrc
  rw [withCfg_crc, withCfg_upset_rd]

/-- A geometry record that starts at line 0 or later fits the first stripe of a portion that has parsed none. -/
theorem fits_first (d : Dev) (n : Nat) (lo hi : Int) (h : (d.portion n).lastStart = none) : GeoFits d n (stripe0 0) lo hi := by
  unfold GeoFits
  refine ⟨fun l e => by rw [h] at e; exact absurd e (by simp), fun e => absurd e (by decide), fun _ => by decide⟩

/-- An answer is ok x where it compares so. -/
theorem eq_ok {x : Geo} {e : Except Nat Geo} (h : (match e with | .ok y => decide (y = x) | .error _ => false) = true) : e = .ok x := by
  cases e with
  | ok y => exact congrArg _ (of_decide_eq_true h)
  | error _ => exact absurd h (by simp)

/-- A device whose portion n parses this record next. -/
def geoDev (n : Nat) (r : List (BitVec 64)) : Dev :=
  onPortion (onSheaf (upIn .expose) fun s => { s with layers := [{ layer0 with libLimit := 2 }] }) n fun p =>
    { p with segs := [seg r], ord := .body, layers := [hdr0], stripes := [stripe0 0] }

theorem witness_SheafGeometryRecordsComplete_points :
    (∃ (s : State) (n i : Nat) (g : Segment) (r : List (BitVec 64)) (st : Stripe) (x : Geo), (s.dev.portion n).ord = .body ∧
      (s.dev.portion n).stripes.getLast? = some st ∧ geoFields r = .ok x ∧
      GeoFits s.dev n st (firstLine (ptsBox (vertices x)).y0 (ws (rw st.hdr 1) 1)) (lastLine (ptsBox (vertices x)).y1 (ws (rw st.hdr 1) 1)) ∧
      NextRecord s.dev n 0x31 i g r) ∧
    (∃ (s : State) (n i : Nat) (g : Segment) (r : List (BitVec 64)) (st : Stripe) (x : Geo), (s.dev.portion n).ord = .body ∧
      (s.dev.portion n).stripes.getLast? = some st ∧ geoFields r = .ok x ∧
      GeoFits s.dev n st (firstLine (ptsBox (vertices x)).y0 (ws (rw st.hdr 1) 1)) (lastLine (ptsBox (vertices x)).y1 (ws (rw st.hdr 1) 1)) ∧
      NextRecord s.dev n 0x30 i g r) :=
  ⟨⟨ofD (geoDev 0 (rcd 0x31 0 [0, 64 + 64 * 2 ^ 32])), 0, 0, seg (rcd 0x31 0 [0, 64 + 64 * 2 ^ 32]), rcd 0x31 0 [0, 64 + 64 * 2 ^ 32],
      stripe0 0, .rect 0 0 0 64 64, rfl, rfl, eq_ok (by decide +kernel), fits_first _ _ _ _ rfl, by unfold NextRecord; decide +kernel⟩,
    ⟨ofD (geoDev 0 (rcd 0x30 0 [64 * 2 ^ 32, 64 * 2 ^ 32, 32 * 2 ^ 32])), 0, 0, seg (rcd 0x30 0 [64 * 2 ^ 32, 64 * 2 ^ 32, 32 * 2 ^ 32]),
      rcd 0x30 0 [64 * 2 ^ 32, 64 * 2 ^ 32, 32 * 2 ^ 32], stripe0 0, .trap 0 0 64 0 64 0 32, rfl, rfl, eq_ok (by decide +kernel), fits_first _ _ _ _ rfl,
      by unfold NextRecord; decide +kernel⟩⟩

theorem witness_SheafGeometryRecordsComplete_cells :
    (∃ (s : State) (n dt i cell o nx ny addr m : Nat) (dx dy px py : Int) (b : Box) (g : Segment) (r : List (BitVec 64)) (st : Stripe)
      (l : Layer), (s.dev.portion n).ord = .body ∧ (s.dev.portion n).stripes.getLast? = some st ∧
      geoFields r = .ok (.aref cell o dx dy nx ny px py) ∧ s.dev.layer? st.lseq = some l ∧ s.dev.hbmWaits = false ∧
      (((s.dev.after dt).begun n i).cell none (rqThr (2 * n)) l.libBase l.libLimit cell).1 = .found b addr m ∧
      GeoFits s.dev n st (firstLine (arefBox b o dx dy nx ny px py).y0 (ws (rw st.hdr 1) 1))
        (lastLine (arefBox b o dx dy nx ny px py).y1 (ws (rw st.hdr 1) 1)) ∧ NextRecord s.dev n 0x32 i g r) ∧
    (∃ (s : State) (n dt i cell o nx ny addr m : Nat) (dx dy px py : Int) (b : Box) (g : Segment) (r : List (BitVec 64)) (st : Stripe)
      (l : Layer), (s.dev.portion n).ord = .body ∧ (s.dev.portion n).stripes.getLast? = some st ∧
      geoFields r = .ok (.aref cell o dx dy nx ny px py) ∧ s.dev.layer? st.lseq = some l ∧ s.dev.hbmWaits = false ∧
      (((s.dev.after dt).begun n i).cell none (rqThr (2 * n)) l.libBase l.libLimit cell).1 = .found b addr m ∧
      GeoFits s.dev n st (firstLine (arefBox b o dx dy nx ny px py).y0 (ws (rw st.hdr 1) 1))
        (lastLine (arefBox b o dx dy nx ny px py).y1 (ws (rw st.hdr 1) 1)) ∧ NextRecord s.dev n 0x33 i g r) :=
  ⟨⟨ofD (withLib (geoDev 0 (rcd 0x32 (2 ^ 32) [64 * 2 ^ 32]))), 0, 0, 0, 1, 0, 1, 1, 64, 3, 0, 64, 0, 0, ⟨0, 0, 64, 64⟩,
      seg (rcd 0x32 (2 ^ 32) [64 * 2 ^ 32]), rcd 0x32 (2 ^ 32) [64 * 2 ^ 32], stripe0 0, { layer0 with libLimit := 2 }, rfl, rfl, eq_ok (by decide +kernel), rfl, rfl,
      by decide +kernel, fits_first _ _ _ _ rfl, by unfold NextRecord; decide +kernel⟩,
    ⟨ofD (withLib (geoDev 0 (rcd 0x33 (2 ^ 32) [64 * 2 ^ 32, 2 + 65536, 100]))), 0, 0, 0, 1, 0, 2, 1, 64, 3, 0, 64, 100, 0, ⟨0, 0, 64, 64⟩,
      seg (rcd 0x33 (2 ^ 32) [64 * 2 ^ 32, 2 + 65536, 100]), rcd 0x33 (2 ^ 32) [64 * 2 ^ 32, 2 + 65536, 100], stripe0 0,
      { layer0 with libLimit := 2 }, rfl, rfl, eq_ok (by decide +kernel), rfl, rfl, by decide +kernel, fits_first _ _ _ _ rfl, by unfold NextRecord; decide +kernel⟩⟩

theorem witness_SheafGeometryRecordsComplete_raw : ∃ (s : State) (n i line lines cnt pix : Nat) (g : Segment) (r : List (BitVec 64))
    (st : Stripe), NextRecord s.dev n 0x38 i g r ∧ (s.dev.portion n).ord = .body ∧ (s.dev.portion n).stripes.getLast? = some st ∧
    wf (rw r 0) 31 24 = 0 ∧ wf (rw r 1) 63 39 = 0 ∧ wf (rw r 1) 31 25 = 0 ∧ wf (rw r 0) 63 32 = line ∧ wf (rw r 1) 38 32 = lines ∧
    wf (rw r 1) 24 16 = cnt ∧ wf (rw r 1) 15 0 = pix ∧ 1 ≤ lines ∧ lines ≤ 64 ∧ 1 ≤ cnt ∧ cnt ≤ 256 ∧ pix % 16 = 0 ∧ 4096 * n ≤ pix ∧
    pix + 16 * cnt ≤ 4096 * (n + 1) ∧ line + lines ≤ stripeN st.hdr ∧ GeoFits s.dev n st line ((line + lines : Nat) - 1) :=
  ⟨ofD (geoDev 7 rawRec), 7, 0, 127, 1, 1, 32752, seg rawRec, rawRec, stripe0 0, by unfold NextRecord; decide +kernel, rfl, rfl,
    by decide +kernel, by decide +kernel, by decide +kernel, by decide +kernel, by decide +kernel, by decide +kernel, by decide +kernel,
    by decide, by decide, by decide, by decide, by decide, by decide, by decide, by decide +kernel, fits_first _ _ _ _ rfl⟩

/-- A calibration copy whose CRC is the one the ID header names. -/
theorem witness_TileBringupCommandsComplete_copy : ∃ (s : State) (k : Nat) (b : List Byte), s.dev.up = true ∧ k < 16 ∧
    (s.dev.tile k).copy = true ∧ s.dev.hbmWaits = false ∧ b.length = 491520 ∧ crc32 b = (s.dev.tile k).calCrc := by
  have h : ∀ b : List Byte, let d := onTile (upIn .configure) 15 fun t => { t with present := true, copy := true, calCrc := crc32 b }
      d.up = true ∧ (d.tile 15).copy = true ∧ (d.tile 15).calCrc = crc32 b ∧ d.hbmWaits = false :=
    fun b => ⟨rfl, rfl, rfl, (by decide +kernel : (upIn .configure).hbmWaits = false)⟩
  obtain ⟨h1, h2, h3, h4⟩ := h (List.replicate 491520 0)
  exact ⟨ofD _, 15, List.replicate 491520 0, h1, by decide, h2, h4, List.length_replicate, h3.symm⟩

/-- The metrology partition accepts a parameter image with its CRC. -/
theorem image_accepted (b : List Byte) (m : Met) (hb : b.length = 652) (h : fieldLE b 3 0 = 0x4D455450 ∧ m.param.ver < fieldLE b 5 4 ∧
    fieldLE b 7 6 = 0 ∧ fieldLE b 649 648 ≤ fieldLE b 651 650 ∧ (∀ c < 128, fieldLE b (136 + 4 * c + 3) (136 + 4 * c) < 2 ^ 24) ∧ m.ec < 4095) :
    (m.checkImage (b ++ toLE 4 (crc32 b))).1 = 0 := by
  have f : ∀ hi lo, hi < 652 → fieldLE (b ++ toLE 4 (crc32 b)) hi lo = fieldLE b hi lo := fun hi lo e => Laws.fieldLE_append (by omega)
  have fc : fieldLE (b ++ toLE 4 (crc32 b)) 655 652 = crc32 b := by
    unfold fieldLE
    rw [List.drop_append_of_le_length (by omega), List.drop_of_length_le (by omega), List.nil_append,
      List.take_of_length_le (by simp), Laws.ofLE_toLE, Nat.mod_eq_of_lt (Laws.crc32_lt _)]
  have ft : (b ++ toLE 4 (crc32 b)).take 652 = b := by
    rw [List.take_append_of_le_length (by omega), List.take_of_length_le (by omega)]
  obtain ⟨h0, h1, h2, h3, h4, h5⟩ := h
  have hl : (b ++ toLE 4 (crc32 b)).length = 656 := by simp [hb]
  unfold Met.checkImage
  simp only [hl, f _ _ (show 3 < 652 by decide), f _ _ (show 5 < 652 by decide), f _ _ (show 7 < 652 by decide),
    f _ _ (show 649 < 652 by decide), f _ _ (show 651 < 652 by decide), fc, ft, h0, h2]
  rw [if_neg (by omega), if_neg (by simp), if_neg (by omega), if_neg]
  simp only [ne_eq, not_true_eq_false, false_or, not_or, Nat.not_lt, List.any_map, List.any_eq_true, List.mem_range, Function.comp_apply,
    decide_eq_true_eq, not_exists, not_and]
  exact ⟨h3, fun c hc => by rw [f _ _ (by omega)]; exact Nat.not_le.2 (h4 c hc)⟩

theorem witness_MetrologyDeviceCommandsComplete_image : ∃ (s : State) (img : List Byte) (p : MetParam), s.dev.met.on = true ∧
    s.dev.met.sealOpen = true ∧ s.dev.met.checkImage img = (0, p) :=
  ⟨ofD (onMet (upIn .expose) fun m => { m with on := true, sealOpen := true }), _, _, rfl, rfl,
    Prod.ext (image_accepted (toLE 4 0x4D455450 ++ toLE 2 1 ++ List.replicate 646 0) _ (by decide +kernel) (by decide +kernel)) rfl⟩

/-- The value of a key that a list holds, where the list holds one value only. -/
theorem getKey_same {α : Type} {k : Nat} {w : α} {l : List (Nat × α)} (h : ∀ e ∈ l, e.2 = w) (hk : k ∈ l.map (·.1)) : getKey k l = some w := by
  induction l with
  | nil => simp at hk
  | cons a r ih =>
    unfold getKey
    split
    · rw [h a (by simp)]
    · next hne =>
      refine ih (fun e he => h e (by simp [he])) ?_
      rcases List.mem_cons.1 hk with e | e
      · exact absurd e hne
      · exact e

/-- The first n words of HBM3E, written with zeros. -/
def zeros (n : Nat) : List (Nat × HWord) := (List.range n).map fun i => (i, cleanWord 0)

theorem hword_zeros {d : Dev} {n wi : Nat} (h : d.hbm = zeros n) (hw : wi < n) : d.hword wi = cleanWord 0 := by
  unfold Dev.hword
  rw [h, getKey_same (w := cleanWord 0) (by simp [zeros]) (by simpa [zeros] using hw)]
  rfl

theorem touchRow_hbm (d : Dev) (wi : Nat) (b : Bool) : (d.touchRow wi b).hbm = d.hbm := by
  unfold Dev.touchRow Dev.pmc
  dsimp only
  repeat' split
  all_goals rfl

theorem zero_clean : (cleanWord 0).written = true ∧ (cleanWord 0).poison = false ∧
    cpcDecode (cpcSyndrome 0 (cleanWord 0).chk) = .clean ∧ (cleanWord 0).data = 0 := by decide +kernel

theorem readWords_zeros {n : Nat} (l : List Nat) (d : Dev) (h : d.hbm = zeros n) (hl : ∀ wi ∈ l, wi < n) :
    ∃ d1, d.readWords l = ((List.replicate (16 * l.length) 0, false), d1) ∧ d1.hbm = zeros n := by
  induction l generalizing d with
  | nil => exact ⟨d, rfl, h⟩
  | cons a r ih =>
    have hr : d.readWord a = ((0, false), d.touchRow a false) := by
      unfold Dev.readWord
      rw [hword_zeros h (hl a (by simp))]
      simp only [zero_clean.1, zero_clean.2.1, zero_clean.2.2.1, zero_clean.2.2.2, Bool.not_true, Bool.false_eq_true, if_false]
    obtain ⟨d1, e, h1⟩ := ih (d.touchRow a false) (by rw [touchRow_hbm, h]) fun wi hw => hl wi (by simp [hw])
    refine ⟨d1, ?_, h1⟩
    unfold Dev.readWords
    simp only [hr, e]
    rw [show toLE 16 0 = List.replicate 16 0 from rfl, List.replicate_append_replicate, List.length_cons, Nat.mul_add, Nat.add_comm]
    rfl

theorem hbmRead_zeros {n : Nat} (d : Dev) (rq : Rq) (a len : Nat) (h : d.hbm = zeros n) (hu : pastEnd a len = false)
    (hw : 0 < len → (a + len - 1) / 16 < n) : ∃ d1, d.hbmRead rq a len = ((List.replicate len 0, false), d1) ∧ d1.hbm = zeros n := by
  have hi : inRange a len = len := by
    unfold pastEnd at hu
    simp only [Bool.or_eq_false_iff, decide_eq_false_iff_not, Nat.not_lt] at hu
    unfold inRange
    omega
  have ho : ∀ d : Dev, d.oorPast rq false a len = d := fun d => by
    unfold Dev.oorPast
    simp only [hi, Nat.sub_self]
    rfl
  have hr : ∃ d1, d.readRange rq a len = ((List.replicate len 0, false), d1) ∧ d1.hbm = zeros n := by
    unfold Dev.readRange
    split
    · next e => exact ⟨d, by rw [e]; rfl, h⟩
    · next e =>
      have hp : (d.pmc 7 (some rq.cls) 5 (granules a len)).hbm = zeros n := by
        rw [← h]; unfold Dev.pmc; dsimp only; repeat' split
        all_goals rfl
      obtain ⟨d1, e1, h1⟩ := readWords_zeros ((List.range ((a + len - 1) / 16 - a / 16 + 1)).map (· + a / 16)) _ hp (by
        intro wi hm
        obtain ⟨i, hi, rfl⟩ := List.mem_map.1 hm
        have := List.mem_range.1 hi
        have := hw (by omega)
        omega)
      refine ⟨d1, ?_, h1⟩
      simp only [e1]
      rw [List.drop_replicate, List.take_replicate, List.length_map, List.length_range, Nat.min_eq_left (by omega)]
  obtain ⟨d1, e1, h1⟩ := hr
  refine ⟨d1, ?_, h1⟩
  unfold Dev.hbmRead
  simp only [hi, e1, ho, padTo, List.replicate_append_replicate, List.take_replicate, Nat.lt_irrefl, decide_false, Bool.or_false]
  rw [Nat.min_eq_left (by omega)]

theorem fieldLE_zeros (n hi lo : Nat) : fieldLE (List.replicate n 0) hi lo = 0 := by
  have h : ∀ m, ofLE (List.replicate m 0) = 0 := fun m => by
    induction m with
    | zero => rfl
    | succ m ih => rw [List.replicate_succ, ofLE, ih, Nat.mul_zero]; rfl
  unfold fieldLE
  rw [List.drop_replicate, List.take_replicate, h]

/-- A parameter set loads where its record, tables, grid and dead pixels are read without poison. -/
theorem readSet_some {d d1 d2 d3 d4 : Dev} {c addr tag : Nat} {b t g l : List Byte} (h1 : d.hbmRead (rqCam c) addr 64 = ((b, false), d1))
    (hb : setBad b = false) (h2 : d1.hbmRead (rqCam c) (bits (setWord b 0) 34 0) 0xA000 = ((t, false), d2))
    (h3 : d2.hbmRead (rqCam c) (bits (setWord b 0) 34 0 + 0xA000) 8712 = ((g, false), d3))
    (h4 : d3.hbmRead (rqCam c) (bits (setWord b 0) 34 0 + 0xD000) (4 * bits (setWord b 0) 63 48) = ((l, false), d4)) :
    d.readSet c addr tag = (some (setOf tag b t g l), d4) := by
  unfold Dev.readSet
  simp only [h1, hb, h2, h3, h4, Bool.or_false, Bool.false_eq_true, if_false]

/-- A parameter set of zeros, with its tables, loads. -/
theorem readSet_zeros (d : Dev) (c tag : Nat) (h : d.hbm = zeros 8448) : ∃ y, (d.readSet c 0x20000 tag).1 = some y := by
  obtain ⟨d1, e1, h1⟩ := hbmRead_zeros d (rqCam c) 0x20000 64 h (by decide +kernel) fun _ => by decide
  obtain ⟨d2, e2, h2⟩ := hbmRead_zeros d1 (rqCam c) 0 0xA000 h1 (by decide +kernel) fun _ => by decide
  obtain ⟨d3, e3, h3⟩ := hbmRead_zeros d2 (rqCam c) 0xA000 8712 h2 (by decide +kernel) fun _ => by decide
  obtain ⟨d4, e4, _⟩ := hbmRead_zeros d3 (rqCam c) 0xD000 0 h3 (by decide +kernel) fun e => absurd e (by decide)
  have hw : setWord (List.replicate 64 0) 0 = 0 := fieldLE_zeros ..
  have h34 : bits (setWord (List.replicate 64 0) 0) 34 0 = 0 := by rw [hw]; rfl
  have h63 : 4 * bits (setWord (List.replicate 64 0) 0) 63 48 = 0 := by rw [hw]; rfl
  exact ⟨_, congrArg Prod.fst (readSet_some (d4 := d4) e1 (by decide +kernel) (by rw [h34]; exact e2) (by rw [h34, Nat.zero_add]; exact e3)
    (by rw [h34, h63, Nat.zero_add]; exact e4))⟩

theorem witness_CameraControlCompletes_set : ∃ (s : State) (c dt addr tag : Nat) (q : List (Nat × Nat)) (y : CamSet), s.dev.up = true ∧
    c < 4 ∧ (s.dev.cam c).queue = (addr, tag) :: q ∧ (s.dev.cam c).staged = none ∧ s.dev.hbmWaits = false ∧ ((s.dev.after dt).readSet c addr tag).1 = some y := by
  have h : ∀ z, (({ onCam (upIn .expose) 3 (fun x => { x with queue := [(0x20000, 3)] }) with hbm := z } : Dev).after 0).hbm = z := fun _ => rfl
  obtain ⟨y, hy⟩ := readSet_zeros _ 3 3 (h (zeros 8448))
  exact ⟨ofD { onCam (upIn .expose) 3 (fun x => { x with queue := [(0x20000, 3)] }) with hbm := zeros 8448 }, 3, 0, 0x20000, 3, [], y,
    rfl, by decide, rfl, rfl, rfl, hy⟩

/-- A SESSION_AUTH without its code. -/
def authHead : List Byte := toLE 2 2 ++ List.replicate 10 0 ++ [0xFF, 0x7F, 0, 0] ++ List.replicate 16 0

/-- A SESSION_AUTH with this code. -/
def authWith (mac : List Byte) : Desc := { ring := 0, count := 0, body := authHead ++ mac }

theorem authWith_fields (mac : List Byte) (h : mac.length = 32) : (authWith mac).op = 2 ∧ (authWith mac).arg 13 12 = 0x7FFF ∧
    ((authWith mac).body.drop 16).take 16 = List.replicate 16 0 ∧ ((authWith mac).body.drop 32).take 32 = mac := by
  have hl : authHead.length = 32 := by decide
  have f : ∀ hi lo, hi < 32 → fieldLE (authHead ++ mac) hi lo = fieldLE authHead hi lo := fun hi lo e => Laws.fieldLE_append (by omega)
  refine ⟨(f 1 0 (by decide)).trans (by decide +kernel), (f 13 12 (by decide)).trans (by decide +kernel), ?_, ?_⟩
  · show ((authHead ++ mac).drop 16).take 16 = _
    rw [List.drop_append_of_le_length (by omega), List.take_append_of_le_length (by rw [List.length_drop]; omega)]
    decide +kernel
  · show ((authHead ++ mac).drop 32).take 32 = mac
    rw [List.drop_append_of_le_length (by omega), List.drop_of_length_le (by omega), List.nil_append, List.take_of_length_le (by omega)]

theorem witness_RingZeroCommandsComplete_auth : ∃ (s : State) (x : Desc) (k u : Nat), s.dev.up = true ∧ s.dev.front0 = some x ∧
    x.op = 0x0002 ∧ s.dev.host.chal = some (k, u) ∧ s.dev.host.chalOrigin = x.origin.map Prod.fst ∧ s.dev.host.session = none ∧
    sessionMac s.dev.top.otpKey k ((x.body.drop 16).take 16) (x.arg 13 12) = (x.body.drop 32).take 32 := by
  have h : ∀ mac : List Byte, let d := queued (onHost (bare .dormant) fun h => { h with chal := some (0, 0) }) (authWith mac)
      d.up = true ∧ d.front0 = some (authWith mac) ∧ d.host.chal = some (0, 0) ∧ d.host.chalOrigin = (authWith mac).origin.map Prod.fst ∧
      d.host.session = none ∧ d.top.otpKey = (bare .dormant).top.otpKey := fun mac => ⟨rfl, rfl, rfl, rfl, rfl, rfl⟩
  have hm := Laws.hmacSha256_length (bare .dormant).top.otpKey
    (toLE 32 (Config.challenge 0).toNat ++ padTo 16 (List.replicate 16 0) ++ toLE 2 0x7FFF)
  obtain ⟨h1, h2, h3, h4, h5, h6⟩ := h (sessionMac (bare .dormant).top.otpKey 0 (List.replicate 16 0) 0x7FFF)
  obtain ⟨f1, f2, f3, f4⟩ := authWith_fields (sessionMac (bare .dormant).top.otpKey 0 (List.replicate 16 0) 0x7FFF) hm
  exact ⟨ofD _, authWith _, 0, 0, h1, h2, f1, h3, h4, h5, by
    rw [f2, f3, f4]; exact congrArg (sessionMac · 0 (List.replicate 16 0) 0x7FFF) h6⟩

/-! ### Values that meet the premises of the invariants -/

/-- A device in Safe with its safety partition powered and SAFE_STATE asserted, and a doorbell waiting. -/
def safeRing : State := { dev := upIn .safe, pending := [.doorbell 0 4 1 0] }

theorem witness_EveryStepKeepsCoherence : ∃ s t : State, step s = .next t ∧ Coherent s.dev :=
  ⟨safeRing, _, rfl, ⟨by decide +kernel, fun _ h => nomatch h⟩, ⟨by decide +kernel, fun _ h => nomatch h⟩,
    by unfold safOk; decide +kernel⟩

theorem witness_OnlyReleaseEndsSafeState : ∃ s t : State, step s = .next t ∧ (∀ req dt, s.pending.head? ≠ some (.release req dt)) ∧
    s.dev.saf.safe = true :=
  ⟨safeRing, _, rfl, fun _ _ h => Instr.noConfusion (Option.some.inj h), by decide +kernel⟩

theorem witness_OtpNeverChanges : ∃ s t : State, step s = .next t := ⟨safeRing, _, rfl⟩

theorem witness_EveryCommandKeepsItsFrame : ∃ (i : Instr) (s t : State), exec i s = .next t :=
  ⟨.doorbell 0 4 1 0, ofD (upIn .expose), _, rfl⟩

theorem witness_ModeChangesAtEdgesAndResetsOnly : ∃ (i : Instr) (s t : State), exec i s = .next t ∧ (∀ ups, i ≠ .tickEdge ups) ∧
    (∀ a len v dt, i ≠ .registerWrite a len v dt) ∧ (∀ dt, i ≠ .mainRailFail dt) ∧ (∀ dt, i ≠ .deviceReset dt) ∧
    (∀ v bist dt, i ≠ .topReset v bist dt) ∧ (∀ straps bist dt, i ≠ .mainPorRelease straps bist dt) ∧
    (∀ straps bist dt, i ≠ .sysRstNRise straps bist dt) :=
  ⟨.doorbell 0 4 1 0, ofD (upIn .expose), _, rfl, nofun, nofun, nofun, nofun, nofun, nofun, nofun⟩

theorem witness_CommissioningChangesBySpiOnly : ∃ (i : Instr) (s t : State), exec i s = .next t ∧ (∀ req dt, i ≠ .heartbeat req dt) ∧
    (∀ req dt, i ≠ .safRead req dt) ∧ (∀ req dt, i ≠ .safWrite req dt) ∧ (∀ req dt, i ≠ .ceilWrite req dt) ∧
    (∀ req c dt, i ≠ .safCommit req c dt) ∧ (∀ req dt, i ≠ .release req dt) ∧ (∀ req dt, i ≠ .trip req dt) ∧
    (∀ req c dt, i ≠ .lock req c dt) ∧ (∀ req c dt, i ≠ .keySet req c dt) ∧ (∀ req dt, i ≠ .safSpiBadTransaction req dt) :=
  ⟨.safCrcCheck none 0, ofD (upIn .expose), _, rfl, nofun, nofun, nofun, nofun, nofun, nofun, nofun, nofun, nofun, nofun⟩

theorem witness_StrikingChangesAtEdgesOnly : ∃ (i : Instr) (s t : State), exec i s = .next t ∧ (∀ ups, i ≠ .tickEdge ups) ∧
    (∀ a len v dt, i ≠ .registerWrite a len v dt) ∧ (∀ dt, i ≠ .mainRailFail dt) ∧ (∀ dt, i ≠ .deviceReset dt) ∧
    (∀ v bist dt, i ≠ .topReset v bist dt) ∧ (∀ dt, i ≠ .strikeOkRise dt) ∧ (∀ dt, i ≠ .retreatReqFall dt) :=
  ⟨.doorbell 0 4 1 0, ofD (upIn .expose), _, rfl, nofun, nofun, nofun, nofun, nofun, nofun, nofun⟩

theorem witness_TopResetNeedsSessionAndKey :
    (∃ (s : State) (v : Nat), s.dev.hostOk = true ∧ bits v 31 16 = 0x5A17 ∧ bit v 0 = true) ∧
    (∃ (s : State) (v : Nat), s.dev.hostOk = false ∨ bits v 31 16 ≠ 0x5A17 ∨ bit v 0 = false) :=
  ⟨⟨ofD (upIn .configure), 0x5A170001, by decide +kernel, by decide +kernel, by decide +kernel⟩,
   ⟨ofD (upIn .configure), 0x5A180001, by decide +kernel⟩⟩

theorem witness_DeviceResetsComplete_rest :
    (∃ s : State, s.dev.top.railsGood = false ∧ s.dev.top.sysRst = true) ∧ (∃ s : State, s.dev.top.railsGood = false ∧ s.dev.top.sysRst = false) ∧
    (∃ s : State, s.dev.top.sysRst = false ∧ s.dev.top.railsGood = true ∧ s.dev.top.phase = .held) ∧ (∃ s : State, s.dev.top.phase ≠ .held) :=
  ⟨⟨ofD (onTop {} fun t => { t with sysRst := true }), rfl, rfl⟩, ⟨ofD {}, rfl, rfl⟩,
   ⟨ofD (onTop {} fun t => { t with railsGood := true }), rfl, rfl, rfl⟩, ⟨ofD (bare .dormant), by decide⟩⟩

end Sys2Proof.Tests
end

section
/-!
PROOFS. Resets and start-up (chapter 02): what the passing of time, a device reset and a start-up leave of the device, and
the write of TOP_RESET.
-/
namespace Sys2Proof.Proofs
open Sys2Proof Sys2Proof.Machine Sys2Proof.Laws

/-! ### The passing of core cycles -/

/-- The passing of core cycles changes no part but the clock and the performance counters. -/
theorem frame_after (d : Dev) (n : Nat) : Frame 32772 d (d.after n) :=
  (keeps_Dev_after (allows_frame 32772 d) (inv_frameScope 32772 d)).frame

@[simp] theorem after_top (d : Dev) (n : Nat) : (d.after n).top = d.top := (frame_after d n).top.resolve_left (by decide)

@[simp] theorem after_host (d : Dev) (n : Nat) : (d.after n).host = d.host := (frame_after d n).host.resolve_left (by decide)

/-- Whether a write under a session has effect depends on the link and the session alone, which time leaves. -/
@[simp] theorem hostOk_after (d : Dev) (n : Nat) : (d.after n).hostOk = d.hostOk := by
  simp only [Dev.hostOk, Dev.linkUp, Dev.up, Dev.hasSession, after_top, after_host]

/-! ### The device reset (R72, R74) -/

section
variable (d : Dev) (b : Nat)

@[simp] theorem deviceReset_mode : (d.deviceReset b).top.mode = .dormant := rfl

@[simp] theorem deviceReset_tick : (d.deviceReset b).top.tick = 0 := rfl

@[simp] theorem deviceReset_session : (d.deviceReset b).host.session = none := rfl

/-- A device reset adds its own bit to TOP_RESET_CAUSE, and INTERRUPTED where a layer was open (R74, R613). -/
theorem rd_deviceReset_cause : (d.deviceReset b).rd Reg.TOP_RESET_CAUSE =
    (d.rd Reg.TOP_RESET_CAUSE ||| 2 ^ b ||| b2n (d.openSlots != 0)) % 2 ^ 32 :=
  rd_wr_self (d.metMainReset.otherParts stickyReg) _ _

theorem bit_deviceReset_cause (hb : b < 32) : bit ((d.deviceReset b).rd Reg.TOP_RESET_CAUSE) b = true := by
  rw [rd_deviceReset_cause, bit, Nat.testBit_mod_two_pow]
  simp [hb]

end

/-! ### The start-up (R65 to R69) -/

section
variable (d : Dev) (straps : Nat) (bist : Option (Nat × Nat))

/-- Of the top level a start-up changes the phase and the sampled straps only. The lemmas of the writes
are rewritten one by one: compared as a whole, the two sides send the kernel into a deep recursion. -/
@[simp] theorem startUp_top : (d.startUp straps bist).top = { d.top with phase := .starting, straps := straps % 32 } := by
  unfold Dev.startUp
  rw [set_top, set_top, set_top, wr_top, wr_top, wr_top, wr_top]

@[simp] theorem startUp_host : (d.startUp straps bist).host = d.host := by
  unfold Dev.startUp
  rw [set_host, set_host, set_host, wr_host, wr_host, wr_host, wr_host]

/-- A start-up writes no register that its list does not name. -/
theorem rd_startUp_other {a : Nat}
    (ha : a ∉ [Reg.TOP_STRAP, Reg.TOP_BIST, Reg.TOP_SERIAL_LO, Reg.TOP_SERIAL_HI, Reg.KRY_ID, Reg.HBM_STAT]) :
    (d.startUp straps bist).rd a = d.rd a := by
  simp only [List.mem_cons, List.not_mem_nil, or_false, not_or] at ha
  obtain ⟨hstrap, hbist, hlo, hhi, hid, hstat⟩ := ha
  unfold Dev.startUp
  rw [rd_set_other _ _ _ hstat, rd_set_other _ _ _ hstat, rd_set_other _ _ _ hid, rd_wr_other _ _ hhi,
    rd_wr_other _ _ hlo, rd_wr_other _ _ hbist, rd_wr_other _ _ hstrap]
  exact rd_congr rfl a

end

/-! ### TOP_RESET (R75) -/

/-- What a write of TOP_RESET needs to start a device reset (R75). -/
def TopResetTakes (d : Dev) (v : Nat) : Prop := d.hostOk = true ∧ bits v 31 16 = 0x5A17 ∧ bit v 0 = true

theorem topReset_of_takes {d : Dev} {v : Nat} (bist : Option (Nat × Nat)) (h : TopResetTakes d v) :
    d.topReset v bist = (d.deviceReset 3).startUp d.top.straps bist := if_pos h

theorem topReset_of_not_takes {d : Dev} {v : Nat} (bist : Option (Nat × Nat)) (h : ¬ TopResetTakes d v) :
    d.topReset v bist = d := if_neg h

/-- The passing of time does not decide whether a write of TOP_RESET has effect. -/
theorem topResetTakes_after {d : Dev} {v n : Nat} : TopResetTakes (d.after n) v ↔ TopResetTakes d v := by
  unfold TopResetTakes
  rw [hostOk_after]

/-- TOP_RESET completes with the effect of the write at its instant. -/
theorem exec_topReset (v : Nat) (bist : Option (Nat × Nat)) (dt : Nat) (s : State) :
    exec (.topReset v bist dt) s = .next { s with dev := (s.dev.after dt).topReset v bist } := rfl

/-- Settles O8: the two branches of the write of TOP_RESET, through what a device reset and a start-up leave. -/
theorem topResetNeedsSessionAndKey : Obligations.TopResetNeedsSessionAndKey := by
  unfold Obligations.TopResetNeedsSessionAndKey
  intro s v dt bist
  constructor
  · intro hok hkey hdev
    have takes : TopResetTakes (s.dev.after dt) v := topResetTakes_after.mpr ⟨hok, hkey, hdev⟩
    have cause : bit (((s.dev.after dt).topReset v bist).rd Reg.TOP_RESET_CAUSE) 3 = true := by
      rw [topReset_of_takes bist takes, rd_startUp_other _ _ _ (by decide)]
      exact bit_deviceReset_cause _ _ (by decide)
    refine ⟨_, exec_topReset v bist dt s, ?_, ?_, ?_, ?_, ?_, cause⟩ <;> simp [topReset_of_takes bist takes]
  · intro hrefused
    have refused : ¬ TopResetTakes (s.dev.after dt) v := by
      rw [topResetTakes_after]
      rintro ⟨hok, hkey, hdev⟩
      simp [hok, hkey, hdev] at hrefused
    exact ⟨_, exec_topReset v bist dt s, topReset_of_not_takes bist refused⟩

end Sys2Proof.Proofs
end

section
/-!
PROOFS. Channel programs (chapter 13): what logging an event and writing a completion leave, the stop of a channel, the
instruction that a channel executes, and LINK.
-/
namespace Sys2Proof.Proofs
open Sys2Proof Sys2Proof.Machine Sys2Proof.Laws

/-! ### The log of events -/

/-- A trace record changes the registers, the trace port and what has been sent. -/
theorem frame_trace (d : Dev) (g : GRec) : Frame 16809985 d (d.trace g) :=
  (keeps_Dev_trace (allows_frame 16809985 d) (inv_frameScope 16809985 d)).frame

@[simp] theorem trace_log (d : Dev) (g : GRec) : (d.trace g).log = d.log := (frame_trace d g).log.resolve_left (by decide)

/-- An entry of a device-written ring changes the registers, the host interface, the trace port, the fabric links with
their frames, and what has been sent. -/
theorem frame_putEntry (d : Dev) (n op status : Nat) (mk : Nat → List Byte) : Frame 21528593 d (d.putEntry n op status mk) :=
  (keeps_Dev_putEntry (allows_frame 21528593 d) (inv_frameScope 21528593 d)).frame

@[simp] theorem putEntry_log (d : Dev) (n op status : Nat) (mk : Nat → List Byte) : (d.putEntry n op status mk).log = d.log :=
  (frame_putEntry d n op status mk).log.resolve_left (by decide)

/-- Event 0x1006 may go before, on top of what was logged (R376). -/
theorem log_suffix_flushLost (d : Dev) : d.log <:+ d.flushLost.log := by
  unfold Dev.flushLost
  extract_lets lost st e6 d'
  split
  · exact List.suffix_cons e6 d.log
  · exact List.suffix_rfl

/-- The entry of an event loses nothing logged: with space or without, only event 0x1006 joins the log. -/
theorem log_suffix_putEvent (d : Dev) (e : Event) : d.log <:+ (d.putEvent e).log := by
  unfold Dev.putEvent
  extract_lets d'
  split
  · rw [putEntry_log]; exact log_suffix_flushLost d
  · exact log_suffix_flushLost d

/-- An event enters the log on top of what stood there. -/
theorem log_suffix_eventAt (d : Dev) (st : Stamp) (code : Nat) (det : List Byte) :
    (⟨code, padTo 12 det, st⟩ :: d.log) <:+ (d.eventAt st code det).log := by
  unfold Dev.eventAt
  extract_lets e d1 d2
  have traced : d2.log = e :: d.log := by
    unfold d2
    split
    · exact trace_log d1 _
    · rfl
  exact traced ▸ log_suffix_putEvent d2 e

theorem logged_event (d : Dev) (code : Nat) (det : List Byte) : Logged d (d.event code det) code det := by
  obtain ⟨pre, hpre⟩ := log_suffix_eventAt (d.countSlot (code / 4096)) (d.stampOf (code / 4096)) code det
  exact ⟨pre, d.log, _, hpre.symm, List.suffix_rfl⟩

/-! ### The channels -/

@[simp] theorem after_eng (d : Dev) (n : Nat) : (d.after n).eng = d.eng := (frame_after d n).eng.resolve_left (by decide)

/-- An event changes no part but those of `logging`. -/
theorem frame_event (d : Dev) (code : Nat) (det : List Byte) : Frame 55083033 d (d.event code det) :=
  (keeps_Dev_event (allows_frame 55083033 d) (inv_frameScope 55083033 d)).frame

@[simp] theorem event_eng (d : Dev) (code : Nat) (det : List Byte) : (d.event code det).eng = d.eng :=
  (frame_event d code det).eng.resolve_left (by decide)

/-- The completion of a CHANNEL_START changes no part of the engine and logs no event. -/
theorem frame_chanDone (d : Dev) (c : Nat) : Frame 17201397785 d (d.chanDone c) :=
  (keeps_Dev_chanDone (allows_frame 17201397785 d) (inv_frameScope 17201397785 d)).frame

@[simp] theorem chanDone_eng (d : Dev) (c : Nat) : (d.chanDone c).eng = d.eng := (frame_chanDone d c).eng.resolve_left (by decide)

@[simp] theorem chanDone_log (d : Dev) (c : Nat) : (d.chanDone c).log = d.log := (frame_chanDone d c).log.resolve_left (by decide)

/-- The fetch of an instruction word changes no part but those of `logging`, HBM3E and its controller. -/
theorem frame_fetchInstr (d : Dev) (c word : Nat) : Frame 55410713 d (d.fetchInstr c word).2 :=
  (inv_snd (keeps_Dev_fetchInstr (allows_frame 55410713 d) (inv_frameScope 55410713 d))).frame

@[simp] theorem fetchInstr_eng (d : Dev) (c word : Nat) : (d.fetchInstr c word).2.eng = d.eng :=
  (frame_fetchInstr d c word).eng.resolve_left (by decide)

/-- The channels are part of the engine. -/
theorem chan_congr {d e : Dev} (h : d.eng = e.eng) (c : Nat) : d.chan c = e.chan c := by unfold Dev.chan; rw [h]

theorem chan_setChan_self (d : Dev) {c : Nat} (f : Chan → Chan) (hc : c < 32) : (d.setChan c f).chan c = f (d.chan c) := by
  rw [chan_setChan, if_pos ⟨rfl, hc⟩]

/-! ### Stops (R432) -/

/-- What a stop makes of a channel: its state and reason, and no WAIT; the rest is for RESTART. -/
theorem chan_stopChan_self (d : Dev) {c : Nat} (reason : Nat) (hc : c < 32) :
    (d.stopChan c reason).chan c = { d.chan c with st := .stop, reason, wait := none } := by
  unfold Dev.stopChan
  extract_lets d1 d2
  calc (d2.chanDone c).chan c
    _ = d2.chan c := chan_congr (chanDone_eng d2 c) c
    _ = d1.chan c := chan_congr (event_eng d1 _ _) c
    _ = _ := chan_setChan_self d _ hc

/-- Event 0x2A01 tells the channel, the reason and the program counter of a stop. -/
theorem logged_stopChan (d : Dev) {c : Nat} (reason : Nat) (hc : c < 32) :
    Logged d (d.stopChan c reason) 0x2A01 (toLE 1 c ++ toLE 1 reason ++ toLE 8 (d.chan c).pc) := by
  unfold Dev.stopChan
  extract_lets d1 d2
  have samePc : (d1.chan c).pc = (d.chan c).pc := by rw [chan_setChan_self d _ hc]
  unfold Logged
  rw [chanDone_log, ← samePc]
  exact logged_event d1 0x2A01 _

theorem stops_stopChan (d : Dev) {c : Nat} (reason : Nat) (hc : c < 32) : Stops d (d.stopChan c reason) c reason := by
  refine ⟨?_, ?_, ?_, logged_stopChan d reason hc⟩ <;> rw [chan_stopChan_self d reason hc]

/-! ### The instruction at the program counter (R409, R413) -/

section
variable {d d1 : Dev} {c op word w : Nat}

theorem lt_of_executes (h : Executes d c op word w d1) : c < 32 := by
  obtain ⟨_, hc, _⟩ := h
  exact hc

/-- The fetch of the word leaves every channel. -/
theorem chan_of_executes (h : Executes d c op word w d1) (k : Nat) : d1.chan k = d.chan k := by
  obtain ⟨_, _, _, _, _, hfetch, _⟩ := h
  refine chan_congr ?_ k
  rw [← fetchInstr_eng d c word, hfetch]

theorem running_of_executes (h : Executes d c op word w d1) : (d.chan c).st = .run := by
  obtain ⟨_, _, hrun, _⟩ := h
  exact hrun

/-- A channel that executes an instruction carries it out: it need not wait, and the word has a valid encoding. -/
theorem instr_of_executes (h : Executes d c op word w d1) (f : Dev → Nat → Dev) : d.instr c op word f = f d1 w := by
  obtain ⟨hup, hc, hrun, hhost, hmap, hfetch, hvalid, hop⟩ := h
  have noRemap : (d.flag Reg.HBM_STAT Fd.HBM_STAT_REMAP && ((d.chan c).hbm || touchesHbm word)) = false := by
    cases hflag : d.flag Reg.HBM_STAT Fd.HBM_STAT_REMAP with
    | false => rfl
    | true => obtain ⟨hspace, htouch⟩ := hmap hflag; rw [hspace, htouch]; rfl
  have hostServes : (!(d.chan c).hbm && !d.hostReads) = false := by
    cases hspace : (d.chan c).hbm with
    | true => rfl
    | false => rw [hhost hspace]; rfl
  unfold Dev.instr
  rw [noRemap, hostServes, hfetch]
  simp [hup, Nat.not_le.mpr hc, hrun, hvalid, hop]

end

/-! ### LINK (R419, R423) -/

/-- LINK completes with the effect of the instruction at its instant. -/
theorem exec_link (c word dt : Nat) (s : State) :
    exec (.link c word dt) s = .next { s with dev := chLink c word dt s.dev } := rfl

section
variable {d d1 : Dev} {c word dt w : Nat}

theorem chLink_of_aligned (h : Executes (d.after dt) c 7 word w d1) (ha : bits w 127 64 % 16 = 0) :
    chLink c word dt d = d1.setChan c fun x => { x with pc := bits w 127 64, hbm := bit w 4, count := x.count + 1 } :=
  (instr_of_executes h _).trans (if_neg (not_not_intro ha))

theorem chLink_of_misaligned (h : Executes (d.after dt) c 7 word w d1) (ha : bits w 127 64 % 16 ≠ 0) :
    chLink c word dt d = d1.stopChan c 3 :=
  (instr_of_executes h _).trans (if_pos ha)

end

/-- Settles O47: the channel that the two forms of LINK leave, by the alignment of ADDR. -/
theorem linkSetsTheProgramCounter : Obligations.LinkSetsTheProgramCounter := by
  unfold Obligations.LinkSetsTheProgramCounter
  intro s c word dt w d1 h
  have hc : c < 32 := lt_of_executes h
  have fetched : d1.chan c = s.dev.chan c := (chan_of_executes h c).trans (chan_congr (after_eng s.dev dt) c)
  have running : (s.dev.chan c).st = .run := chan_congr (after_eng s.dev dt) c ▸ running_of_executes h
  constructor
  · intro aligned
    have moved : (chLink c word dt s.dev).chan c =
        { s.dev.chan c with pc := bits w 127 64, hbm := bit w 4, count := (s.dev.chan c).count + 1 } := by
      rw [chLink_of_aligned h aligned, chan_setChan_self d1 _ hc, fetched]
    refine ⟨_, exec_link c word dt s, ?_⟩
    simp [moved, running]
  · intro misaligned
    refine ⟨_, exec_link c word dt s, ?_⟩
    simp only [chLink_of_misaligned h misaligned]
    refine ⟨stops_stopChan d1 3 hc, ?_, ?_⟩ <;> rw [chan_stopChan_self d1 3 hc, fetched]

end Sys2Proof.Proofs
end

section
/-!
PROOFS. The assertion of SAFE_STATE (chapter 18): what it latches in the safety partition and leaves of the clock, and the
heartbeat timeout.
-/
namespace Sys2Proof.Proofs
open Sys2Proof Sys2Proof.Machine Sys2Proof.Laws

/-! ### What follows an assertion leaves the safety partition -/

@[simp] theorem event_saf (d : Dev) (code : Nat) (det : List Byte) : (d.event code det).saf = d.saf :=
  (frame_event d code det).saf.resolve_left (by decide)

/-- An interrupt message changes the host interface and what has been sent. -/
theorem frame_msix (d : Dev) (v : Nat) : Frame 16777232 d (d.msix v) :=
  (keeps_Dev_msix (allows_frame 16777232 d) (inv_frameScope 16777232 d)).frame

@[simp] theorem msix_saf (d : Dev) (v : Nat) : (d.msix v).saf = d.saf := (frame_msix d v).saf.resolve_left (by decide)

/-- A cut changes no part but those of `logging`, the run-ahead and the heat model (R187, R571). -/
theorem frame_cutStrikes (d : Dev) (ofs : Nat) : Frame 55084185 d (d.cutStrikes ofs) :=
  (keeps_Dev_cutStrikes (allows_frame 55084185 d) (inv_frameScope 55084185 d)).frame

@[simp] theorem cutStrikes_saf (d : Dev) (ofs : Nat) : (d.cutStrikes ofs).saf = d.saf :=
  (frame_cutStrikes d ofs).saf.resolve_left (by decide)

/-- An abandoned calibration run changes no part but those of `logging`, the calibration and the run-ahead (R336). -/
theorem frame_calAbandon (d : Dev) : Frame 55085209 d d.calAbandon :=
  (keeps_Dev_calAbandon (allows_frame 55085209 d) (inv_frameScope 55085209 d)).frame

@[simp] theorem calAbandon_saf (d : Dev) : d.calAbandon.saf = d.saf := (frame_calAbandon d).saf.resolve_left (by decide)

/-! ### The assertion of SAFE_STATE (R571, R574) -/

/-- An assertion changes no part but those of `logging`, the safety partition, the run-ahead, the heat model and the
calibration. -/
theorem frame_safeAssert (d : Dev) (cause tile : Nat) : Frame 55094425 d (d.safeAssert cause tile) :=
  (keeps_Dev_safeAssert (allows_frame 55094425 d) (inv_frameScope 55094425 d)).frame

@[simp] theorem safeAssert_clk (d : Dev) (cause tile : Nat) : (d.safeAssert cause tile).clk = d.clk :=
  (frame_safeAssert d cause tile).clk.resolve_left (by decide)

/-- A supplied partition asserts SAFE_STATE and adds the cause to those latched, whether SAFE_STATE was asserted before,
whether the instant is a cut, and whether the main partition is up to log it. -/
theorem safeAssert_latches {d : Dev} (cause tile : Nat) (hon : d.saf.on = true) :
    (d.safeAssert cause tile).saf.safe = true ∧ (d.safeAssert cause tile).saf.cause = d.saf.cause ||| 2 ^ cause := by
  unfold Dev.safeAssert
  rw [if_neg (by simp [hon])]
  extract_lets was d1 off cut d2 d3
  have cutLatched : d3.saf.safe = true ∧ d3.saf.cause = d.saf.cause ||| 2 ^ cause := by
    unfold d3
    split
    · rw [cutStrikes_saf]; exact ⟨rfl, rfl⟩
    · exact ⟨rfl, rfl⟩
  split
  · exact ⟨rfl, rfl⟩
  · split
    · rw [calAbandon_saf, event_saf, msix_saf]; exact cutLatched
    · exact cutLatched

theorem safeAssert_safe {d : Dev} (cause tile : Nat) (hon : d.saf.on = true) : (d.safeAssert cause tile).saf.safe = true :=
  (safeAssert_latches cause tile hon).1

theorem bit_safeAssert_cause {d : Dev} (cause tile : Nat) (hon : d.saf.on = true) :
    bit (d.safeAssert cause tile).saf.cause cause = true := by
  rw [(safeAssert_latches cause tile hon).2, bit, Nat.testBit_or, Nat.testBit_two_pow_self, Bool.or_true]

/-! ### The heartbeat timeout (R556) -/

@[simp] theorem reachUp_saf (d : Dev) (u : Nat) : (d.reachUp u).saf = d.saf :=
  (frame_after d (u - d.clk.up)).saf.resolve_left (by decide)

/-- The core-cycle count reaches a value that lies ahead, and stays where it has passed it. -/
theorem reachUp_up (d : Dev) (u : Nat) : (d.reachUp u).clk.up = max d.clk.up u := by
  have counted : (d.reachUp u).clk.up = d.clk.up + (u - d.clk.up) := rfl
  omega

theorem safHeartbeatTimeout_of_disabled {d : Dev} (hms : d.get Reg.SAF_CFG Fd.SAF_CFG_HB_MS = 0) :
    safHeartbeatTimeout d = d := if_pos (.inr hms)

theorem safHeartbeatTimeout_of_enabled {d : Dev} (hon : d.saf.on = true) (hms : d.get Reg.SAF_CFG Fd.SAF_CFG_HB_MS ≠ 0) :
    safHeartbeatTimeout d =
      (d.reachUp (d.saf.hbAt + d.get Reg.SAF_CFG Fd.SAF_CFG_HB_MS * 1250000)).safeAssert cHB 0xFF :=
  if_neg (by simp [hon, hms])

/-- SAF_HEARTBEAT_TIMEOUT completes with its effect on the device. -/
theorem exec_safHeartbeatTimeout (s : State) :
    exec .safHeartbeatTimeout s = .next { s with dev := safHeartbeatTimeout s.dev } := rfl

/-- Settles O22: HB_MS ms after the last accepted request the timer asserts SAFE_STATE, and a timer of 0 ms does nothing. -/
theorem heartbeatTimeoutAssertsSafeState : Obligations.HeartbeatTimeoutAssertsSafeState := by
  unfold Obligations.HeartbeatTimeoutAssertsSafeState
  intro s hon
  constructor
  · intro enabled
    have stillOn (u : Nat) : (s.dev.reachUp u).saf.on = true := by rw [reachUp_saf, hon]
    refine ⟨_, exec_safHeartbeatTimeout s, ?_⟩
    simp only [safHeartbeatTimeout_of_enabled hon enabled]
    refine ⟨safeAssert_safe _ _ (stillOn _), bit_safeAssert_cause cHB _ (stillOn _), ?_⟩
    rw [safeAssert_clk, reachUp_up]
  · intro disabled
    exact ⟨_, exec_safHeartbeatTimeout s, safHeartbeatTimeout_of_disabled disabled⟩

end Sys2Proof.Proofs
end
